-- ==== Sys2Proof/Word.lean ====
section
/-! DEFINITION. Index types and word types of the KV-1616 (R2: every index counts from 0). -/
namespace Sys2Proof

/-- One byte. -/
abbrev Byte := BitVec 8
/-- One 32-bit register word (R5). -/
abbrev Word := BitVec 32
/-- A mechanism, m = 0–15. -/
abbrev Mech := Fin 16
/-- A beam within a head, b = 0–15. -/
abbrev Beam := Fin 16
/-- A recording layer, l = 0–3. -/
abbrev Layer := Fin 4
/-- A servo loop, LOOP_ID 0–24 (R32). -/
abbrev LoopId := Fin 25
/-- A partition number (R20). -/
abbrev Part := Fin 27
/-- A buffer channel, c = 0–23. -/
abbrev Chan := Fin 24
/-- A DMA channel, 0–63. -/
abbrev DmaCh := Fin 64
/-- A queue pair of a port, 0–127. -/
abbrev Pair := Fin 128

end Sys2Proof
end

