-- ==== Sys2Proof/Syntax.lean ====
section
/-! DEFINITION. The commands of the block: one constructor of `Instr` per row of spec/opcode_table.json, with the
data that comes from outside the device as operands. -/
namespace Sys2Proof

/-- The two host ports (R2). -/
inductive Port where
  | A | B
deriving DecidableEq, Repr

/-- Index of a port: 0 for A, 1 for B. -/
def Port.idx : Port → Nat
  | .A => 0
  | .B => 1

/-- The other port. -/
def Port.other : Port → Port
  | .A => .B
  | .B => .A

/-- What resets a host port, beside PERST_N (R74). -/
inductive PortResetKind where
  | hot | linkDown | functionLevel
deriving DecidableEq, Repr

/-- A signed image as it is read from flash or host memory: its trailer fields (R469), the 512-bit digest M of R469 and
the bytes of key and signature that R470 checks. -/
structure SignedImage where
  magicOk    : Bool           -- MAGIC reads "GSIG" and reserved bytes are 0
  type       : Nat            -- TYPE, 0 boot firmware, 1 service firmware, 2 microcode, 3 legacy container
  gkSlot     : Bool           -- FLAGS[0]
  revokeGk0  : Bool           -- FLAGS[1]
  rollback   : Nat            -- ROLLBACK
  pubkey     : List Byte      -- PUBKEY
  digest     : BitVec 512     -- M
  sig        : List Byte      -- SIG
  version    : Word           -- the version the image reports of itself
deriving DecidableEq, Repr

/-- A native microcode image (R462) with its trailer. -/
structure UcodeImage where
  trailer    : SignedImage
  magicOk    : Bool                -- MAGIC reads "FSQU"
  version    : Word
  rollback   : Nat
  words      : List (BitVec 128)   -- the micro-words, ECC field included
  mechMask   : BitVec 16
  reservedOk : Bool                -- header bytes 14–63 read 0
  digest     : BitVec 512
deriving DecidableEq, Repr

/-- A Ronnov KV-812 patch container (R465, R477): its trailer, whether its GCM tag verifies, CLEN and the plain text. -/
structure LegacyContainer where
  trailer  : SignedImage
  magicOk  : Bool
  iv       : BitVec 96
  cipher   : List Byte
  tag      : BitVec 128
  clen     : Nat
deriving DecidableEq, Repr

/-- What Ox samples of one mechanism in one 250 ns frame (R61, R83, R506). -/
structure OxInputs where
  regen   : Bool     -- bus at or above the regeneration-stop threshold
  short   : Bool     -- bus at or above the active-short threshold
  gatesOff : Bool    -- bus at or above the gates-off threshold
  uv      : Bool     -- undervoltage comparator
  below2V : Bool     -- bus at least 2 V below the regeneration-stop threshold
  motion  : Bool     -- spindle-motion comparator shows rotation
  limIn   : Bool     -- inner limit switch asserted
  limOut  : Bool     -- outer limit switch asserted
  psFault : Bool     -- power-stage fault input asserted
  disc    : Bool     -- disc-present input asserted
deriving DecidableEq, Repr

/-- One SMBus transaction as Ox receives it: the PEC byte received and the one computed, the byte count and the data. -/
structure SmbFrame where
  pecRx  : Byte
  pecExp : Byte
  count  : Nat
  data   : List Byte
deriving DecidableEq, Repr

/-- A wake source, numbered as OXA_WAKE_SRC (R59, R65). -/
inductive WakeSrc where
  | portA | portB | smbus | timer | mechEvent | temperature
deriving DecidableEq, Repr

/-- The direction and data of a BAR2 access (R487). -/
inductive Bar2Op where
  | read (len : Nat)
  | write (data : List Byte)
deriving DecidableEq, Repr

/-- A media request of the Queue Engine or the Archive Service for a mechanism (R92). -/
inductive MediaKind where
  | read | verify | flushWait | objectGet | write | catalogue
deriving DecidableEq, Repr

/-- A media request: the command slot it serves (0-based; `none` for the Archive Service), what it is and its PBA. -/
structure MediaReq where
  slot : Option Nat
  kind : MediaKind
  pba  : Word
deriving DecidableEq, Repr

/-- A defect of R155. -/
inductive Defect where
  | dropout (b : Beam)
  | bright (b : Beam)
  | focus
deriving DecidableEq, Repr

/-- What one step of the full calibration measured (R161–R163, R270, R271). -/
inductive CalResult where
  | runout (layer : Layer)
  | seekDone
  | layerDone (layer : Layer) (focOfs rtilt ttilt : BitVec 16) (pair : Nat) (pwOpt err : List (BitVec 16))
  | finish
deriving DecidableEq, Repr

/-- The samples of one DTC step or PWM period: phase currents and voltages (mA and 10 mV), bus voltage (10 mV), chopper
current (mA). -/
structure MotorSample where
  ia : Int
  ib : Int
  ic : Int
  va : Int
  vb : Int
  vc : Int
  vbus : Nat
  ichop : Nat
deriving DecidableEq, Repr

/-- How a Head Link training ended (R245). -/
structure TrainResult where
  linkOk : Bool              -- steps 1 to 4 succeeded
  status : BitVec 36         -- the head's STATUS at step 5
  id     : BitVec 16         -- HF_ID
  ver    : BitVec 16         -- HF_VER
  rtt    : BitVec 16         -- RTT, 0.1 ns
  skew1  : BitVec 8
  skew2  : BitVec 8
  eq     : List Word         -- HLK_EQ0–3
deriving DecidableEq, Repr

/-- The outcome of one LDPC codeword (R303). -/
inductive CwOutcome where
  | converged (iters : Nat) | erased | iter | flip | backlog
deriving DecidableEq, Repr

/-- An error found by the inline ECC of a burst (R327). -/
inductive EccResult where
  | clean | single | double
deriving DecidableEq, Repr

/-- A block that a catalogue lists (VOLMAP, R405): VOL, volume block index, PBA and the sectors that hold data. -/
structure CatBlock where
  vol   : Nat
  index : Nat
  pba   : Word
  mask  : BitVec 16
deriving DecidableEq, Repr

/-- An extent of an object that a catalogue lists (OBJECT, R405). -/
structure CatExtent where
  pba     : Word
  first   : Nat
  sectors : Nat
deriving DecidableEq, Repr

/-- An object that a catalogue lists (OBJECT, R405). -/
structure CatObject where
  vol      : Nat
  ident    : Nat
  version  : Nat
  size     : Nat
  isSealed : Bool
  extents  : List CatExtent
deriving DecidableEq, Repr

/-- A parity group that a catalogue lists (GROUP, R405): member index and PBA of each member, the parity blocks and the mask of
missing members. -/
structure CatGroup where
  ident   : Nat
  members : List (Nat × Word)
  parity  : List Word
  missing : Nat
deriving DecidableEq, Repr

/-- What the catalogue of a newly loaded disc holds (R407), as replayed or rebuilt. -/
structure DiscInfo where
  blank   : Bool
  rebuilt : Bool
  discId  : BitVec 64
  p       : Nat
  q       : Nat
  layers  : Nat
  placed  : Nat                           -- data slots placed
  scanned : Nat                           -- blocks scanned by a rebuild
  drt     : List (Word × Word × Word)     -- DRT entries (R317)
  ckptSeq : Nat                           -- sequence number of its newest CHECKPOINT
  volmap  : List CatBlock
  objects : List CatObject
  groups  : List CatGroup
  swaths  : List (Layer × Nat × BitVec 16 × Nat)   -- SWATH records: layer, swath, BEAM_MASK and slot length
deriving DecidableEq, Repr

/-- What failed in host memory (R388). -/
inductive HostErr where
  | data (slot : Nat)
  | fetch (p : Port) (q : Pair)
  | cqWrite (p : Port) (q : Pair)
  | ecrc (p : Port)
deriving DecidableEq, Repr

/-- How a host port is asked over configuration space (R67, R350, R353). -/
inductive CfgReq where
  | read (off : Nat)
  | write (off : Nat) (v : Word)
  | d0 | d3hot
deriving DecidableEq, Repr

/-- The PCIe link power states of R58 and R350. -/
inductive LinkPm where
  | l0 | l1 | l11 | l12
deriving DecidableEq, Repr

/-- The boundary-scan instructions of R509. -/
inductive JtagInstr where
  | bypass | idcode | samplePreload | extest | extestPulse | extestTrain | clamp | highz
deriving DecidableEq, Repr

/-- What limits a failed DMA access (R426, R427). -/
inductive DmaFail where
  | bus | poison | fetch
deriving DecidableEq, Repr

/-- What the FSQ sees of its timing inputs while it executes one micro-word (R450, R451): the channel-bit count of the
lowest beam in use, the 48 bits of the groove address that came since the previous word, if any (R251), and what the ECC of the word
shows. -/
structure FsqInputs where
  cb      : Nat
  addr    : Option (BitVec 48)
  ecc     : EccResult
deriving DecidableEq, Repr

/-- The commands. -/
inductive Instr where
  -- power, Ox, SMBus (R53–R85)
  | powerUp (trims : List (BitVec 10))
  | mainPgAssert
  | mainPgTimeout
  | mainPgLoss
  | vaonLoss
  | systemPllLock
  | pllLockLossTimeout
  | heartbeatTimeout
  | unpartitionedUe
  | bootRomVerify (pref : Bool) (slot0 slot1 : Option SignedImage)
  | bootFwLoad (svc : Option SignedImage) (ucode : Option UcodeImage) (legacy : List LegacyContainer)
      (ownerKey : Option (List Byte))
  | calibrationDone (trained : BitVec 24) (sensorOfs : List (BitVec 16)) (pprBanks : List (Chan × Nat)) (phy : List (Word × Word))
      (heads : List TrainResult)
  | startImageLoad (slotA slotB : Option (List Byte))
  | startComplete (burnOk : Bool)
  | oxFrame (m : Mech) (i : OxInputs)
  | comparatorTrimRecheck (m : Mech) (c : Fin 5) (code : BitVec 10)
  | temperatureReading (k : Fin 8) (t : BitVec 16)
  | smbStatus (f : SmbFrame)
  | smbTime (f : SmbFrame)
  | smbTemps (f : SmbFrame)
  | smbLogRead (f : SmbFrame)
  | smbHealth (f : SmbFrame)
  | smbEnterOxOnly (f : SmbFrame)
  | smbRecover (f : SmbFrame)
  | smbWake (f : SmbFrame)
  | smbUnknownCommand (cmd : Byte)
  | smbClockTimeout (cmd : Option Byte)
  | deepIdleEntry
  | wakeEvent (src : WakeSrc) (m : Mech)
  | oxaTimerMatch
  | bufferSelfRefreshEntry (k : Fin 6)
  -- partitions and ports (R20–R25, R71–R75, R386)
  | perstAssert (p : Port)
  | perstDeassert (p : Port)
  | portReset (p : Port) (k : PortResetKind)
  | portLinkUp (p : Port)
  | partitionResetGo (w : Word)
  | orderlyStepDone (n : Part)
  | partitionReady (n : Part)
  | crossPartitionReply (src : Part) (epoch : BitVec 16) (recv : Fin 28)
  | crossPartitionRequest (target : Part) (epoch : BitVec 16)
  | bar0BadAccess (p : Port) (off : Word) (firstBE lastBE : BitVec 4) (isWrite : Bool)
  | registerWrite (p : Port) (off : Nat) (v : Word)
  | bar2Access (addr : Nat) (op : Bar2Op)
  -- firmware and structure images (R79–R80, R26–R52)
  | firmwareActivate (slot : Nat)
  | fwImportDone (ok : Bool) (burnOk : Bool)
  | activateTimeout
  | ucodeActivateTimeout
  | structureReload (slot : Nat)
  | loaderCheckDone (image : List Byte)
  | reloadRestReached (m : Mech)
  | reloadRestTimeout (m : Mech)
  -- mechanism control (R86–R105)
  | mchInit (m : Mech) (arg : BitVec 24) (arc : Bool)
  | mchOff (m : Mech) (arg : BitVec 24) (arc : Bool)
  | spinUp (m : Mech) (arg : BitVec 24) (arc : Bool)
  | focus (m : Mech) (arg : BitVec 24) (arc : Bool)
  | track (m : Mech) (arg : BitVec 24) (arc : Bool)
  | seek (m : Mech) (arg : BitVec 24) (arc : Bool)
  | park (m : Mech) (arg : BitVec 24) (arc : Bool)
  | exchange (m : Mech) (arg : BitVec 24) (arc : Bool)
  | exchangeEnd (m : Mech) (arg : BitVec 24) (arc : Bool)
  | clearFault (m : Mech) (arg : BitVec 24) (arc : Bool)
  | safe (m : Mech) (arg : BitVec 24) (arc : Bool)
  | retireBeam (m : Mech) (arg : BitVec 24) (arc : Bool)
  | restoreBeam (m : Mech) (arg : BitVec 24) (arc : Bool)
  | setSpeed (m : Mech) (arg : BitVec 24) (arc : Bool)
  | mchUnknownOp (m : Mech) (op : Byte) (arc : Bool)
  | mediaRequest (m : Mech) (r : MediaReq)
  | speedReached (m : Mech)
  | spinupTimeout (m : Mech)
  | focusTimeout (m : Mech)
  | trackTimeout (m : Mech)
  | seekTimeout (m : Mech)
  | calTimeout (m : Mech)
  | holdTimeout (m : Mech) (slot : Nat)
  | idlePark (m : Mech)
  | restReached (m : Mech)
  | discOut (m : Mech)
  | discIn (m : Mech)
  | exchangeComplete (m : Mech)
  | exchangeTimeout (m : Mech)
  | discChange (m : Mech) (present : Bool)
  | motionChange (m : Mech)
  | pstageFaultInput (m : Mech)
  | faultEscalation (m : Mech)
  -- Mule and optical loops (R107–R167)
  | servoFrame (m : Mech) (c : BitVec 512) (arrival : Int) (eccCe : Nat) (eccUe : List LoopId) (cb : List Nat)
  | lostFrame (m : Mech) (eccCe : Nat) (eccUe : List LoopId) (cb : List Nat)
  | regionEvaluation (m : Mech)
  | bankPrefetchDone (m : Mech) (l : LoopId)
  | srvModeWrite (m : Mech) (l : LoopId) (w : Word)
  | focusCapture (m : Mech)
  | focusAcquired (m : Mech)
  | focusSweepFail (m : Mech)
  | layerJump (m : Mech) (deeper : Bool)
  | jumpCapture (m : Mech)
  | jumpTimeout (m : Mech)
  | focusLoss (m : Mech)
  | slip (m : Mech) (b : Beam)
  | trackingLoss (m : Mech)
  | defectOnset (m : Mech) (d : Defect)
  | defectEnd (m : Mech) (d : Defect)
  | defectHoldExpiry (m : Mech) (d : Defect)
  | sledMoveDone (m : Mech)
  | shortSeekDone (m : Mech)
  | addressCheck (m : Mech) (swath : Nat) (k : Beam)
  | indexMark (m : Mech)
  | calibrationStepDone (m : Mech) (r : CalResult)
  | quickCalibration (m : Mech) (l : Layer) (focOfs rtilt : BitVec 16)
  -- spindle (R168–R200)
  | catchEnd (m : Mech)
  | fluxBuildDone (m : Mech)
  | dtcStep (m : Mech) (i : MotorSample)
  | commutation (m : Mech) (rejected : Bool)
  | handover (m : Mech)
  | handback (m : Mech) (cause : Fin 7)
  | brakeStop (m : Mech)
  | shortBrakeOnEnd (m : Mech)
  | shortBrakeReleaseEnd (m : Mech)
  | chopperSwitch (m : Mech) (vbus : Nat)
  | chopperFault (m : Mech)
  | regenEvent (m : Mech)
  | shortVReached (m : Mech)
  | gatesoffVReached (m : Mech)
  | busHoldRelease (m : Mech)
  | undervoltage (m : Mech)
  | undervoltageTimeout (m : Mech)
  | overcurrentTrip (m : Mech) (cur : Nat)
  | commutationFailure (m : Mech)
  | dsmStreamFault (m : Mech) (stream : Fin 8)
  | keMeasurement (m : Mech)
  | keClear (m : Mech)
  | chopClear (m : Mech)
  | dsmCfgWrite (m : Mech) (w : Word)
  -- sled (R201–R224)
  | sledPwmPeriod (m : Mech)
  | limitSwitchAssert (m : Mech) (outer : Bool)
  | limitSwitchDeassert (m : Mech) (outer : Bool)
  | bothLimitsAsserted (m : Mech)
  | limitChatter (m : Mech) (outer : Bool)
  | homing (m : Mech)
  | homingFail (m : Mech) (case : Fin 4)
  | sledStop (m : Mech)
  | sledResume (m : Mech)
  | sldUnknownOp (m : Mech) (op : BitVec 4)
  | sledHoldExpiry (m : Mech)
  | uvResume (m : Mech)
  -- Head Link (R225–R249)
  | upstreamBlock (m : Mech) (lane : Fin 3) (levels : List (BitVec 2))
  | regData (m : Mech) (addr data : BitVec 16) (tag : BitVec 4)
  | regErr (m : Mech) (addr : BitVec 16) (code : Byte) (tag : BitVec 4)
  | dnErr (m : Mech) (seq : BitVec 6) (hdr : Bool)
  | wlate (m : Mech) (b : Beam) (pos : Word)
  | headStatus (m : Mech) (st : BitVec 36)
  | blockLockLoss (m : Mech) (lane : Fin 3)
  | errorRateExceeded (m : Mech) (lane : Fin 3)
  | hlkRegTimeout (m : Mech) (tag : BitVec 4)
  | fullTraining (m : Mech)
  | fastRetrain (m : Mech)
  | trainingDone (m : Mech) (r : TrainResult)
  | hlkRetrain (m : Mech)
  | hlkFull (m : Mech)
  | hlkRegGo (m : Mech) (w : Word)
  -- recording and recovery (R250–R323)
  | revolutionMark (m : Mech)
  | ganderClassify (m : Mech) (pba : Word)
  | groupTimeout (m : Mech) (gid : Nat)
  | partialBlockTimeout (blk : Nat)
  | slotUnderrun (m : Mech) (blk : Nat)
  | codewordDecoded (m : Mech)
  | blockDecoded (m : Mech) (pba : Word)
  | goatContextOpen (m : Mech) (pba : Word)
  | goatRungDone (m : Mech) (pba : Word)
  | goatTimeout (m : Mech) (pba : Word)
  | groupDecodeDone (m : Mech) (pba : Word)
  | recoveryEnd (m : Mech) (pba : Word)
  | refreshIdleTimeout (m : Mech)
  | bucketLeak (m : Mech)
  | drtLookup (m : Mech) (pba : Word)
  | drtSliceLoad (m : Mech) (entries : List (Word × Word × Word))
  -- buffer (R324–R349)
  | bufferRead (addr : Nat) (r : EccResult)
  | mr4Poll (c : Chan) (code : BitVec 3) (hot : Bool)
  | scrubRead (addr : Nat) (r : EccResult)
  | channelRetireCause (c : Chan) (cause : Fin 6) (readable : Bool)
  | bufRetireGo (w : Word)
  | retirementCopyDone (c : Chan)
  | rateUpdate (dNow mNow rUsed : Nat)
  | writeAdmission (slot : Nat)
  | holdLimitRefusal (slot : Nat)
  -- host queues (R350–R389)
  | sqTailDoorbell (p : Port) (q : Pair) (w : Word)
  | cqHeadDoorbell (p : Port) (q : Pair) (w : Word)
  | restartDoorbell (p : Port) (q : Pair) (w : Word)
  | queueEnable (p : Port) (q : Pair)
  | queueDisable (p : Port) (q : Pair)
  | submissionFetch (p : Port) (entry : List Byte) (dlist : List Byte)
  | completionCommit (slot : Nat)
  | flush (slot : Nat)
  | write (slot : Nat) (data : List Byte)
  | read (slot : Nat)
  | verify (slot : Nat)
  | abort (slot : Nat)
  | streamOpen (slot : Nat)
  | streamClose (slot : Nat)
  | objectPut (slot : Nat) (data : List Byte)
  | objectGet (slot : Nat)
  | catalogueQuery (slot : Nat)
  | identify (slot : Nat)
  | getLog (slot : Nat)
  | selfTest (slot : Nat)
  | selftestResume
  | selftestEnd (fail : Bool) (step : Byte) (mech : Byte) (rung4 : BitVec 16) (firstPba : Word)
  | setFeature (slot : Nat)
  | createVolume (slot : Nat)
  | deleteVolume (slot : Nat)
  | firmwareStage (slot : Nat) (img : SignedImage) (ucode : Option UcodeImage) (flashOk : Bool)
  | attestation (slot : Nat) (sig : List Byte)
  | hostMemoryError (e : HostErr)
  -- Archive Service (R390–R414)
  | blockPlacement (blk : Nat)
  | placeHoldTimeout (slot : Nat)
  | mechanismJoin (m : Mech)
  | checkpointInterval (m : Mech)
  | checkpointWritten (m : Mech) (cls : Fin 3)
  | discLoad (m : Mech) (d : DiscInfo)
  | discFull (m : Mech)
  | withdrawTimeout (m : Mech)
  | exchDone (m : Mech)
  | mboxCheckpoint (m : Mech)
  | mboxHold (m : Mech)
  | mboxRelease (m : Mech)
  | mboxExchange (m : Mech)
  -- DMA (R415–R431)
  | dmaStart (n : DmaCh)
  | dmaStop (n : DmaCh)
  | dmaClear (n : DmaCh)
  | dmaPcWrite (n : DmaCh) (hi : Bool) (w : Word)
  | dmaCfgWrite (n : DmaCh) (w : Word)
  | dmaEnd (n : DmaCh)
  | dmaMove (n : DmaCh) (hostData : List Byte)
  | dmaLoop (n : DmaCh)
  | dmaWait (n : DmaCh)
  | dmaSignal (n : DmaCh)
  | waitSatisfied (n : DmaCh)
  | waitTimeout (n : DmaCh)
  | dmaAccessFail (n : DmaCh) (f : DmaFail) (addr : BitVec 64) (space : Fin 4)
  | dmaEpochReissue (n : DmaCh) (addr : BitVec 64) (space : Fin 4) (late : Bool)
  | dmaSemWrite (i : Fin 64) (w : Word)
  -- metadata cache (R432–R444)
  | metadataRequest (addr : Nat) (wr : Option (List Byte))
  | cacheFillDone (line : Nat) (poisoned : Bool)
  | maintZero
  | maintClean
  | maintInvalidate
  | maintCleanInv
  | maintLockLoad
  | maintInvAll
  | maintDone
  | mdcDisable
  | mdcEnable
  -- format sequencers (R445–R466)
  | routineDispatch (m : Mech)
  | microWord (m : Mech) (i : FsqInputs)
  | gatePosition (m : Mech) (b : Beam) (cb : Nat)
  | routineAbandon (m : Mech)
  | routineRestart (m : Mech)
  | fsqWatchdog (m : Mech)
  | fsqResume (m : Mech)
  | userGo (m : Mech) (w : Word)
  -- security (R467–R482)
  | ownerEnrol
  | ownerRestore
  | ownerOpDone (flashOk : Bool)
  | flashFault (code : Fin 3)
  -- register reads, configuration space and the remaining events
  | registerRead (p : Port) (off : Nat)
  | configurationRequest (p : Port) (r : CfgReq)
  | l1SubstateEntry (p : Port) (st : LinkPm)
  | crystalValid
  | crystalStop
  | zqCalibration (c : Chan) (code : Word)
  | dqsOscillatorTracking (c : Chan) (taps : Word)
  | allBankRefresh (c : Chan)
  | healthPageUpdate
  | powerEstimateUpdate (p : Nat)
  | interruptAggregationTimeout (p : Port) (q : Pair)
  | boundaryScanInstruction (i : JtagInstr) (boundary : Word)
  | serviceProcessorWatchdog
  | internalParityError (dma : Bool)
  | wchLoadDone (m : Mech)
  | spindlePwmPeriod (m : Mech) (i : MotorSample)
deriving DecidableEq, Repr

end Sys2Proof
end

