-- ==== Sys2Proof/Config.lean ====
section
/-! DEFINITION. What the spec leaves open or does not define numerically: constants without a body, so that no proof can
see a value of them. -/
namespace Sys2Proof

/-- A free value: the n-th value of this run that the spec leaves open. The step applies it to the plain counter
`Dev.free`, which it advances (log entry 3). -/
opaque Config.freeNat : Nat → Nat

/-- Gornodom's Vendor ID (R350, R488): the spec gives no number. -/
opaque Config.vendorId : BitVec 16

/-- Gornodom's JEDEC manufacturer code, which IDCODE carries (R509): the spec gives no number. -/
opaque Config.jedecId : BitVec 11

/-- Fuse content: FAMILY_KEY (R467), which nothing reads out (R468). -/
opaque Config.familyKey : BitVec 256

/-- Fuse content written at manufacture (R467): GK_HASH0 and GK_HASH1. -/
opaque Config.gkHash : Bool → BitVec 512

/-- Fuse content: LEGACY_DIS (R467). -/
opaque Config.legacyDis : Bool

/-- Fuse content: ID_HASH (R467). -/
opaque Config.idHash : BitVec 512

/-- The public key that SEC derives from ID_SEED (R478). -/
opaque Config.idPublic : List Byte

/-- The endorsement in flash, if the flash holds one (R478, R479). -/
opaque Config.endorsement : Option (List Byte)

/-- Whether the boot directory in flash enables BAR2 (R352). -/
opaque Config.bar2Implemented : Bool

/-- The buffer channel that holds a usable address, given the mask of active channels: the spec does not say how addresses
spread over the channels (log entry 24). -/
opaque Config.bufChannel : (active addr : Nat) → Nat

/-- The row of its channel that holds a usable address (log entry 24). -/
opaque Config.bufRow : (addr : Nat) → Nat

/-- The bank of a row of a buffer channel: the spec does not say how rows lie in banks (log entry 24). -/
opaque Config.bufBank : (row : Nat) → Nat

/-- The check bits that the device stores with a micro-word: the spec names a SEC-DED check over bits 119 to 0 and gives no
code (R447, log entry 25). -/
opaque Config.wordEcc : BitVec 120 → BitVec 8

/-- The bytes of a reply whose fields the spec lists without placing them: Catalogue Query entries and the Identify data of
a volume and a port (R385, R411, log entry 26). -/
opaque Config.layout : (kind : Nat) → (fields : List Nat) → List Byte

/-- What the timing recovery's interpolator gives at a phase, in 1/65,536 of a channel bit, from the samples around a channel bit, in
1/1,024 of full scale: the spec names no interpolation (R290, log entry 195). -/
opaque Config.interpolate : (tau : Int) → (window : List Int) → Int

/-- The phase, in 1/65,536 of a channel bit, that an output of the Mueller–Müller detector means: the spec gives no gain (R290, log
entry 195). -/
opaque Config.phaseOf : Int → Int

/-- The magnitude of the LLR that a metric difference gives, before the limit of 15: the spec gives no scale (R298, log entry 195). -/
opaque Config.llrMag : Nat → Nat

/-- The dropout detector's reference before any frame without a dropout has been read (R297, log entry 195). -/
opaque Config.envelopeRef : Nat

end Sys2Proof
end

