-- ==== Sys2Proof/Machine/Sparse.lean ====
section
/-! DEFINITION. Sparse stores: a list of (key, value) pairs in one canonical form (keys strictly rising, no entry equal to
what an unlisted key reads as), used for the register store and for the buffer memory; and byte and bit-field helpers. -/
namespace Sys2Proof.Machine

/-- The value stored at key `k`, if any. -/
def Sparse.lookup {α : Type} : List (Nat × α) → Nat → Option α
  | [], _ => none
  | (k', v) :: t, k => if k' = k then some v else Sparse.lookup t k

/-- The store without key `k`. -/
def Sparse.erase {α : Type} : List (Nat × α) → Nat → List (Nat × α)
  | [], _ => []
  | (k', v) :: t, k => if k' = k then Sparse.erase t k else (k', v) :: Sparse.erase t k

/-- Puts a pair in front of the first larger key. -/
def Sparse.insert {α : Type} : List (Nat × α) → Nat → α → List (Nat × α)
  | [], k, v => [(k, v)]
  | (k', v') :: t, k, v => if k < k' then (k, v) :: (k', v') :: t else (k', v') :: Sparse.insert t k v

/-- Writes `v` at `k`; the value `dflt` that an unlisted key reads as removes the entry. -/
def Sparse.put {α : Type} [DecidableEq α] (dflt : α) (l : List (Nat × α)) (k : Nat) (v : α) : List (Nat × α) :=
  if v = dflt then Sparse.erase l k else Sparse.insert (Sparse.erase l k) k v

/-- The value read at `k`. -/
def Sparse.get {α : Type} (dflt : α) (l : List (Nat × α)) (k : Nat) : α := (Sparse.lookup l k).getD dflt

/-- Keys strictly rising. -/
def Sparse.sorted {α : Type} : List (Nat × α) → Bool
  | [] => true
  | [_] => true
  | (a, _) :: (b, w) :: t => decide (a < b) && Sparse.sorted ((b, w) :: t)

/-- Addressed memory: the buffer (R487). An unlisted byte reads 0 (R22 clears the buffer). -/
abbrev Memory := List Host.Cell

/-- The canonical form of a memory. -/
def Memory.wf (m : Memory) : Bool := Sparse.sorted m && m.all (fun c => decide (c.2 ≠ 0))

/-- Reads one byte. -/
def Memory.read (m : Memory) (a : Nat) : Byte := Sparse.get 0 m a

/-- Writes one byte. -/
def Memory.write (m : Memory) (a : Nat) (b : Byte) : Memory := Sparse.put 0 m a b

/-- The cells of bytes that lie from address `a` upward; zeros have none. -/
def Memory.cells (a : Nat) : List Byte → Memory
  | [] => []
  | b :: t => if b = 0 then Memory.cells (a + 1) t else (a, b) :: Memory.cells (a + 1) t

/-- Writes the bytes of a list from address `a` upward. -/
def Memory.writeBytes (m : Memory) (a : Nat) (l : List Byte) : Memory :=
  m.filter (fun c => decide (c.1 < a)) ++ Memory.cells a l ++ m.filter (fun c => decide (a + l.length ≤ c.1))

/-- Reads `n` bytes from address `a` upward. -/
def Memory.readBytes (m : Memory) (a n : Nat) : List Byte :=
  let w := m.filter (fun c => decide (a ≤ c.1 ∧ c.1 < a + n))
  (List.range n).map (fun i => Memory.read w (a + i))

/-- The `n` little-endian bytes of a number. -/
def leBytes : (n v : Nat) → List Byte
  | 0, _ => []
  | n + 1, v => BitVec.ofNat 8 v :: leBytes n (v / 256)

/-- The number that little-endian bytes spell. -/
def ofLE : List Byte → Nat
  | [] => 0
  | b :: t => b.toNat + 256 * ofLE t

/-- `n` bytes of a byte list from offset `o`, as a little-endian number; bytes beyond the list count as 0. -/
def byteField (l : List Byte) (o n : Nat) : Nat := ofLE ((l.drop o).take n)

/-- Bits `[lo + w - 1 : lo]` of a number. -/
def bits (v lo w : Nat) : Nat := (v >>> lo) % 2 ^ w

/-- Bit `i` of a number, as a Bool. -/
def tbit (v i : Nat) : Bool := v.testBit i

/-- `v` with bit `i` set. -/
def setb (v i : Nat) : Nat := v ||| (1 <<< i)

/-- `v` with bit `i` cleared. -/
def clrb (v i : Nat) : Nat := if v.testBit i then v - (1 <<< i) else v

/-- `v` with bit `i` equal to `b`. -/
def putb (v i : Nat) (b : Bool) : Nat := if b then setb v i else clrb v i

/-- The bits of `v` that are not in `mask`. -/
def andNot (v mask : Nat) : Nat := v - (v &&& mask)

/-- How many bits are set in `v`, looking at the lowest `n`. -/
def popcount : (n v : Nat) → Nat
  | 0, _ => 0
  | n + 1, v => v % 2 + popcount n (v / 2)

/-- A number of `w` bits read as a two's-complement value. -/
def toSigned (w v : Nat) : Int := if v % 2 ^ w < 2 ^ (w - 1) then (v % 2 ^ w : Nat) else (v % 2 ^ w : Nat) - (2 ^ w : Nat)

/-- A value as `w` two's-complement bits. -/
def ofSigned (w : Nat) (i : Int) : Nat := (i % (2 ^ w : Nat)).toNat

/-- `i` limited to `[lo, hi]`. -/
def clampInt (lo hi i : Int) : Int := if i < lo then lo else if hi < i then hi else i

/-- The largest `r` with `r * r ≤ v`, bit by bit from bit `n - 1`. -/
def isqrtFrom : (n r v : Nat) → Nat
  | 0, r, _ => r
  | n + 1, r, v => isqrtFrom n (if (r + 2 ^ n) * (r + 2 ^ n) ≤ v then r + 2 ^ n else r) v

/-- Integer square root of a value below 2^128. -/
def isqrt (v : Nat) : Nat := isqrtFrom 64 0 v

/-- Sixteen signed bits of a result, saturated. -/
def sat16 (i : Int) : Int := clampInt (-32768) 32767 i

/-- A Bool as 0 or 1. -/
def b2n (b : Bool) : Nat := if b then 1 else 0

/-- Replaces the bytes of `l` from position `o` by those of `b`, as far as `l` reaches. -/
def overlay (l : List Byte) (o : Nat) (b : List Byte) : List Byte :=
  l.take o ++ (b.take (l.length - o)) ++ l.drop (o + b.length)

/-- A zero-filled byte list of length `n` with the given fields, each (offset, bytes, value), written little-endian. -/
def fieldBytes (n : Nat) (fs : List (Nat × Nat × Nat)) : List Byte :=
  fs.foldl (fun l f => overlay l f.1 (leBytes f.2.1 f.2.2)) (List.replicate n 0)

end Sys2Proof.Machine
end

