-- ==== Sys2Proof/Machine/Codec.lean ====
section
/-! DEFINITION. The recorded format (R254–R266, R274, R278): slot geometry, block headers, LDPC encoding, dealing over the
beams, guided scrambling, write symbols, and group parity over GF(2^16). -/
namespace Sys2Proof.Machine
namespace Codec

/-! ### Geometry -/

/-- Bits of a codeword at code strength `p` (R260). -/
def cwBits (p : Nat) : Nat := 512 * (64 + p)

/-- Coded bits that R264 deals to the `i`-th of `n` beams: in round j, codeword c goes to beam (17 j + c) mod n. -/
def dealt (n p i : Nat) : Nat :=
  let rounds := cwBits p
  let extra := 16 % n
  let count (js : Nat) : Nat := ((List.range js).filter (fun j => decide ((i + 17 * n - (17 * j) % n) % n < extra))).length
  rounds * (16 / n) + (rounds / n) * extra + count (rounds % n)

/-- C_max of R255. -/
def cMax (n p : Nat) : Nat := ((List.range n).map (dealt n p)).foldl max 0

/-- M_n of R255: the per-beam payload length in coded bits. -/
def payloadBits (n p : Nat) : Nat := 128 * ((cMax n p + 127) / 128)

/-- L of R255: the slot length in channel bits. -/
def slotLen (n p : Nat) : Nat := 992 + 132 * payloadBits n p / 128

/-- Data slots among `s` physical slots with `q` parity slots per pattern (R256). -/
def dataSlots (s q : Nat) : Nat := s / (32 + q) * 32 + min (s % (32 + q)) 32

/-- Physical slot of data slot `d` (R256). -/
def physData (q d : Nat) : Nat := (32 + q) * (d / 32) + d % 32

/-- Physical slot of parity slot `t` (R256). -/
def physParity (q t : Nat) : Nat := (32 + q) * (t / q) + 32 + t % q

/-- Reserve slots: the last ⌈D × RELOC_PCT ÷ 100⌉ data slots (R256). -/
def reserveSlots (d pct : Nat) : Nat := (d * pct + 99) / 100

/-- A PBA from its fields (R257). -/
def pba (layer swath parity slot : Nat) : Nat := layer * 2 ^ 30 + swath * 2 ^ 16 + parity * 2 ^ 15 + slot

/-- Physical slot of a PBA (R256, R257). -/
def physSlot (q a : Nat) : Nat := if bits a 15 1 = 0 then physData q (bits a 0 15) else physParity q (bits a 0 15)

/-- The PBA of a physical slot. -/
def pbaOfPhys (layer swath q i : Nat) : Nat :=
  if i % (32 + q) < 32 then pba layer swath 0 (i / (32 + q) * 32 + i % (32 + q))
  else pba layer swath 1 (i / (32 + q) * q + (i % (32 + q) - 32))

/-! ### Block header (R258) -/

/-- One step of a reflected CRC over bits, low bit first. -/
def crcBit (poly crc : Nat) : Nat := if crc % 2 = 1 then (crc / 2) ^^^ poly else crc / 2

/-- CRC-32C (R228): reflected polynomial, initial value all ones, final complement. -/
def crc32c (l : List Byte) : Nat :=
  (l.foldl (fun crc b => (List.range 8).foldl (fun c _ => crcBit 0x82F63B78 c) (crc ^^^ b.toNat)) 0xFFFFFFFF) ^^^ 0xFFFFFFFF

/-- The fields of a block header that the device fills in. -/
structure Header where
  pba : Nat
  orig : Nat
  mask : Nat
  p : Nat
  q : Nat
  kind : Nat
  member : Nat
  groupN : Nat
  flags : Nat
  group : Nat
  tag : Nat
  time : Nat
  valid : Nat

/-- The 64 bytes of a block header (R258), HCRC included. -/
def headerBytes (h : Header) : List Byte :=
  let l := fieldBytes 60 [(0, 4, h.pba), (4, 4, h.orig), (8, 2, h.mask), (10, 1, h.p), (11, 1, h.q), (12, 1, h.kind),
    (13, 1, h.member), (14, 1, h.groupN), (15, 1, h.flags), (16, 8, h.group), (24, 8, h.tag), (32, 8, h.time),
    (40, 4, Config.idHash.toNat % 2 ^ 32), (44, 1, h.valid)]
  l ++ leBytes 4 (crc32c l)

/-! ### LDPC encoding (R260–R263) -/

/-- Bits of bytes, bit 0 of byte 0 first. -/
def bitsOf (l : List Byte) : List Bool := l.flatMap (fun b => (List.range 8).map (fun i => b.toNat.testBit i))

/-- The shift s(r, k) of R261. -/
def shift (r k : Nat) : Nat := (29 * (k + 1) * (2 * r + 1) + 83 * r) % 512

/-- Whether user column `k` has a circulant in row `r` (R261). -/
def inRow (p r k : Nat) : Bool := decide (r = k % p ∨ r = (k + p / 3) % p ∨ r = (k + 2 * (p / 3)) % p)

/-- S_r of R262 over the user columns, each a list of 512 bits. -/
def rowSum (p r : Nat) (cols : List (List Bool)) : List Bool :=
  cols.zipIdx.foldl
    (fun acc ck => if inRow p r ck.2 then List.zipWith xor acc (ck.1.rotateLeft (shift r ck.2)) else acc)
    (List.replicate 512 false)

/-- Parity columns r, r + 1, …, p − 1 from S_r and the column before (R262). -/
def parityCols (p : Nat) (cols : List (List Bool)) : (n : Nat) → (prev : List Bool) → List (List Bool)
  | 0, _ => []
  | n + 1, prev =>
    let c := List.zipWith xor (rowSum p (p - 1 - n) cols) prev
    c :: parityCols p cols n c

/-- Cuts a list into pieces of 512. -/
def cut512 {α : Type} : (n : Nat) → List α → List (List α)
  | 0, _ => []
  | n + 1, l => l.take 512 :: cut512 n (l.drop 512)

/-- The codeword of 4 KiB of user data (R261–R263): its bits in the order of R263. -/
def encode (p : Nat) (user : List Byte) : List Bool :=
  let u := bitsOf user
  u ++ (parityCols p (cut512 64 u) p (List.replicate 512 false)).flatten

/-- The order of R264 on the `i`-th of `n` beams: (codeword, bit) of each position of its payload. -/
def dealOrder (n p i : Nat) : List (Nat × Nat) :=
  (List.range (cwBits p)).flatMap (fun j =>
    ((List.range 16).filter (fun c => decide ((17 * j + c) % n = i))).map (fun c => (c, j)))

/-- The payload of the `i`-th of `n` beams, padded to M_n (R264). -/
def payload (n p i : Nat) (cws : List (List Bool)) : List Bool :=
  let l := (dealOrder n p i).map (fun cj => (cws.getD cj.1 []).getD cj.2 false)
  l ++ List.replicate (payloadBits n p - l.length) false

/-- Bits of codeword `c` that lie inside fragments (beam index among those in use, first, last channel bit of the frame), by
R254, R264 and R265 (R278). -/
def erasedBits (n p c : Nat) (frags : List (Nat × Nat × Nat)) : Nat :=
  ((List.range n).map (fun i =>
    ((dealOrder n p i).zipIdx.filter (fun x =>
      decide (x.1.1 = c) && frags.any (fun f =>
        let pos := 896 + 132 * (x.2 / 128) + 4 + x.2 % 128
        decide (f.1 = i ∧ f.2.1 ≤ pos ∧ pos ≤ f.2.2)))).length)).foldl (· + ·) 0

/-! ### Modulation (R265) and write symbols (R266) -/

/-- G_s: the first `n` output bits of the 16-bit register seeded for candidate `s`. -/
def prbs : (n : Nat) → (reg : Nat) → List Bool
  | 0, _ => []
  | n + 1, r =>
    let fb := xor (xor (r.testBit 15) (r.testBit 13)) (xor (r.testBit 12) (r.testBit 10))
    r.testBit 15 :: prbs n ((2 * r) % 65536 + b2n fb)

/-- The seed of candidate `s`. -/
def seed (s : Nat) : Nat := 0xACE1 ^^^ (0x1111 * s)

/-- The 132 channel bits of candidate `s` for a 128-bit word. -/
def candidate (s : Nat) (word : List Bool) : List Bool :=
  [s.testBit 3, s.testBit 2, s.testBit 1, s.testBit 0] ++ List.zipWith xor word (prbs 128 (seed s))

/-- NRZI levels of channel bits, from the level before. -/
def nrzi : (level : Bool) → List Bool → List Bool
  | _, [] => []
  | l, b :: t => xor l b :: nrzi (xor l b) t

/-- The longest run and the run at the end, given the level and run before. -/
def runs : (level : Bool) → (run best : Nat) → List Bool → Nat × Nat
  | _, run, best, [] => (max best run, run)
  | l, run, best, b :: t => if b = l then runs l (run + 1) best t else runs b 1 (max best run) t

/-- Sum of levels, +1 for 1 and −1 for 0. -/
def digitalSum (l : List Bool) : Int := l.foldl (fun a b => if b then a + 1 else a - 1) 0

/-- What the modulator carries from word to word: level, length of the present run, running digital sum. -/
structure ModState where
  level : Bool
  run : Nat
  sum : Int

/-- The candidate of least digital sum among a list of (levels, longest run, end run), ties to the first. -/
def leastSum (rds : Int) : List (List Bool × Nat × Nat) → Option (List Bool × Nat × Nat)
  | [] => none
  | a :: t => match leastSum rds t with
    | none => some a
    | some b => if (rds + digitalSum a.1).natAbs ≤ (rds + digitalSum b.1).natAbs then some a else some b

/-- Modulates one word: its levels and the state after it. -/
def modWord (st : ModState) (word : List Bool) : List Bool × ModState :=
  let cands := (List.range 16).map (fun s =>
    let lv := nrzi st.level (candidate s word)
    (lv, runs st.level st.run 0 lv))
  let ok := cands.filter (fun c => decide (c.2.1 ≤ 14))
  match leastSum st.sum (if ok = [] then cands else ok) with
  | some c => (c.1, ⟨c.1.getLastD st.level, c.2.2, st.sum + digitalSum c.1⟩)
  | none => ([], st)

/-- Modulates a list of words. -/
def modWords : ModState → List (List Bool) → List Bool × ModState
  | st, [] => ([], st)
  | st, w :: t =>
    let (a, st1) := modWord st w
    let (b, st2) := modWords st1 t
    (a ++ b, st2)

/-- Cuts bits into words of 128. -/
def cut128 : (n : Nat) → List Bool → List (List Bool)
  | 0, _ => []
  | n + 1, l => l.take 128 :: cut128 n (l.drop 128)

/-- Levels of the preamble: 1100 repeated 80 times (R254). -/
def preamble : List Bool := (List.range 80).flatMap (fun _ => [true, true, false, false])

/-- Levels of the sync mark 0xFFFF_C000_0ACA, most significant bit first (R254). -/
def syncMark : List Bool := (List.range 48).map (fun i => (0xFFFFC0000ACA : Nat).testBit (47 - i))

/-- Levels of the postamble and guard (R254). -/
def postamble : List Bool := [true, true, false, false, true, true, false, false] ++ List.replicate 88 false

/-- The level and run with which a list of levels ends, and its digital sum, starting from level 0 and no run. -/
def stateAfter (l : List Bool) : ModState := ⟨l.getLastD false, (runs false 0 0 l).2, digitalSum l⟩

/-- The NRZI levels of a whole recording frame (R254, R265). -/
def frameLevels (header : List Byte) (pay : List Bool) : List Bool :=
  let lead := preamble ++ syncMark
  let (h, st) := modWords (stateAfter lead) (cut128 4 (bitsOf header))
  let (b, _) := modWords st (cut128 (pay.length / 128) pay)
  lead ++ h ++ b ++ postamble

/-- Length of the run that begins a list. -/
def headRun : List Bool → Nat
  | [] => 0
  | [_] => 1
  | a :: b :: t => if a = b then headRun (b :: t) + 1 else 1

/-- Write symbols from levels (R266): bit 0 the level, bit 1 the precompensation class. `prev` is the level before and `run`
the length of its run, 0 before the first channel bit. -/
def symbols : (prev : Bool) → (run : Nat) → List Bool → List (BitVec 2)
  | _, _, [] => []
  | p, run, l :: t =>
    let change := decide (l ≠ p)
    let cls := change && (decide (1 ≤ run ∧ run ≤ 2) || decide (headRun (l :: t) ≤ 2))
    BitVec.ofNat 2 (b2n l + 2 * b2n cls) :: symbols l (if change then 1 else run + 1) t

/-- The symbols of every beam of a block (R254–R266): `us` are the beams in use in ascending order. -/
def blockSymbols (us : List Nat) (p : Nat) (header data : List Byte) : List (Nat × List (BitVec 2)) :=
  let cws := (List.range 16).map (fun c => encode p ((data.drop (4096 * c)).take 4096))
  us.zipIdx.map (fun ui => (ui.1, symbols false 0 (frameLevels header (payload us.length p ui.2 cws))))

/-! ### Group parity (R274) -/

/-- Multiplication by x in GF(2^16), field polynomial x^16 + x^12 + x^3 + x + 1. -/
def gfX (a : Nat) : Nat := if a.testBit 15 then (2 * a) % 65536 ^^^ 0x100B else 2 * a

/-- Product in GF(2^16), by the bits of the second factor from bit `n − 1` down. -/
def gfMulBits (a b : Nat) : (n : Nat) → Nat
  | 0 => 0
  | n + 1 => (gfX (gfMulBits a (b / 2) n)) ^^^ (if b.testBit 0 then a else 0)

/-- Product in GF(2^16). -/
def gfMul (a b : Nat) : Nat := gfMulBits a b 16

/-- α^j. -/
def gfPow : (j : Nat) → Nat
  | 0 => 1
  | j + 1 => gfX (gfPow j)

/-- Multiplies a polynomial (lowest coefficient first) by x + c. -/
def polyMulLin (c : Nat) (l : List Nat) : List Nat :=
  List.zipWith (fun a b => a ^^^ b) (0 :: l) ((l.map (gfMul c)) ++ [0])

/-- g(x) of R274, lowest coefficient first. -/
def genPoly : (q : Nat) → List Nat
  | 0 => [1]
  | q + 1 => polyMulLin (gfPow q) (genPoly q)

/-- One step x · r mod g of the division register (lowest coefficient first, q entries). -/
def stepX (g : List Nat) (q : Nat) (r : List Nat) : List Nat :=
  let top := r.getLastD 0
  List.zipWith (fun a b => a ^^^ gfMul top b) (0 :: r.take (q - 1)) (g.take q)

/-- x^n mod g. -/
def xPow (g : List Nat) (q : Nat) : (n : Nat) → List Nat
  | 0 => 1 :: List.replicate (q - 1) 0
  | n + 1 => stepX g q (xPow g q n)

/-- Symbols of a block: pairs of bytes, little-endian. -/
def symbols16 : List Byte → List Nat
  | a :: b :: t => (a.toNat + 256 * b.toNat) :: symbols16 t
  | _ => []

/-- Bytes of symbols. -/
def bytes16 (l : List Nat) : List Byte := l.flatMap (leBytes 2)

/-- Adds member `m`'s data to the running parity of a group of `q` parity blocks (R274, R277): parity block j holds the
coefficient of x^(q − 1 − j). -/
def addMember (q m : Nat) (parity : List (List Byte)) (data : List Byte) : List (List Byte) :=
  let w := xPow (genPoly q) q (q + 31 - m)
  parity.zipIdx.map (fun pj =>
    bytes16 (List.zipWith (fun a b => a ^^^ gfMul b (w.getD (q - 1 - pj.2) 0)) (symbols16 pj.1) (symbols16 data)))

end Codec
end Sys2Proof.Machine
end

