-- ==== Sys2Proof/Machine/Crypto.lean ====
section
/-! DEFINITION. The functions that the spec names by their standards (log entry 13): SHAKE256 (FIPS 202; R27, R469), verification of
padded Falcon-1024 signatures (R51, R470, R475) and AES-256-GCM (R477). -/
namespace Sys2Proof.Machine.Crypto

/-! ### SHAKE256 -/

/-- A 64-bit lane rotated left. -/
def rotl (x n : Nat) : Nat := ((x <<< n) ||| (x >>> (64 - n))) % 2 ^ 64

/-- Rotation of lane x + 5·y in the ρ step. -/
def rho : List Nat :=
  [0, 1, 62, 28, 27, 36, 44, 6, 55, 20, 3, 10, 43, 25, 39, 41, 45, 15, 21, 8, 18, 2, 61, 56, 14]

/-- The round constants of ι. -/
def roundConsts : List Nat :=
  [0x0000000000000001, 0x0000000000008082, 0x800000000000808A, 0x8000000080008000, 0x000000000000808B, 0x0000000080000001,
   0x8000000080008081, 0x8000000000008009, 0x000000000000008A, 0x0000000000000088, 0x0000000080008009, 0x000000008000000A]
  ++ [0x000000008000808B, 0x800000000000008B, 0x8000000000008089, 0x8000000000008003, 0x8000000000008002, 0x8000000000000080,
   0x000000000000800A, 0x800000008000000A, 0x8000000080008081, 0x8000000000008080, 0x0000000080000001, 0x8000000080008008]

/-- The lane at column x and row y of a state. -/
def lane (a : List Nat) (x y : Nat) : Nat := a.getD (x % 5 + 5 * (y % 5)) 0

/-- A state made lane by lane. -/
def lanes (f : (x y : Nat) → Nat) : List Nat := (List.range 25).map fun i => f (i % 5) (i / 5)

/-- The θ step. -/
def theta (a : List Nat) : List Nat :=
  let c := (List.range 5).map fun x => lane a x 0 ^^^ lane a x 1 ^^^ lane a x 2 ^^^ lane a x 3 ^^^ lane a x 4
  lanes fun x y => lane a x y ^^^ c.getD ((x + 4) % 5) 0 ^^^ rotl (c.getD ((x + 1) % 5) 0) 1

/-- The ρ and π steps: the lane at (x, y) comes from (x + 3y, x). -/
def rhoPi (a : List Nat) : List Nat := lanes fun x y => rotl (lane a (x + 3 * y) x) (lane rho (x + 3 * y) x)

/-- The χ step. -/
def chi (a : List Nat) : List Nat :=
  lanes fun x y => lane a x y ^^^ ((lane a (x + 1) y ^^^ (2 ^ 64 - 1)) &&& lane a (x + 2) y)

/-- The permutation Keccak-f[1600]. -/
def keccak (a : List Nat) : List Nat :=
  roundConsts.foldl (fun a rc => match chi (rhoPi (theta a)) with
    | [] => []
    | h :: t => (h ^^^ rc) :: t) a

/-- Bytes per block: the rate of SHAKE256. -/
def rate : Nat := 136

/-- One block taken into the state. -/
def absorbBlock (a : List Nat) (blk : List Byte) : List Nat :=
  keccak (lanes fun x y => lane a x y ^^^ byteField blk (8 * (x + 5 * y)) 8)

/-- The padded message, block by block: the message, 0x1F, zeros, and 0x80 in the last byte of the block. -/
def absorb : (fuel : Nat) → List Nat → List Byte → List Nat
  | 0, a, _ => a
  | fuel + 1, a, m =>
    if rate ≤ m.length then absorb fuel (absorbBlock a (m.take rate)) (m.drop rate)
    else
      let blk := m ++ [0x1F] ++ List.replicate (rate - 1 - m.length) 0
      absorbBlock a (blk.take (rate - 1) ++ [blk.getD (rate - 1) 0 ||| 0x80])

/-- The state after a message. -/
def sponge (m : List Byte) : List Nat := absorb (m.length / rate + 1) (List.replicate 25 0) m

/-- The first `rate` bytes of a state. -/
def squeeze (a : List Nat) : List Byte := (a.take 17).flatMap (leBytes 8)

/-- SHAKE256 with 512 bits of output, byte 0 lowest (R27, R469). -/
def shake256 (m : List Byte) : BitVec 512 := BitVec.ofNat 512 (ofLE ((squeeze (sponge m)).take 64))

/-! ### Falcon-1024 -/

/-- The modulus of Falcon. -/
def falconQ : Nat := 12289

/-- Pairs of bytes as big-endian 16-bit numbers. -/
def be16 : List Byte → List Nat
  | a :: b :: t => (256 * a.toNat + b.toNat) :: be16 t
  | _ => []

/-- Coefficients hashed from a state: numbers below 5q, modulo q; `fuel` bounds the blocks squeezed. -/
def hashCoefs : (fuel : Nat) → List Nat → List Nat
  | 0, _ => []
  | fuel + 1, a => (((be16 (squeeze a)).filter (fun v => decide (v < 61445))).map (· % falconQ)) ++ hashCoefs fuel (keccak a)

/-- The point that a nonce and a message hash to: 1,024 coefficients. -/
def hashPoint (nonce msg : List Byte) : List Nat := (hashCoefs 32 (sponge (nonce ++ msg))).take 1024

/-- Numbers of `w` bits packed most significant bit first, `n` of them, and the bits that are left (as their number and value). -/
def unpack (w : Nat) : (n : Nat) → (len v : Nat) → List Nat
  | 0, _, _ => []
  | n + 1, len, v => (v >>> (len - w)) % 2 ^ w :: unpack w n (len - w) v

/-- Bytes as one big-endian number. -/
def ofBE (l : List Byte) : Nat := ofLE l.reverse

/-- The public polynomial of a key: 0x0A and 1,024 coefficients of 14 bits below q (R475). -/
def falconKey (pub : List Byte) : Option (List Nat) :=
  let h := unpack 14 1024 14336 (ofBE (pub.drop 1))
  if pub.length = 1793 ∧ pub.head? = some 0x0A ∧ h.all (fun v => decide (v < falconQ)) then some h else none

/-- Whether bytes are a well-formed Falcon-1024 public key (R475). -/
def falconKeyOk (pub : List Byte) : Bool := (falconKey pub).isSome

/-- How many zeros precede the next 1 among the `len` lowest bits of `v`, if there is one. -/
def zerosBeforeOne (len v : Nat) : Option Nat :=
  let r := v % 2 ^ len
  if r = 0 then none else some (len - 1 - r.log2)

/-- The compressed coefficients of a signature: sign, seven low bits, high bits in unary; zeros follow the last. -/
def decompress : (n : Nat) → (len v : Nat) → Option (List Int)
  | 0, len, v => if v % 2 ^ len = 0 then some [] else none
  | n + 1, len, v =>
    if len < 9 then none
    else match zerosBeforeOne (len - 8) v with
      | none => none
      | some k =>
        let a : Nat := (v >>> (len - 8)) % 128 + 128 * k
        let s := tbit v (len - 1)
        if 2047 < a ∨ (s ∧ a = 0) then none
        else (decompress n (len - 9 - k) v).map fun t => (if s then -(a : Int) else (a : Int)) :: t

/-- The product of two polynomials modulo x^1024 + 1 and q, their coefficients below q. -/
def polyMul (a b : List Nat) : List Nat :=
  let pack (l : List Nat) : Nat := l.foldr (fun c acc => c + acc <<< 64) 0
  let p := pack a * pack b
  let c (i : Nat) : Nat := (p >>> (64 * i)) % 2 ^ 64
  (List.range 1024).map fun i => (c i + 1024 * falconQ * falconQ - c (i + 1024)) % falconQ

/-- A value modulo q, nearest to 0. -/
def centred (v : Nat) : Int := if falconQ / 2 < v then (v : Int) - falconQ else v

/-- Whether a padded Falcon-1024 signature (0x3A, a nonce of 40 bytes, the compressed coefficients) verifies over a 512-bit message,
its byte 0 first, under a public key: the vector it gives is short enough (R51, R470). -/
def falconVerify (pub sig : List Byte) (message : BitVec 512) : Bool :=
  let msg := leBytes 64 message.toNat
  match falconKey pub, decompress 1024 (8 * 1239) (ofBE (sig.drop 41)) with
  | some h, some s2 =>
    let c := hashPoint ((sig.drop 1).take 40) msg
    let sh := polyMul (s2.map fun v => (v % (falconQ : Int)).toNat) h
    let s1 := (c.zip sh).map fun x => centred ((x.1 + falconQ - x.2) % falconQ)
    decide (sig.length = 1280 ∧ sig.head? = some 0x3A ∧ c.length = 1024 ∧ (s1 ++ s2).foldl (fun (n v : Int) => n + v * v) 0 ≤ 70265242)
  | _, _ => false

/-! ### AES-256-GCM -/

/-- Doubling in GF(2^8). -/
def xtime (a : Nat) : Nat := if a < 128 then 2 * a else (2 * a) ^^^ 0x11B

/-- The product in GF(2^8), by the lowest `n` bits of `b`. -/
def gfMul : (n a b : Nat) → Nat
  | 0, _, _ => 0
  | n + 1, a, b => (if b % 2 = 1 then a else 0) ^^^ gfMul n (xtime a) (b / 2)

/-- The inverse in GF(2^8), 0 for 0: the 254th power. -/
def gfInv (a : Nat) : Nat :=
  let sq (v : Nat) : Nat := gfMul 8 v v
  let a2 := sq a
  let a4 := sq a2
  let a8 := sq a4
  let a16 := sq a8
  let a32 := sq a16
  let a64 := sq a32
  gfMul 8 (sq a64) (gfMul 8 a64 (gfMul 8 a32 (gfMul 8 a16 (gfMul 8 a8 (gfMul 8 a4 a2)))))

/-- The S-box. -/
def sbox (a : Nat) : Nat :=
  let b := gfInv a
  let r (n : Nat) : Nat := ((b <<< n) ||| (b >>> (8 - n))) % 256
  b ^^^ r 1 ^^^ r 2 ^^^ r 3 ^^^ r 4 ^^^ 0x63

/-- The round constants of the key schedule. -/
def rcon : List Nat := [0x01, 0x02, 0x04, 0x08, 0x10, 0x20, 0x40]

/-- The bytes of two words, added. -/
def xorL (a b : List Nat) : List Nat := List.zipWith (· ^^^ ·) a b

/-- The key schedule: eight more words from the last eight, `n` times. -/
def expand : (n : Nat) → (rc : List Nat) → (prev : List (List Nat)) → List (List Nat)
  | 0, _, _ => []
  | n + 1, rc, prev =>
    let w (i : Nat) : List Nat := prev.getD i []
    let g := ((w 7).drop 1 ++ (w 7).take 1).map sbox
    let w0 := xorL (w 0) (xorL g [rc.headD 0, 0, 0, 0])
    let w1 := xorL (w 1) w0
    let w2 := xorL (w 2) w1
    let w3 := xorL (w 3) w2
    let w4 := xorL (w 4) (w3.map sbox)
    let w5 := xorL (w 5) w4
    let w6 := xorL (w 6) w5
    let w7 := xorL (w 7) w6
    let next := [w0, w1, w2, w3, w4, w5, w6, w7]
    next ++ expand n rc.tail next

/-- A list cut into pieces of four. -/
def fours : List Nat → List (List Nat)
  | a :: b :: c :: d :: t => [a, b, c, d] :: fours t
  | _ => []

/-- The fifteen round keys of a 32-byte key. -/
def roundKeys (key : List Byte) : List (List Nat) :=
  let k := fours (key.map (·.toNat))
  let ws := k ++ expand 7 rcon k
  (List.range 15).map fun i => ((ws.drop (4 * i)).take 4).flatten

/-- SubBytes and ShiftRows of a state in column order. -/
def subShift (s : List Nat) : List Nat := (List.range 16).map fun i => sbox (s.getD ((i + 4 * (i % 4)) % 16) 0)

/-- MixColumns. -/
def mixColumns (s : List Nat) : List Nat := (fours s).flatMap fun c =>
  (List.range 4).map fun i =>
    let e (k : Nat) : Nat := c.getD ((i + k) % 4) 0
    xtime (e 0) ^^^ (xtime (e 1) ^^^ e 1) ^^^ e 2 ^^^ e 3

/-- One block enciphered. -/
def aes (rk : List (List Nat)) (b : List Nat) : List Nat :=
  let s := ((rk.drop 1).take 13).foldl (fun s k => xorL (mixColumns (subShift s)) k) (xorL b (rk.getD 0 []))
  xorL (subShift s) (rk.getD 14 [])

/-- The product in GF(2^128) as GCM numbers bits: `x` is taken from its highest bit, `v` is halved at each. -/
def ghMul : (n x v : Nat) → Nat
  | 0, _, _ => 0
  | n + 1, x, v => (if tbit x n then v else 0) ^^^ ghMul n x (if v % 2 = 1 then (v / 2) ^^^ (0xE1 <<< 120) else v / 2)

/-- GHASH of a list of 128-bit blocks. -/
def ghash (h : Nat) (blocks : List Nat) : Nat := blocks.foldl (fun y b => ghMul 128 (y ^^^ b) h) 0

/-- A byte list as big-endian blocks of 16 bytes, the last filled with zeros. -/
def blocks16 (l : List Byte) : List Nat :=
  (List.range ((l.length + 15) / 16)).map fun i =>
    let b := (l.drop (16 * i)).take 16
    ofBE (b ++ List.replicate (16 - b.length) 0)

/-- The `n` big-endian bytes of a number, as numbers. -/
def beBytes (n v : Nat) : List Nat := ((leBytes n v).reverse).map (·.toNat)

/-- AES-256-GCM: the plain text, when the tag verifies (R477). -/
def gcmOpen (key : List Byte) (iv : BitVec 96) (aad cipher : List Byte) (tag : BitVec 128) : Option (List Byte) :=
  let rk := roundKeys key
  let enc (v : Nat) : Nat := ofBE ((aes rk (beBytes 16 v)).map (BitVec.ofNat 8))
  let j0 := iv.toNat * 2 ^ 32 + 1
  let lens := (8 * aad.length) * 2 ^ 64 + 8 * cipher.length
  let s := ghash (enc 0) (blocks16 aad ++ blocks16 cipher ++ [lens])
  if s ^^^ enc j0 = tag.toNat then
    let stream := (List.range ((cipher.length + 15) / 16)).flatMap fun i => aes rk (beBytes 16 (j0 + 1 + i))
    some (List.zipWith (fun c k => c ^^^ BitVec.ofNat 8 k) cipher stream)
  else none

end Sys2Proof.Machine.Crypto
end

