-- ==== Sys2Proof/Machine/Image.lean ====
section
/-! DEFINITION. Cezamon structure images (R26–R38, R512, R513): framing, the record layouts and the loader's nine ordered
checks. An image is taken as the bytes delivered; a check that fails gives the refusal of R41. -/
namespace Sys2Proof.Machine

/-- One record of an image (R28): index, type, word offset of its header, payload words. -/
structure Rec where
  idx : Nat
  ty : Nat
  off : Nat
  ws : List Nat
deriving DecidableEq, Repr

/-- Bits `[lo + n - 1 : lo]` of payload word `w`. -/
def Rec.f (r : Rec) (w lo n : Nat) : Nat := bits (r.ws.getD w 0) lo n

/-- An image in force: the global records and, for each mechanism, the records of its section (R29), the section's own
serial and digest where it came by partial reload (R480). -/
structure Section where
  recs : List Rec
  serial : Nat
  digest : Nat
  partialLoad : Bool
deriving DecidableEq, Repr

/-- A parsed image. -/
structure Image where
  flags : Nat
  serial : Nat
  digest : Nat
  globals : List Rec
  sections : List (List Rec)
  sig : Option Rec
deriving DecidableEq, Repr

/-- A refusal (R41). `d1` is `none` where the spec states no bound: the register then takes a free value. -/
structure ImgRefusal where
  code : Nat
  idx : Nat
  ty : Nat
  off : Nat
  d0 : Nat
  d1 : Option Nat
deriving DecidableEq, Repr

namespace Img

/-- A refusal found in the header (R41). -/
def hdr (code : Nat) (d0 : Nat := 0) : ImgRefusal := ⟨code, 0xFFFF, 0, 0, d0, some 0⟩

/-- A refusal at a record. -/
def at_ (code : Nat) (r : Rec) (d : Nat × Option Nat) : ImgRefusal := ⟨code, r.idx, r.ty, r.off, d.1, d.2⟩

/-- The types of global records, in type order. -/
def globalTypes : List Nat := [0x70, 0x80, 0x90, 0xA0]

/-- The types of records inside a section. -/
def sectionTypes : List Nat := [0x30, 0x40, 0x41, 0x42, 0x43, 0x44, 0x50, 0x51, 0x60, 0x61]

/-- The 32-bit words of the first `n` words of a byte list. -/
def words : (n : Nat) → List Byte → List Nat
  | 0, _ => []
  | n + 1, l => ofLE (l.take 4) :: words n (l.drop 4)

/-- Cuts the words after the header into records (R28); `fuel` bounds their number. The error is the record that does not
end within the image. -/
def cut : (fuel idx off : Nat) → List Nat → Except Rec (List Rec)
  | 0, _, _, _ => .ok []
  | _, _, _, [] => .ok []
  | fuel + 1, idx, off, h :: t =>
    let n := h / 65536
    let r : Rec := ⟨idx, h % 65536, off, t.take n⟩
    if t.length < n then .error r
    else match cut fuel (idx + 1) (off + 1 + n) (t.drop n) with
      | .ok rs => .ok (r :: rs)
      | .error e => .error e

/-- Splits the records after the globals into sections, each from a MECHANISM record. -/
def sections : List Rec → List (List Rec)
  | [] => []
  | r :: t =>
    if r.ty = 0x20 then
      match sections t with
      | [] => [[r]]
      | s :: ss => if s.head?.map (·.ty) = some 0x20 then [r] :: s :: ss else (r :: s) :: ss
    else match sections t with
      | [] => [[r]]
      | s :: ss => if s.head?.map (·.ty) = some 0x20 then [r] :: s :: ss else (r :: s) :: ss

/-- The first record out of the order of R29 and R30, or of a type that R31 does not give. `inSec` says that a MECHANISM record has been met. -/
def orderFault (isPartial signed : Bool) (count : Nat) : (inSec : Bool) → (seen : List Nat) → List Rec → Option Rec
  | _, _, [] => none
  | inSec, seen, r :: t =>
    if r.idx = 0 then (if r.ty = 0x10 then orderFault isPartial signed count inSec (r.ty :: seen) t else some r)
    else if r.ty ∈ globalTypes then
      if isPartial || inSec || seen.contains r.ty then some r
      else orderFault isPartial signed count inSec (r.ty :: seen) t
    else if r.ty = 0x20 then
      if isPartial && inSec then some r else orderFault isPartial signed count true seen t
    else if r.ty ∈ sectionTypes then
      if inSec then orderFault isPartial signed count inSec seen t else some r
    else if r.ty = 0xF0 then
      if signed && r.idx + 1 = count then orderFault isPartial signed count inSec seen t else some r
    else some r

/-- Check 1 of R33: header and framing (R26, R28–R30). Where several faults of this check stand in one image, the spec gives no order
among them; the model's (log entry 181) is: the header, a record that does not end within LENGTH, RECORD_COUNT, a missing DEVICE, the
first record out of order, a missing MECHANISM or global record in type order, a missing SIGNATURE, and the MECHANISM index against
FLAGS.MECH. -/
def frame (img : List Byte) : Except ImgRefusal Image :=
  let len := byteField img 8 4
  let flags := byteField img 12 4
  if img.length < 96 ∨ byteField img 0 4 ≠ 0x4E4D5A43 ∨ byteField img 6 2 ≠ 1 ∨ 2 < byteField img 4 2 ∨
      len % 4 ≠ 0 ∨ len < 96 ∨ 4194304 < len ∨ img.length < len ∨
      flags / 64 ≠ 0 ∨ byteField img 24 8 ≠ 0 ∨ (¬ tbit flags 1 ∧ bits flags 2 4 ≠ 0) then .error (hdr 1)
  else
    match cut (byteField img 20 4 + 1048576) 0 24 (words ((len - 96) / 4) ((img.take len).drop 96)) with
    | .error r => .error (at_ 1 r (0, some 0))
    | .ok rs =>
      if rs.length ≠ byteField img 20 4 then .error (hdr 1)
      else if rs.all (fun r => decide (r.ty ≠ 0x10)) then .error (hdr 1 0x10)
      else match orderFault (tbit flags 1) (tbit flags 0) rs.length false [] rs with
        | some r => .error (at_ 1 r (0, some 0))
        | none =>
          match (if tbit flags 1 then [0x20] else globalTypes).find? (fun t => rs.all (fun r => decide (r.ty ≠ t))) with
          | some t => .error (hdr 1 t)
          | none =>
            if tbit flags 0 ∧ rs.all (fun r => decide (r.ty ≠ 0xF0)) then .error (hdr 1 0xF0)
            else
              match (if tbit flags 1 then rs.find? (fun r => decide (r.ty = 0x20 ∧ r.f 0 0 4 ≠ bits flags 2 4)) else none) with
              | some r => .error (at_ 1 r (0, some 0))
              | none =>
                let glob := rs.filter (fun r => decide (r.ty = 0x10 ∨ r.ty ∈ globalTypes))
                let sec := rs.filter (fun r => decide (r.ty = 0x20 ∨ r.ty ∈ sectionTypes))
                .ok ⟨flags, byteField img 16 4, byteField img 32 64, glob, sections sec, rs.find? (fun r => decide (r.ty = 0xF0))⟩

/-- The bytes that DIGEST covers (R27). -/
def digestInput (img : List Byte) (i : Image) : List Byte :=
  let stop := match i.sig with
    | some r => 4 * r.off
    | none => byteField img 8 4
  img.take 32 ++ (img.take stop).drop 96

/-- Check 2: DIGEST (R27). -/
def digestOk (img : List Byte) (i : Image) : Bool := (Crypto.shake256 (digestInput img i)).toNat == i.digest

/-- What the loader knows of the enrolled owner (R51, R474): none, a key whose record is missing, or the key and its
OWNER_HASH. -/
inductive Owner where
  | none
  | missing
  | key (hash : BitVec 512) (pub : List Byte)
deriving DecidableEq, Repr

/-- The 32-bit words of a record payload as bytes. -/
def payloadBytes (r : Rec) : List Byte := r.ws.flatMap (leBytes 4)

/-- Check 3: the owner signature (R51, R52). -/
def ownerCheck (o : Owner) (i : Image) : Option ImgRefusal :=
  match o, i.sig with
  | .none, _ => Option.none
  | _, Option.none => some (hdr 3)
  | .missing, some r => some (at_ 3 r (0, some 0))
  | .key h pub, some r =>
    let p := payloadBytes r
    if ofLE (p.take 16) = h.toNat % 2 ^ 128 ∧ Crypto.falconVerify pub (p.drop 16) (BitVec.ofNat 512 i.digest)
    then Option.none else some (at_ 3 r (0, some 0))

/-! ### Check 4: limits, reserved bits, cross-references (R31, R32, R512, R513) -/

/-- The first failing test of a list. -/
def firstSome {α : Type} : List (Option α) → Option α
  | [] => none
  | some a :: _ => some a
  | none :: t => firstSome t

/-- A field within `[mn, mx]` (R513). -/
def rng (v mn mx : Nat) : Option (Nat × Option Nat) :=
  if v < mn then some (v, some mn) else if mx < v then some (v, some mx) else none

/-- A reserved field that must be 0, DETAIL0 keeping its bits in place (R513). -/
def rsv (r : Rec) (w lo n : Nat) : Option (Nat × Option Nat) :=
  if r.f w lo n = 0 then none else some (r.f w lo n <<< lo, some 0)

/-- A reserved field of a word that has more of them: DETAIL0 keeps every reserved bit of the word, `mask` (R513). -/
def rsvM (r : Rec) (mask w lo n : Nat) : Option (Nat × Option Nat) :=
  if r.f w lo n = 0 then none else some (r.ws.getD w 0 &&& mask, some 0)

/-- A relation that must hold, with its offending value and bound. -/
def rel (ok : Bool) (v : Nat) (bound : Option Nat) : Option (Nat × Option Nat) := if ok then none else some (v, bound)

/-- One of a list of values; between two members the spec states no bound (R513). -/
def oneOf (v : Nat) (vals : List Nat) : Option (Nat × Option Nat) :=
  if v ∈ vals then none
  else if v < vals.headD 0 then some (v, vals.head?)
  else if vals.getLastD 0 < v then some (v, vals.getLast?)
  else some (v, none)

/-- The payload length (R513). -/
def len (r : Rec) (n : Nat) : Option (Nat × Option Nat) := if r.ws.length = n then none else some (r.ws.length, some n)

/-- Records of a type within a section. -/
def ofType (s : List Rec) (t : Nat) : List Rec := s.filter (fun r => decide (r.ty = t))

/-- The LOOP record with a LOOP_ID. -/
def loop (s : List Rec) (id : Nat) : Option Rec := (ofType s 0x40).find? (fun r => decide (r.f 0 0 8 = id))

/-- A LOOP_ID that names no loop of the section; above 24 the bound is that of R32. -/
def noLoop (id : Nat) : Option (Nat × Option Nat) := some (id, if 24 < id then some 24 else none)

/-- LOOP fields (R32). -/
def loopId (r : Rec) : Nat := r.f 0 0 8
def loopKind (r : Rec) : Nat := r.f 0 8 5
def loopOrder3 (r : Rec) : Bool := tbit (r.f 0 13 1) 0
def loopBanks (r : Rec) : Nat := r.f 0 14 4
def loopBeam (r : Rec) : Nat := r.f 0 18 5
def loopDivider (r : Rec) : Nat := r.f 1 0 12
def loopPhase (r : Rec) : Nat := r.f 1 12 10
def loopDeadline (r : Rec) : Nat := r.f 2 0 16
def loopMissLimit (r : Rec) : Nat := r.f 2 16 8
def loopClampLo (r : Rec) : Int := toSigned 16 (r.f 3 0 16)
def loopClampHi (r : Rec) : Int := toSigned 16 (r.f 3 16 16)
def loopLimitLo (r : Rec) : Int := toSigned 16 (r.f 4 0 16)
def loopLimitHi (r : Rec) : Int := toSigned 16 (r.f 4 16 16)

/-- Records of the section before `r`. -/
def before (s : List Rec) (r : Rec) : List Rec := s.filter (fun x => decide (x.idx < r.idx))

/-- A signed value as DETAIL0 and DETAIL1 hold it: sign-extended to the register's 32 bits. -/
def detail (v : Int) : Nat := (BitVec.ofInt 32 v).toNat

/-- Fields in word order, each at most `top` and above its lower neighbour; a bound that the neighbour sets is its value
plus 1 (R122, R513). -/
def ascending (top : Int) : (prev : Int) → List Int → Option (Nat × Option Nat)
  | _, [] => none
  | p, v :: t =>
    if top < v then some (detail v, some (detail top))
    else if p < v then ascending top v t else some (detail v, some (detail (p + 1)))

/-- The fields of a list that must all be 0 because they lie beyond a count (R122). -/
def unusedZero (l : List Nat) : Option (Nat × Option Nat) := (l.find? (fun v => decide (v ≠ 0))).map (fun v => (v, some 0))

/-- DEVICE (R512, R33). -/
def ckDevice (r : Rec) : Option (Nat × Option Nat) :=
  firstSome [len r 2, rng (r.f 0 0 16) 0x1616 0x1616, rel (tbit (r.f 0 16 8) 1) (r.f 0 16 8) (some 2),
    rng (r.f 0 24 5) 20 24, rsv r 0 29 3, rsv r 1 16 16]

/-- What a section must hold, reported at its MECHANISM record (R513). -/
def ckMissing (s : List Rec) (layers : Nat) : Option (Nat × Option Nat) :=
  let one (t : Nat) : Option (Nat × Option Nat) := rel ((ofType s t).length != 0) (t * 65536 + 0xFF00) (some 1)
  let kind (k : Nat) : Option (Nat × Option Nat) :=
    let n := ((ofType s 0x40).filter (fun r => decide (loopKind r = k))).length
    rel (n == 1) (0x40 * 65536 + k * 256 + n) (some 1)
  let layer (l : Nat) : Option (Nat × Option Nat) :=
    rel (decide (layers ≤ l) || (ofType s 0x61).any (fun r => r.f 0 0 2 == l)) (0x61 * 65536 + l * 256) (some 1)
  firstSome [one 0x30, one 0x60, one 0x50, one 0x51, kind 5, kind 6, layer 0, layer 1, layer 2, layer 3]

/-- MECHANISM (R512, R33). -/
def ckMechanism (present : Nat) (earlier : List Nat) (s : List Rec) (r : Rec) : Option (Nat × Option Nat) :=
  firstSome [len r 2, rel (tbit present (r.f 0 0 4)) (r.f 0 0 4) (some present),
    rel (!earlier.contains (r.f 0 0 4)) (r.f 0 0 4) (some 0), rng (r.f 0 4 3) 1 4, rsv r 0 7 9,
    rng (r.f 1 0 16) 1 65535, rsv r 1 16 16, ckMissing s (r.f 0 4 3)]

/-- A record that a section holds once. -/
def ckOnce (s : List Rec) (r : Rec) : Option (Nat × Option Nat) :=
  let n := (ofType (before s r) r.ty).length
  rel (n == 0) (n + 1) (some 1)

/-- At most `n` records of a type in a section (R31), reported at the first one too many. -/
def ckCount (s : List Rec) (r : Rec) (n : Nat) : Option (Nat × Option Nat) :=
  rel (decide ((ofType (before s r) r.ty).length < n)) ((ofType (before s r) r.ty).length + 1) (some n)

/-- HEAD (R512). -/
def ckHead (s : List Rec) (r : Rec) : Option (Nat × Option Nat) :=
  firstSome [len r 2, ckOnce s r, rng (r.f 0 0 2) 3 3, rsvM r 0xFF0C 0 2 2, rng (r.f 0 4 4) 1 1, rsvM r 0xFF0C 0 8 8,
    rng (r.f 0 16 16) 1000 20000, rng (r.f 1 0 16) 1 65535, rng (r.f 1 16 16) 1 65535]

/-- The divisors of 800 (R32). -/
def dividers : List Nat := [1, 2, 4, 5, 8, 10, 16, 20, 25, 32, 40, 50, 80, 100, 160, 200, 400, 800]

/-- Banks of a loop that the section holds. -/
def bankRec (s : List Rec) (id bank : Nat) : Option Rec :=
  (ofType s 0x41).find? (fun r => decide (r.f 0 0 8 = id ∧ r.f 0 8 3 = bank))

/-- The MIN_SELECT groups, each with its entries. -/
def groupEntries (r : Rec) : List (Nat × Nat) := (List.range (r.f 0 8 3)).map (fun i => (i, r.ws.getD (1 + i) 0))

/-- LOOP (R32, R33, R121, R128). The spec does not say at which record a missing LOOP_BANK is reported, nor where NBANKS > 1 without a
REGION_TABLE falls among the fields: the model reports the first at the LOOP with DETAIL0 the bank number, and tests both after the
LOOP's own fields (the model's choice, log entry 181). -/
def ckLoop (s : List Rec) (r : Rec) : Option (Nat × Option Nat) :=
  firstSome [len r 5, ckCount s r 25, rng (loopId r) 0 24,
    rel ((ofType (before s r) 0x40).all (fun x => loopId x != loopId r)) (loopId r) none,
    rng (loopKind r) 0 7, rng (loopBanks r) 1 8,
    (if loopKind r = 1 then rng (loopBeam r) 0 15 else rng (loopBeam r) 0 0), rsv r 0 23 9,
    oneOf (loopDivider r) dividers, rel (decide (loopPhase r < loopDivider r)) (loopPhase r) (some (loopDivider r - 1)),
    rsv r 1 22 10, rng (loopDeadline r) 0 (if loopDivider r = 1 then 240 else 900), rng (loopMissLimit r) 1 255,
    rsv r 2 24 8,
    rel (decide (loopBanks r ≤ 1) || (ofType s 0x42).any (fun x => x.f 0 0 8 == loopId r)) (loopBanks r) (some 1),
    firstSome ((List.range (loopBanks r)).map (fun b => rel (bankRec s (loopId r) b).isSome b none)),
    rel (loopKind r != 7 || (ofType s 0x44).any (fun g => (groupEntries g).any (fun e => bits e.2 0 8 == loopId r)))
      (loopId r) none]

/-- LOOP_BANK (R121). -/
def ckBank (s : List Rec) (r : Rec) : Option (Nat × Option Nat) :=
  match loop s (r.f 0 0 8) with
  | none => if r.ws = [] then some (0, some 6) else noLoop (r.f 0 0 8)
  | some l => firstSome [len r (if loopOrder3 l then 8 else 6), rel (decide (r.f 0 8 3 < loopBanks l)) (r.f 0 8 3)
      (some (loopBanks l - 1)), rel ((ofType (before s r) 0x41).all (fun x => x.f 0 0 11 != r.f 0 0 11)) (r.f 0 8 3) none,
      rsv r 0 11 21]

/-- REGION_TABLE fields (R122). -/
def zStarts (r : Rec) : List Nat := [r.f 1 0 8, r.f 1 8 8, r.f 1 16 8, r.f 1 24 8, r.f 2 0 8, r.f 2 8 8, r.f 2 16 8]
def speeds (r : Rec) : List Nat := [r.f 3 16 16, r.f 4 0 16, r.f 4 16 16, r.f 5 0 16, r.f 5 16 16, r.f 6 0 16, r.f 6 16 16]
def temps (r : Rec) : List Nat := [r.f 7 0 8, r.f 7 8 8, r.f 7 16 8]
def regionCells (r : Rec) : Nat := r.f 0 8 4 * r.f 0 12 4 * r.f 0 16 4
def regionCell (r : Rec) (k : Nat) : Nat := r.f (8 + k / 8) (4 * (k % 8)) 4

/-- The bits of cell word `8 + w` that are reserved (bit 3 of a cell) or that no cell covers (R122). -/
def regionReserved (r : Rec) (w : Nat) : Nat :=
  ((List.range 8).map (fun i => (if 8 * w + i < regionCells r then 8 else 15) <<< (4 * i))).foldl (· + ·) 0

/-- One cell: its bank below NBANKS, its reserved bit 0; every bit beyond the last cell 0 (R122, R513). -/
def regionCellCheck (r : Rec) (banks k : Nat) : Option (Nat × Option Nat) :=
  let extra := r.ws.getD (8 + k / 8) 0 &&& regionReserved r (k / 8)
  if k < regionCells r then
    firstSome [rng (regionCell r k % 8) 0 (banks - 1), rel (decide (regionCell r k < 8)) extra (some 0)]
  else rel (regionCell r k == 0) extra (some 0)

/-- REGION_TABLE (R122). -/
def ckRegion (s : List Rec) (r : Rec) : Option (Nat × Option Nat) :=
  let nz := r.f 0 8 4
  let ns := r.f 0 12 4
  let nt := r.f 0 16 4
  match loop s (r.f 0 0 8) with
  | none => noLoop (r.f 0 0 8)
  | some l =>
    let want := 8 + (regionCells r + 7) / 8
    firstSome [rel ((ofType (before s r) 0x42).all (fun x => x.f 0 0 8 != r.f 0 0 8)) (r.f 0 0 8) none,
      rng nz 1 8, rng ns 1 8, rng nt 1 4, rsv r 0 20 12, len r want,
      ascending 23 0 (((zStarts r).take (nz - 1)).map Int.ofNat), unusedZero ((zStarts r).drop (nz - 1)), rsv r 2 24 8,
      ascending 65535 (-1) (((speeds r).take (ns - 1)).map Int.ofNat), unusedZero ((speeds r).drop (ns - 1)),
      ascending 127 (-129) (((temps r).take (nt - 1)).map (toSigned 8)), unusedZero (((temps r).drop (nt - 1)).map (fun v => detail (toSigned 8 v))),
      firstSome ((List.range (8 * (want - 8))).map (regionCellCheck r (loopBanks l)))]

/-- CASCADE (R126): the payload length and the count of 24, then SRC, TGT, N and the reserved bits (log entry 34). -/
def ckCascade (s : List Rec) (r : Rec) : Option (Nat × Option Nat) :=
  firstSome [len r 2, ckCount s r 24,
    match loop s (r.f 0 0 8), loop s (r.f 0 8 8) with
    | some a, some b => firstSome [rel (loopKind b == 2 || loopKind b == 5) (loopId b) none,
        rel (r.f 0 16 12 * loopDivider a == loopDivider b) (r.f 0 16 12) (some (loopDivider b / loopDivider a)), rsv r 0 28 4]
    | none, _ => noLoop (r.f 0 0 8)
    | _, none => noLoop (r.f 0 8 8)]

/-- One MIN_SELECT entry (R128). -/
def ckEntry (s : List Rec) (sled : Bool) (r : Rec) (i : Nat) : Option (Nat × Option Nat) :=
  let src := r.f (1 + i) 0 8
  let meas := r.f (1 + i) 8 3
  let par := r.f (1 + i) 16 16
  if src = 0xFF then
    firstSome [rel (((groupEntries r).take i).all (fun e => bits e.2 0 8 != 0xFF)) 2 (some 1), rsv r (1 + i) 11 5, rng par 0 0]
  else match loop s src with
    | none => noLoop src
    | some l => firstSome [rel (loopKind l == 7) src none, rng meas 0 2, rel (!sled || meas != 2) meas (some 1), rsv r (1 + i) 11 5,
        (if meas = 0 then rng par 0 0 else if meas = 2 then rng par 1 1000 else none),
        rel ((ofType (before s r) 0x44).all (fun g => (groupEntries g).all (fun e =>
          bits e.2 0 8 != src || (bits e.2 8 3 == meas && bits e.2 16 16 == par)))) par none]

/-- MIN_SELECT (R128, R31). A second group with the same HEAD is refused: the spec does not say so, and R35 and R131 leave no room for two
groups of one head (the model's choice, log entry 181). -/
def ckMinSelect (s : List Rec) (r : Rec) : Option (Nat × Option Nat) :=
  match loop s (r.f 0 0 8) with
  | none => noLoop (r.f 0 0 8)
  | some h => firstSome [ckCount s r 2, rel (loopKind h == 5 || loopKind h == 6) (loopId h) none,
      rel ((ofType (before s r) 0x44).all (fun g => g.f 0 0 8 != r.f 0 0 8)) (r.f 0 0 8) none,
      rng (r.f 0 8 3) 2 4, rsv r 0 11 21, len r (1 + r.f 0 8 3),
      firstSome ((List.range (r.f 0 8 3)).map (ckEntry s (loopKind h == 5) r))]

/-- SPINDLE (R168, R169). -/
def ckSpindle (s : List Rec) (r : Rec) : Option (Nat × Option Nat) :=
  let uv := r.f 8 0 16
  let above (v p : Nat) : Option (Nat × Option Nat) := rel (decide (p < v)) v (some (p + 1))
  firstSome [len r 11, ckOnce s r, rng (r.f 0 0 16) 1000 12000, rng (r.f 0 16 4) 1 12, rsv r 0 25 7,
    rng (r.f 1 0 16) 0 (r.f 0 0 16), rng (r.f 1 16 16) 100 3000, rng (r.f 2 0 16) 100 20000, rng (r.f 2 16 16) 1 65535,
    rng (r.f 3 0 16) 10 65535, rng (r.f 3 16 16) 10 65535, rng (r.f 4 0 16) 100 20000, above (r.f 4 16 16) (r.f 4 0 16),
    above (r.f 5 16 16) (r.f 5 0 16), above (r.f 6 0 16) (r.f 5 16 16), above (r.f 6 16 16) (r.f 6 0 16),
    above (r.f 7 0 16) (r.f 6 16 16), rng (r.f 7 16 16) 0 4000, above (r.f 7 16 16) (r.f 7 0 16),
    rel (decide (uv < r.f 5 0 16)) uv (some (r.f 5 0 16 - 1)), rng (r.f 8 16 16) 1 65535,
    rng (r.f 9 0 16) 20 100, rng (r.f 9 16 16) 50 2000]

/-- `a ÷ b` to the nearest integer (log entry 12). -/
def nearest (a b : Nat) : Nat := (2 * a + b) / (2 * b)

/-- π as a rational, 18 decimals (log entry 12). -/
def piNum : Nat := 3141592653589793238
def piDen : Nat := 1000000000000000000

/-- `round(s × SW)` microsteps for swath `s`, SW = 4,800 ÷ MSTEP (R202, R203). -/
def swathSteps (r : Rec) (s : Nat) : Nat :=
  let num := s * 4800 * r.f 2 16 16 * 256
  let den := r.f 2 0 16 * 1000
  (2 * num + den) / (2 * den)

/-- The peak coil voltage of R204 at VMAX and I_RUN, in µV. -/
def peakCoilUv (r : Rec) : Nat :=
  let i := r.f 4 0 16                         -- mA
  let v := r.f 0 16 16                        -- 0.01 mm/s
  let ri := r.f 3 0 16 * i                    -- µV
  -- ω_e = 2π v ÷ (1,024 × MSTEP); v in nm/s is 10^4 per unit; L in µH, I in mA give nV
  let wl := 2 * piNum * (v * 10000) * (r.f 2 16 16 * 256) * r.f 3 16 16 * i / (piDen * 1024 * (r.f 2 0 16 * 1000) * 1000)
  let q := wl + r.f 5 0 16 * v / 100          -- µV
  isqrt (ri * ri + q * q)

/-- SLED (R201, R202). -/
def ckSled (s : List Rec) (r : Rec) : Option (Nat × Option Nat) :=
  let park := r.f 6 0 24
  let lo := r.f 7 0 24
  let hi := r.f 8 0 24
  let s0 := r.f 9 0 24
  let travel := r.f 0 0 16 * r.f 2 16 16 * 256 / r.f 2 0 16
  let uv := match (ofType s 0x50).head? with
    | some sp => sp.f 8 0 16 * 9
    | none => 0
  firstSome [len r 12, ckOnce s r, rng (r.f 0 0 16) 1000 36000, rng (r.f 0 16 16) 100 30000, rng (r.f 1 0 16) 10 6000,
    rng (r.f 1 16 16) 1 65535, rng (r.f 2 0 16) 500 20000, rng (r.f 2 16 16) 24 400, rng (r.f 3 0 16) 100 65535,
    rng (r.f 3 16 16) 10 65535, rng (r.f 4 0 16) 50 3000, rng (r.f 4 16 16) 0 (r.f 4 0 16),
    rng (r.f 5 16 16) 1 (r.f 0 16 16), rsv r 6 26 6,
    rel (decide (lo ≤ park)) lo (some park), rsv r 7 24 8, rel (decide (hi ≤ travel)) hi (some travel), rsv r 8 24 8,
    rel (decide (park < s0)) s0 (some (park + 1)), rel (decide (s0 + swathSteps r 6875 ≤ hi)) s0
      (some (hi - swathSteps r 6875)), rsv r 9 24 8,
    rng (r.f 10 0 16) (r.f 1 0 16) 60000, rng (r.f 10 16 16) 100 5000, rng (r.f 11 0 16) 0 (r.f 0 16 16), rsv r 11 16 16,
    rel (decide (peakCoilUv r ≤ uv * 1000)) (nearest (peakCoilUv r) 1000) (some uv)]

/-- One zone of ZONE_TABLE (R252); `maxRpm` is that of the section's SPINDLE record. -/
def ckZone (r : Rec) (maxRpm z : Nat) : Option (Nat × Option Nat) :=
  let st := r.f (1 + 2 * z) 0 14
  let n := r.ws.getD (2 + 2 * z) 0
  firstSome [(if z = 0 then rng st 0 0 else rng st 0 6874),
    (if z = 0 then none else rel (decide (r.f (2 * z - 1) 0 14 < st)) st (some (r.f (2 * z - 1) 0 14 + 1))),
    rsv r (1 + 2 * z) 14 18, rng n 1000000 13250000, rel (n % 16 == 0) n none,
    rel (decide (n * maxRpm ≤ 60 * 2650000000)) n (some (60 * 2650000000 / maxRpm))]

/-- MAX_RPM of a section. -/
def maxRpm (s : List Rec) : Nat := match (ofType s 0x50).head? with
  | some r => r.f 0 0 16
  | none => 0

/-- ZONE_TABLE (R252). -/
def ckZones (s : List Rec) (r : Rec) : Option (Nat × Option Nat) :=
  firstSome [ckOnce s r, rng (r.f 0 0 5) 1 24, rsv r 0 5 27, len r (1 + 2 * r.f 0 0 5),
    firstSome ((List.range (r.f 0 0 5)).map (ckZone r (maxRpm s)))]

/-- WRITE_STRATEGY (R267). -/
def ckStrategy (s : List Rec) (r : Rec) : Option (Nat × Option Nat) :=
  let pw := r.f 1 0 16
  let mn := r.f 4 0 16
  let mx := r.f 4 16 16
  let layers := match s.head? with
    | some m => m.f 0 4 3
    | none => 0
  let lim := match (ofType s 0x30).head? with
    | some h => h.f 1 16 16
    | none => 0
  firstSome [len r 6, rng (r.f 0 0 2) 0 (layers - 1),
    rel ((ofType (before s r) 0x61).all (fun x => x.f 0 0 2 != r.f 0 0 2)) (r.f 0 0 2) none, rsv r 0 2 30,
    rel (decide (mn ≤ pw)) mn (some pw), rel (decide (pw ≤ mx)) mx (some pw), rng mx 0 lim, rng (r.f 5 0 8) 0 20]

/-- CODE (R272). -/
def ckCode (r : Rec) : Option (Nat × Option Nat) :=
  firstSome [len r 3, oneOf (r.f 0 0 5) [4, 6, 8, 10, 12, 16, 21], rsvM r 0xF080F0E0 0 5 3, rng (r.f 0 8 4) 2 8, rsvM r 0xF080F0E0 0 12 4,
    rng (r.f 0 16 7) 1 64, rsvM r 0xF080F0E0 0 23 1, rng (r.f 0 24 4) 0 10, rsvM r 0xF080F0E0 0 28 4, rng (r.f 1 0 5) 4 16,
    rsvM r 0xFCE0 1 5 3,
    rng (r.f 1 8 2) 1 3, rsvM r 0xFCE0 1 10 6, rng (r.f 1 16 16) 100 60000, rng (r.f 2 0 8) 1 100,
    rng (r.f 2 8 8) (r.f 2 0 8) 100, rng (r.f 2 16 8) 0 100, rng (r.f 2 24 8) 1 32]

/-- MiB of usable capacity per active channel: 90 GiB over 24 channels (R33, R326). -/
def mibPerChannel : Nat := 3840

/-- BUFFER_PLAN (R336). The sum of the sizes is tested after SPARE and before META, with DETAIL0 the sum: the spec does not place that test
among the fields (the model's choice, log entry 181). -/
def ckPlan (channels : Nat) (r : Rec) : Option (Nat × Option Nat) :=
  let w (i : Nat) : Nat := r.ws.getD i 0
  let sum := w 0 + w 1 + w 2 + w 3 + w 4
  firstSome [len r 10, rng (w 0) 4096 4294967295, rng (w 1) 1024 4294967295, rng (w 3) 1024 4294967295,
    rng (w 4) 256 4294967295, rng sum 0 (channels * mibPerChannel), rng (w 6) 1000 4294967295,
    oneOf (r.f 7 0 16) [3200, 3733, 4266], rng (r.f 7 16 3) 1 4, rsv r 7 19 13, rng (r.f 8 0 8) 50 99,
    rng (r.f 8 8 8) 10 98, rel (decide (r.f 8 8 8 < r.f 8 0 8)) (r.f 8 8 8) (some (r.f 8 0 8 - 1)), rng (r.f 8 16 8) 0 90,
    rsv r 8 24 8, rng (r.f 9 0 16) 50 5000, rng (r.f 9 16 16) 1 1000]

/-- QUEUES (R359). -/
def ckQueues (r : Rec) : Option (Nat × Option Nat) :=
  firstSome [len r 5, rng (r.f 0 0 8) 1 128, rng (r.f 0 8 8) 1 128, rng (r.f 0 16 13) 2 4096, rsv r 0 29 3,
    rng (r.f 3 0 16) 1 10000, rng (r.f 3 16 8) 1 255, rng (r.f 3 24 8) 1 255, rng (r.f 4 0 8) 1 255, rng (r.f 4 8 8) 1 64,
    rsv r 4 16 16]

/-- POLICY (R390). -/
def ckPolicy (r : Rec) : Option (Nat × Option Nat) :=
  firstSome [len r 4, rng (r.f 0 0 14) 1 10240, rsvM r 0xF800C000 0 14 2, rng (r.f 0 16 11) 1 1024, rsvM r 0xF800C000 0 27 5, rsv r 1 4 4,
    rng (r.f 1 8 8) 5 255, rng (r.f 1 16 16) 200 60000, rng (r.f 2 0 16) 5 3600, rng (r.f 2 16 16) 100 1000,
    rng (r.f 3 0 12) 1 2048, rsvM r 0xF000F000 3 12 4, rng (r.f 3 16 12) 1 3600, rsvM r 0xF000F000 3 28 4]

/-- SIGNATURE (R512). -/
def ckSignature (r : Rec) : Option (Nat × Option Nat) := len r 324

/-- Check 4 of one record of a section. -/
def ckRec (s : List Rec) (present : Nat) (earlier : List Nat) (r : Rec) : Option (Nat × Option Nat) :=
  if r.ty = 0x20 then ckMechanism present earlier s r
  else if r.ty = 0x30 then ckHead s r
  else if r.ty = 0x40 then ckLoop s r
  else if r.ty = 0x41 then ckBank s r
  else if r.ty = 0x42 then ckRegion s r
  else if r.ty = 0x43 then ckCascade s r
  else if r.ty = 0x44 then ckMinSelect s r
  else if r.ty = 0x50 then ckSpindle s r
  else if r.ty = 0x51 then ckSled s r
  else if r.ty = 0x60 then ckZones s r
  else ckStrategy s r

/-- Check 4 of one global record. -/
def ckGlobal (channels : Nat) (r : Rec) : Option (Nat × Option Nat) :=
  if r.ty = 0x10 then ckDevice r
  else if r.ty = 0x70 then ckCode r
  else if r.ty = 0x80 then ckPlan channels r
  else if r.ty = 0x90 then ckQueues r
  else ckPolicy r

/-- The first failing record of a list under a test. -/
def firstRec (code : Nat) (ck : Rec → Option (Nat × Option Nat)) : List Rec → Option ImgRefusal
  | [] => none
  | r :: t => match ck r with
    | some d => some (at_ code r d)
    | none => firstRec code ck t

/-- Mechanism index of a section. -/
def secMech (s : List Rec) : Nat := match s.head? with
  | some r => r.f 0 0 4
  | none => 0

/-- Check 4 over the sections, in image order. -/
def ckSections (present : Nat) : (earlier : List Nat) → List (List Rec) → Option ImgRefusal
  | _, [] => none
  | earlier, s :: t => match firstRec 0x14 (ckRec s present earlier) s with
    | some e => some e
    | none => ckSections present (secMech s :: earlier) t

/-- MECH_PRESENT of an image. -/
def present (i : Image) : Nat := match ofType i.globals 0x10 with
  | r :: _ => r.f 1 0 16
  | [] => 0

/-- Check 4 (R33). -/
def check4 (channels : Nat) (i : Image) : Option ImgRefusal :=
  firstSome [firstRec 0x14 (ckGlobal channels) i.globals, ckSections (present i) [] i.sections,
    match i.sig with
    | some r => firstRec 0x14 ckSignature [r]
    | none => none]

/-! ### Checks 5 to 9 -/

/-- Whether bits [31:24] of a word equal bit 23 (s2.21 sign-extended). -/
def signExt24 (w : Nat) : Bool := bits w 24 8 == (if tbit w 23 then 255 else 0)

/-- Check 5 of one record: DETAIL0 is a word offset (R41). -/
def ck5 (r : Rec) : Option (Nat × Option Nat) :=
  let bad (k : Nat) : Option (Nat × Option Nat) := some (r.off + 1 + k, some 0)
  if r.ty = 0x41 then
    firstSome ((List.range (r.ws.length - 1)).map (fun i => if signExt24 (r.ws.getD (1 + i) 0) then none else bad (1 + i)))
  else if r.ty = 0x43 then (if signExt24 (r.ws.getD 1 0) then none else bad 1)
  else if r.ty = 0x40 then
    if loopClampLo r < loopClampHi r then
      (if loopKind r ≤ 1 ∧ ¬ loopLimitLo r ≤ loopLimitHi r then bad 4 else none)
    else bad 3
  else none

/-- The edges that a record adds to the loop graph (R34). -/
def edges (r : Rec) : List (Nat × Nat) :=
  if r.ty = 0x43 then [(r.f 0 0 8, r.f 0 8 8)]
  else if r.ty = 0x44 then
    ((groupEntries r).filter (fun e => bits e.2 0 8 != 0xFF)).map (fun e => (bits e.2 0 8, r.f 0 0 8))
  else []

/-- Nodes reachable from `ns` within `fuel` steps. -/
def reach (es : List (Nat × Nat)) : (fuel : Nat) → List Nat → List Nat
  | 0, ns => ns
  | fuel + 1, ns => reach es fuel (ns ++ ((es.filter (fun e => ns.contains e.1 && !ns.contains e.2)).map (·.2)))

/-- The first edge, in image order, that closes a cycle (R34). -/
def cycle : (es : List (Nat × Nat)) → List (Rec × Nat × Nat) → Option ImgRefusal
  | _, [] => none
  | es, (r, a, b) :: t =>
    if a = b ∨ (reach es 25 [b]).contains a then some (at_ 0x13 r (a, some b)) else cycle ((a, b) :: es) t

/-- Check 6 of a section (R34). -/
def ck6 (s : List Rec) : Option ImgRefusal := cycle [] (s.flatMap (fun r => (edges r).map (fun e => (r, e))))

/-- The loader's charge for a loop (R35). -/
def cost (s : List Rec) (l : Rec) : Nat :=
  (if loopOrder3 l then 13 else 10) + (if 1 < loopBanks l then 2 else 0)
    + ((ofType s 0x43).filter (fun r => r.f 0 0 8 == loopId l)).length
    + (if (ofType s 0x43).any (fun r => r.f 0 8 8 == loopId l) then 4 else 0)
    + (match (ofType s 0x44).find? (fun r => r.f 0 0 8 == loopId l) with
       | some g => 3 * g.f 0 8 3 + 5
       | none => 0)

/-- Inserts a loop into schedule order: DIVIDER, then LOOP_ID, ascending (R35). -/
def schedInsert (l : Rec) : List Rec → List Rec
  | [] => [l]
  | x :: t => if loopDivider l < loopDivider x ∨ (loopDivider l = loopDivider x ∧ loopId l < loopId x)
    then l :: x :: t else x :: schedInsert l t

/-- The schedule order of a section (R35). -/
def schedule (s : List Rec) : List Rec := (ofType s 0x40).foldr schedInsert []

/-- One frame of the walk of R35: the cycle count and the last loop run, or the refusal. -/
def walkFrame (frame : Nat) : (t : Nat) → (last : Option Rec) → List (Rec × Nat) → Option ImgRefusal
  | t, last, [] =>
    if 900 < t then last.map (fun l => at_ 0x10 l (t, some 900)) else none
  | t, last, (l, c) :: rest =>
    if frame % loopDivider l = loopPhase l then
      if loopDeadline l < t + c then some (at_ 0x10 l (t + c, some (loopDeadline l)))
      else walkFrame frame (t + c) (some l) rest
    else walkFrame frame t last rest

/-- Check 7 of a section: the 800 frames of the hyper-period (R35, R36). -/
def ck7 (s : List Rec) : Option ImgRefusal :=
  let order := (schedule s).map (fun l => (l, cost s l))
  firstSome ((List.range 800).map (fun f => walkFrame f 12 none order))

/-- Number of enabled beams of a section. -/
def beams (s : List Rec) : Nat := match s.head? with
  | some r => popcount 16 (r.f 1 0 16)
  | none => 0

/-- Channel bits per revolution at the highest zone of a section. -/
def topBits (s : List Rec) : Nat := match (ofType s 0x60).head? with
  | some r => r.ws.getD (2 * r.f 0 0 5) 0
  | none => 0

/-- Check 8 of a section: Head Link bandwidth (R37), in bits per minute to stay exact. -/
def ck8 (s : List Rec) : Option ImgRefusal :=
  let rate := beams s * topBits s * maxRpm s
  let up := rate * 6 + 512 * 800000 * 60
  let dn := rate * 2 + 384 * 800000 * 60
  match (ofType s 0x60).head? with
  | none => none
  | some z =>
    if 3 * 99609 * 1000000 * 60 < up then some (at_ 0x11 z (nearest up 60000000, some (3 * 99609)))
    else if 99609 * 1000000 * 60 < dn then some (at_ 0x11 z (setb (nearest dn 60000000) 31, some 99609))
    else none

/-- B_EFF × 5, in MB/s (R38): channels × rate × 2 × 0.80. -/
def bEff5 (channels rate : Nat) : Nat := channels * rate * 8

/-- D_PEAK of R38 as a fraction (numerator, denominator), in MB/s. -/
def dPeak (code : Rec) (secs : List (List Rec)) : Nat × Nat :=
  let sum := (secs.map (fun s => beams s * topBits s * maxRpm s)).foldl (· + ·) 0
  (sum * 945 * 64 * 32 * (100 + code.f 0 24 4),
   60 * 1000 * (64 + code.f 0 0 5) * (32 + code.f 0 8 4) * 8 * 100 * 1000000)

/-- Whether D_PEAK + META + `res` exceeds B_EFF (R38). -/
def bwExceeded (d : Nat × Nat) (metaBw res channels rate : Nat) : Bool :=
  decide (bEff5 channels rate * d.2 < 5 * (d.1 + (metaBw + res) * d.2))

/-- Check 9 (R38); `report` is BUFFER_PLAN, or the ZONE_TABLE of a partial image. -/
def ck9 (report queues plan code : Rec) (channels : Nat) (secs : List (List Rec)) (portCheck : Bool) : Option ImgRefusal :=
  let d := dPeak code secs
  let res := plan.ws.getD 5 0
  let ia := queues.ws.getD 1 0
  let ib := queues.ws.getD 2 0
  let demand := nearest (d.1 + (plan.ws.getD 6 0 + res) * d.2) d.2
  if bwExceeded d (plan.ws.getD 6 0) res channels (plan.f 7 0 16) then
    some (at_ 0x12 report (demand, some (nearest (bEff5 channels (plan.f 7 0 16)) 5)))
  else if portCheck then
    if ia + ib < res then some (at_ 0x12 queues (res, some (ia + ib)))
    else if 56000 < ia then some (at_ 0x12 queues (ia, some 56000))
    else if 56000 < ib then some (at_ 0x12 queues (ib, some 56000))
    else none
  else none

/-- The first section that fails a test. -/
def overSections (ck : List Rec → Option ImgRefusal) (ss : List (List Rec)) : Option ImgRefusal := firstSome (ss.map ck)

/-- A record of a type among the globals, or an empty one. -/
def glob (gs : List Rec) (t : Nat) : Rec := match ofType gs t with
  | r :: _ => r
  | [] => ⟨0, t, 0, []⟩

/-- The whole check of a whole image (R33): the image, or its refusal. `channels` are the trained channels. -/
def checkWhole (owner : Owner) (channels : Nat) (img : List Byte) : Except ImgRefusal Image :=
  match frame img with
  | .error e => .error e
  | .ok i =>
    if tbit i.flags 1 then .error (hdr 1)
    else if !digestOk img i then .error (hdr 2)
    else
      let g := glob i.globals
      match firstSome [ownerCheck owner i, check4 channels i,
          firstRec 0x15 ck5 (i.globals ++ i.sections.flatten), overSections ck6 i.sections,
          overSections ck7 i.sections, overSections ck8 i.sections,
          ck9 (g 0x80) (g 0x90) (g 0x80) (g 0x70) (min channels ((g 0x10).f 0 24 5)) i.sections true] with
      | some e => .error e
      | none => .ok i

/-- The whole check of a partial image for mechanism `m` against the records in force (R48, R49, "Partial reload"): `live`
are the global records and `others` the sections of the other mechanisms. -/
def checkPartial (owner : Owner) (channels : Nat) (live : List Rec) (others : List (List Rec)) (m : Nat) (img : List Byte) :
    Except ImgRefusal Image :=
  match frame img with
  | .error e => .error e
  | .ok i =>
    if !tbit i.flags 1 ∨ bits i.flags 2 4 ≠ m then .error (hdr 1)
    else if !digestOk img i then .error (hdr 2)
    else
      let g := glob live
      let zt : Rec := match i.sections with
        | s :: _ => glob s 0x60
        | [] => ⟨0, 0x60, 0, []⟩
      match firstSome [ownerCheck owner i, check4 channels i, firstRec 0x15 ck5 i.sections.flatten,
          overSections ck6 i.sections, overSections ck7 i.sections, overSections ck8 i.sections,
          ck9 zt (g 0x90) (g 0x80) (g 0x70) (min channels ((g 0x10).f 0 24 5)) (others ++ i.sections) false] with
      | some e => .error e
      | none => .ok i

end Img
end Sys2Proof.Machine
end

