-- ==== Sys2Proof/Machine/Link.lean ====
section
/-! DEFINITION. Head Link blocks bit by bit (R226–R232, R237): PAM4 levels, the scrambler, the two checks, the trailer, the servo
cell and the streams of samples and write symbols. A block is a number of 2,048 bits: bit `i` of word `k` is bit `128 k + i`. -/
namespace Sys2Proof.Machine

/-- One upstream servo cell (R237), raw 14-bit codes. -/
structure ServoCell where
  fe    : BitVec 14
  fs    : BitVec 14
  te    : List (BitVec 14)
  bs    : List (BitVec 14)
  rt    : BitVec 14
  tt    : BitVec 14
  temp  : BitVec 6
  dnBad : Bool
  phase : Bool
deriving DecidableEq, Repr

namespace Link

/-! ### Line coding (R226) -/

/-- The Gray-coded level of a pair of bits; bit `2i + 1` is the more significant one. -/
def levelOf (pair : Nat) : BitVec 2 := if pair = 2 then 3 else if pair = 3 then 2 else BitVec.ofNat 2 pair

/-- The pair of bits of a level. -/
def pairOf (l : BitVec 2) : Nat := if l = 3 then 2 else if l = 2 then 3 else l.toNat

/-- The levels of the lowest `2 n` bits, first pair first. -/
def toLevels : (n : Nat) → (v : Nat) → List (BitVec 2)
  | 0, _ => []
  | n + 1, v => levelOf (v % 4) :: toLevels n (v / 4)

/-- The bits that levels carry. -/
def ofLevels : List (BitVec 2) → Nat
  | [] => 0
  | l :: t => pairOf l + 4 * ofLevels t

/-- Scrambles the lowest `n` bits of `v` by x^58 + x^39 + 1. The state holds the last 58 bits sent, the newest in bit 0. -/
def scramble : (n : Nat) → (v st : Nat) → Nat × Nat
  | 0, _, st => (0, st)
  | n + 1, v, st =>
    let o := (v + bits st 38 1 + bits st 57 1) % 2
    let r := scramble n (v / 2) ((2 * st + o) % 2 ^ 58)
    (o + 2 * r.1, r.2)

/-- The receiver's inverse of `scramble`: the state holds the last 58 bits received. -/
def descramble : (n : Nat) → (v st : Nat) → Nat × Nat
  | 0, _, st => (0, st)
  | n + 1, v, st =>
    let o := (v + bits st 38 1 + bits st 57 1) % 2
    let r := descramble n (v / 2) ((2 * st + v % 2) % 2 ^ 58)
    (o + 2 * r.1, r.2)

/-! ### Checks (R228) -/

/-- One step of CRC-8 by x^8 + x^2 + x + 1. -/
def crc8Bit (crc bit : Nat) : Nat := (2 * crc) % 256 ^^^ (if (crc / 128 + bit) % 2 = 1 then 0x07 else 0)

/-- CRC-8 of the lowest `n` bits of `v`, bit 0 first. -/
def crc8 : (n : Nat) → (v crc : Nat) → Nat
  | 0, _, c => c
  | n + 1, v, c => crc8 n (v / 2) (crc8Bit c (v % 2))

/-- The register of CRC-32C over the lowest `n` bits of `v`, bit 0 first. -/
def crc32Bits : (n : Nat) → (v crc : Nat) → Nat
  | 0, _, c => c
  | n + 1, v, c => crc32Bits n (v / 2) (Codec.crcBit 0x82F63B78 (c ^^^ (v % 2)))

/-- HCHK of a trailer: over bits [55:0] and [95:64], in the order in which they are sent (log entry 194). -/
def hchkOf (t : Nat) : Nat := crc8 32 (bits t 64 32) (crc8 56 t 0)

/-- CRC of a block: over payload words 0 to 14 and trailer bits [95:0]. -/
def crcOf (block : Nat) : Nat := crc32Bits 2016 block 0xFFFFFFFF ^^^ 0xFFFFFFFF

/-! ### Blocks (R227, R229) -/

/-- The trailer's fields. -/
structure Trailer where
  pos : Nat
  seq : Nat
  stream : Nat
  sv : Bool
  mtype : Nat
  mdata : Nat
deriving DecidableEq, Repr

/-- A block as its receiver sees it: its trailer, whether HCHK and CRC pass, and its 15 payload words. -/
structure Block where
  hdrOk : Bool
  crcOk : Bool
  t : Trailer
  payload : Nat
deriving DecidableEq, Repr

/-- Reads a block. -/
def parse (b : Nat) : Block :=
  let t := bits b 1920 128
  { hdrOk := bits t 56 8 == hchkOf t
    crcOk := bits t 56 8 == hchkOf t && bits t 96 32 == crcOf b
    t := ⟨bits t 64 32, bits t 46 6, bits t 41 5, tbit t 40, bits t 36 4, bits t 0 36⟩
    payload := bits b 0 1920 }

/-- Forms a block: reserved bits 0, both checks in place. -/
def build (t : Trailer) (payload : Nat) : Nat :=
  let low := t.mdata % 2 ^ 36 + t.mtype % 16 * 2 ^ 36 + b2n t.sv * 2 ^ 40 + t.stream % 32 * 2 ^ 41 + t.seq % 64 * 2 ^ 46 +
    t.pos % 2 ^ 32 * 2 ^ 64
  let b := payload % 2 ^ 1920 + (low + hchkOf low * 2 ^ 56) * 2 ^ 1920
  b + crcOf b * 2 ^ 2016

/-- The levels of a block of a lane whose scrambler stands at `st`, and the scrambler after it. -/
def send (t : Trailer) (payload st : Nat) : List (BitVec 2) × Nat :=
  let r := scramble 2048 (build t payload) st
  (toLevels 1024 r.1, r.2)

/-- The block that levels of a lane carry, and the descrambler after them. -/
def receive (levels : List (BitVec 2)) (st : Nat) : Block × Nat :=
  let r := descramble 2048 (ofLevels levels) st
  (parse r.1, r.2)

/-! ### Streams (R231, R232) -/

/-- Bits of an upstream block's stream: words 0 to 10 beside a servo cell, else words 0 to 14. -/
def streamBits (sv : Bool) : Nat := if sv then 1408 else 1920

/-- A sample that a block began: the channel bit it belongs to, the bits it has so far and whether they are good. -/
structure Part where
  pos : Nat
  nbits : Nat
  val : Nat
  good : Bool
deriving DecidableEq, Repr

/-- `n` samples of 6 bits. -/
def samples6 : (n : Nat) → (v : Nat) → List (BitVec 6)
  | 0, _ => []
  | n + 1, v => BitVec.ofNat 6 v :: samples6 n (v / 64)

/-- The samples of a stream block: those placed from the first position on, and the sample it leaves unfinished. -/
structure Stream where
  pos : Nat
  samples : List (BitVec 6)
  erased : Nat                -- samples of the block that are erased, from `pos` on: none where it is good
  part : Option Part

/-- Reads the stream of a block with a good header: a sample left unfinished by the block before it ends in its first bits, when
POS names the sample after that one. A block that is not good yields as many erased samples. -/
def streamOf (b : Block) (old : Option Part) : Stream :=
  let n := streamBits b.t.sv
  let cont := old.filter (fun p => decide ((p.pos + 1) % 2 ^ 32 = b.t.pos))
  let used := match cont with
    | some p => 6 - p.nbits
    | none => 0
  let whole := (n - used) / 6
  let rest := (n - used) % 6
  let body := samples6 whole (bits b.payload used (6 * whole))
  let head := match cont with
    | some p => if p.good ∧ b.crcOk then [BitVec.ofNat 6 (p.val + bits b.payload 0 used * 2 ^ p.nbits)] else []
    | none => []
  let part := if rest = 0 then none else some ⟨(b.t.pos + whole) % 2 ^ 32, rest, bits b.payload (used + 6 * whole) rest, b.crcOk⟩
  if b.crcOk then ⟨(b.t.pos + 2 ^ 32 - head.length) % 2 ^ 32, head ++ body, 0, part⟩ else ⟨b.t.pos, [], whole, part⟩

/-- Counts of channel bits are compared modulo 2^32, with a window of ±2^31 (R231). -/
def cbcDiff (a b : Nat) : Int :=
  let v := (a + 4294967296 - b) % 4294967296
  if v < 2147483648 then v else (v : Int) - 4294967296

/-- Stream bits of write symbols, symbol `j` in bits [2j + 1:2j]. -/
def ofSymbols : List (BitVec 2) → Nat
  | [] => 0
  | s :: t => s.toNat + 4 * ofSymbols t

/-! ### The servo cell (R237) -/

/-- The fields of a servo cell, bit 0 of word 11 first. -/
def servoCell (w : BitVec 512) : ServoCell :=
  let f (lo : Nat) : BitVec 14 := BitVec.ofNat 14 (w.toNat >>> lo)
  { fe := f 0, fs := f 14
    te := (List.range 16).map (fun b => f (28 + 14 * b)), bs := (List.range 16).map (fun b => f (252 + 14 * b))
    rt := f 476, tt := f 490, temp := BitVec.ofNat 6 (w.toNat >>> 504), dnBad := w.toNat.testBit 510, phase := w.toNat.testBit 511 }

end Link
end Sys2Proof.Machine
end

