-- ==== Sys2Proof/Machine/MechTypes.lean ====
section
/-! DEFINITION. State of one mechanism beside its registers: mechanism control (R86–R105), the Mule (R107–R137), the optical
loops (R141–R165), the spindle drive (R170–R199) and the sled (R201–R223). -/
namespace Sys2Proof.Machine

/-- The mechanism states of R86. -/
inductive MState where
  | off | parked | spinningUp | spun | focused | tracking | seeking | reading | writing | spinningDown | exchange | fault
  | safe
deriving DecidableEq, Repr

/-- The state code of R86. -/
def MState.code : MState → Nat
  | .off => 0 | .parked => 1 | .spinningUp => 2 | .spun => 3 | .focused => 4 | .tracking => 5 | .seeking => 6
  | .reading => 7 | .writing => 8 | .spinningDown => 9 | .exchange => 10 | .fault => 11 | .safe => 12

/-- The state that a code of R86 names; codes above 0xC are never held. -/
def MState.ofCode : Nat → MState
  | 1 => .parked | 2 => .spinningUp | 3 => .spun | 4 => .focused | 5 => .tracking | 6 => .seeking
  | 7 => .reading | 8 => .writing | 9 => .spinningDown | 10 => .exchange | 11 => .fault | 12 => .safe
  | _ => .off

/-- Where an INIT stands (R89). -/
inductive InitPhase where
  | none | check | spinDown | homing
deriving DecidableEq, Repr

/-- What ends a park sequence (R86): PARKED, or the exchange that is pending (R96). -/
inductive ParkGoal where
  | none | park | exchange | idle
deriving DecidableEq, Repr

/-- A media request held at a mechanism, with the device time of its arrival and whether sequencing served it (R92–R94). -/
structure HeldReq where
  req : MediaReq
  arrived : Nat
  sequenced : Bool
deriving DecidableEq, Repr

/-- The gates of a mechanism's own clock domains (R55, R59): Mule, motor PWM, the four Head Link lanes and the beam timing of each
beam; true or 1 where the clock runs. -/
structure MechClk where
  mule : Bool
  motor : Bool
  lanes : Nat
  beams : Nat
deriving DecidableEq, Repr

/-- Mechanism control beside the MCH registers. -/
structure MchX where
  init : InitPhase
  goal : ParkGoal
  deferred : ParkGoal            -- PARK or EXCHANGE that waits for the block in progress (R89)
  stopReq : Bool                 -- STOP_REQ of R450
  savedAuto : Option Bool        -- value of AUTO recorded by R96 step 1, until software writes MCH_CTL
  exchEnding : Bool              -- EXCHANGE_END accepted, XPERMIT deasserted (R96 step 6)
  exchFault : Bool               -- a fault latched in EXCHANGE (R99)
  escalate : Bool                -- an escalation waits for rest (R102)
  discLevel : Bool               -- MOTm_DISC_N low
  faultTimes : List Nat          -- device times of the faults in the last 600 s (R102)
  held : List HeldReq            -- media requests held at this mechanism, oldest first
  relock : Bool                  -- an automatic reacquisition or relock is in progress (R87)
  autoInitOff : Bool             -- AUTO_INIT is ignored until INIT (R102)
  restored : Nat                 -- mask of beams restored and awaiting a full calibration (R104)
  firstAt : Nat                  -- device time at which MCH_FAULT_FIRST was recorded (R101)
  firstFrame : Nat               -- Mule frame in which it was recorded
deriving DecidableEq, Repr

/-- One loop of the Mule. States are s8.31 integers, outputs and inputs 16-bit (R109). -/
structure LoopX where
  s1 : Int
  s2 : Int
  s3 : Int
  e1 : Int               -- last input
  e2 : Int               -- the one before
  hist : List Int        -- outputs delivered since the loop was enabled, newest first, at most 800 (R127)
  coef : List Nat        -- coefficients of the active bank, in the order of R121
  shadow : Option (Nat × List Nat)    -- bank whose prefetch has completed, with its coefficients (R124)
  speedBand : Nat
  tempBand : Nat
  reenable : Bool        -- disabled by a slip, to be enabled in the next frame (R150)
  defHold : Bool         -- in defect hold (R156)
  clampRun : Nat         -- consecutive completed samples that clamped (R151)
  swSetp : Bool          -- software has written SRV_LSETP since the last capture (R142)
deriving DecidableEq, Repr

/-- One minimum-select group (R131–R133). -/
structure GovX where
  winner : Option Nat    -- none before the first selection after enable
  frames : Vector Nat 4  -- per entry, frames won that make no whole millisecond yet (R133)
deriving DecidableEq, Repr

/-- The Mule beside the SRV registers. -/
structure SrvX where
  loops : Vector LoopX 25
  lostRun : Nat
  eSq : List Nat         -- squared focus errors of the last 800 frames that were not lost, newest first (R129)
  govs : Vector GovX 2
  inhibit : Nat          -- write inhibit per beam (R159)
  okRun : Vector Nat 16  -- frames within limits, per beam, at most 255 (R160)
  headTemp : List Int    -- head temperatures of the last 1,024 frames (R123)
deriving DecidableEq, Repr

/-- Focus acquisition (R144, R145). -/
inductive FocusPhase where
  | none
  | sweep      -- steps 1 to 3
  | settle     -- steps 4 to 6
deriving DecidableEq, Repr

/-- Where a seek stands (R152). -/
inductive SeekPhase where
  | none | jump | sledMove | short | settle
deriving DecidableEq, Repr

/-- Where a layer jump stands (R146). -/
inductive JumpPhase where
  | none | kick | settle
deriving DecidableEq, Repr

/-- Where a full or quick calibration stands (R161, R165): `quick` before tracking locks, `warm` in TRACKING. -/
inductive CalPhase where
  | none | runout | seekCal | layer | finish | quick | warm
deriving DecidableEq, Repr

/-- A defect in force (R155, R156): frame of its onset, last frame that did not meet its end condition, frames in a row that do, the
channel-bit counts at the start of its hint, and whether the affected loops are still held. -/
structure DefX where
  onset : Nat
  last : Nat
  clear : Nat
  start : List Nat
  hold : Bool
deriving DecidableEq, Repr

/-- An erasure hint (R157): beam, channel-bit counts at its start and end, cause 1–7. -/
structure Hint where
  beam : Nat
  first : Nat
  last : Nat
  cause : Nat
deriving DecidableEq, Repr

/-- A hint whose POST frames have not passed: beams, their channel-bit counts at its start, its last affected frame, its cause. -/
structure HintW where
  beams : Nat
  start : List Nat
  last : Nat
  cause : Nat
deriving DecidableEq, Repr

/-- The scaled samples of a frame (R112, R141): focus error and sum, tracking error and sum per beam, radial and tangential tilt. -/
structure Sv where
  fe : Int
  fs : Int
  te : List Int
  bs : List Int
  rt : Int
  tt : Int
deriving DecidableEq, Repr

/-- What the Mule keeps from frame to frame to follow a sweep, a jump, a short seek, and the runs that decide losses and slips. -/
structure DetX where
  sv : Sv                 -- samples of the last frame that was not lost
  frames : Nat            -- frames since the sweep, the jump or the capture in progress began (R144, R146)
  sign : Int              -- sign of the last focus error other than 0 since then
  cross : Bool            -- the last frame held a zero crossing with the raw focus sum at ACQ_SUM or above
  curves : Nat            -- such crossings in the ramp of the sweep: valid S-curves (R144)
  failed : Bool           -- the sweep met two consecutive lost frames (R145)
  dark : Bool             -- the raw focus sum has been below ACQ_SUM since the jump began
  peak : Option Nat       -- frame at which the first peak of the jump's target layer passed (R146)
  good : Nat              -- consecutive frames with the focus sum within limits (R144)
  bad : Bool              -- the focus sum has left the limits since the capture (R146)
  low : Nat               -- consecutive frames with the focus sum below LOSS_LVL (R147)
  slips : Vector Nat 16   -- per beam, consecutive frames with its tracking error at SLIP_LVL (R150)
  teSign : Int            -- sign of the last tracking error other than 0 of the beam that counts crossings (R152)
  crossed : Nat           -- its changes of sign since the short seek began
deriving DecidableEq, Repr

/-- The runout measure of one beam (R161 step 1): samples taken, least, greatest and sum of its raw tracking error, sum of its raw beam
sum. -/
structure RunoutX where
  n : Nat
  lo : Int
  hi : Int
  sum : Int
  bsum : Int
deriving DecidableEq, Repr

/-- A measure of a calibration in progress (R161, R163): frames offered, revolutions passed, whether it is the repeat, and the beams. -/
structure MeasX where
  total : Nat
  revs : Nat
  again : Bool
  beams : Vector RunoutX 16
deriving DecidableEq, Repr

/-- A sweep, jump or capture begins: its frames, crossings and runs start again. -/
def DetX.restart (x : DetX) : DetX :=
  { x with frames := 0, sign := 0, cross := false, curves := 0, failed := false, dark := false, peak := none, good := 0, bad := false, low := 0 }

/-- A short seek begins: its crossings start again. -/
def DetX.restartSeek (x : DetX) : DetX := { x with teSign := 0, crossed := 0 }

/-- A measure that has taken no sample. -/
def MeasX.empty (again : Bool) : MeasX := ⟨0, 0, again, Vector.replicate 16 ⟨0, 0, 0, 0, 0⟩⟩

/-- Nothing followed yet. -/
def DetX.reset : DetX where
  sv := ⟨0, 0, [], [], 0, 0⟩
  frames := 0
  sign := 0
  cross := false
  curves := 0
  failed := false
  dark := false
  peak := none
  good := 0
  bad := false
  low := 0
  slips := Vector.replicate 16 0
  teSign := 0
  crossed := 0

/-- The optical control beside its registers. -/
structure OptX where
  focus : FocusPhase
  sweeps : Nat            -- sweeps used in this acquisition
  target : Layer          -- layer of the acquisition or jump
  seek : SeekPhase
  swath : Nat             -- swath under the head, last known
  jump : JumpPhase
  jumpFrom : Layer
  retreat : Bool          -- the jump returns from a probe that found no layer
  cal : CalPhase
  calLayer : Layer
  slips : List (Nat × Nat)  -- (frame count, beam) of slips in the last 16 frames (R151)
  frameCount : Nat        -- frames since the Mule left gating
  defects : List (Defect × DefX)
  hints : List Hint       -- hints handed to the FSQ since the revolution mark, newest first, at most 1,024
  pend : List HintW       -- hints whose POST frames have not passed
  stamps : List (List Nat)  -- channel-bit count of each beam at the start of the last 64 frames, newest first (R157)
  tracks : Int            -- tracks of the short seek in progress (R153)
  focHeld : Int           -- focus output at the start of a sweep or jump (R144, R146)
  det : DetX
  meas : MeasX
  fsHist : List Int       -- raw focus sums of the last 800 frames that were not lost, newest first (R144)
deriving DecidableEq, Repr

/-- A coast window outside a catch (R194): at entry to SPUN, or at entry to SPINNING_DOWN. -/
inductive CoastWin where
  | none | up | down
deriving DecidableEq, Repr

/-- The back-EMF vector over a window with the gates off (R185, R194): time and outputs so far, its angle, the angle it has turned, 2^32 a
turn, the sum of its line-to-line peaks in 10 µV, and whether every phase current has been below 50 mA. -/
structure EmfX where
  ns : Nat
  n : Nat
  ang : Nat
  turned : Int
  peaks : Nat
  quiet : Bool
deriving DecidableEq, Repr

/-- A window in which no output has come. -/
def EmfX.reset : EmfX := ⟨0, 0, 0, 0, 0, true⟩

/-- The spindle drive beside the SPN registers. Fluxes in pV·s, currents in µA, speeds in 0.5 rpm, angles 2^32 a turn. -/
structure SpnX where
  waitLink : Bool         -- CATCH waits for the Head Link (R175)
  fluxBuild : Bool        -- the flux-build vector of case 0 is applied (R186)
  psiA : Int              -- stator flux, α
  psiB : Int              -- and β
  dpsi : Bool             -- flux comparator (R178)
  dtau : Int              -- torque comparator: −1, 0 or 1
  vector : Nat            -- voltage vector in force, 0–7
  iAl : Int               -- phase currents used last, α
  iBe : Int               -- and β
  speed : Int             -- speed estimate
  ang : Nat               -- electrical angle
  elecRevs : Nat          -- electrical revolutions modulo POLE_PAIRS
  sampleAng : Nat         -- angle at the last 10 kHz sample
  sampleNs : Nat          -- time accumulated towards the next 10 kHz sample
  lossSum : Nat           -- winding loss × time accumulated over it, µW × ns
  loss : Nat              -- estimated winding loss of the last 10 kHz sample, µW (R190)
  comFail : Bool          -- SHORT_BRAKE entered for a commutation failure (R196)
  wasBraking : Bool       -- in BRAKE or SHORT_BRAKE at entry to HOLD (R191)
  coast : Bool            -- HOLD coasts in place of flux hold (R191)
  releasing : Bool        -- SHORT_BRAKE step 3: gates off, speed being measured (R188)
  released : Bool         -- SHORT_BRAKE step 2: short released for overcurrent
  tstar : Int             -- loop output, Q15 of TQ_MAX
  bemfSkips : Nat         -- consecutive back-EMF skips (R183)
  handbackDue : Option Nat  -- deferred hand-back cause (R183)
  busBad : Bool           -- stream 6 is faulty (R198)
  voltBad : Bool          -- a voltage stream is faulty
  curBad : Bool           -- a current stream is faulty
  profile : Nat           -- target rpm of the last SPIN_UP or SET_SPEED, 0 for the record's profile (R130)
  conduct : Nat           -- conducting pair of the six-step drive, 0–5 (R181)
  crossAt : Nat           -- device time of the last zero crossing
  integ : Int             -- integrator of the current regulator, V × 2^12
  duties : List Nat       -- conduction duty of legs A, B and C in the present PWM period, Q16
  window : CoastWin
  emf : EmfX
  sinceEdge : Nat         -- time from the last gate edge to the start of the present step, ns (R172)
  curSkips : Nat          -- consecutive skipped current samples (R196)
  trips : List Nat        -- device times of the overcurrent trips of the last 1 ms (R196)
  fluxBad : Nat           -- time that the flux magnitude has been outside 50 % to 150 % of its reference, ns (R196)
  start0 : Option Nat     -- time since a case 0 start with T* at TQ_MAX throughout, ns (R196)
  bandRun : Nat           -- consecutive 10 kHz samples with the speed in band (R182)
  satRun : Nat            -- consecutive 10 kHz samples with T* at TQ_MAX (R183)
  chopLow : Nat           -- time that stream 7 has read below CHOP_MIN_I with the chopper on, ns (R190)
  indexDue : Bool         -- MECH has passed SPN_INDEX.OFS forward, and the index mark is to come (R174)
  sectorEdge : Bool       -- the last DTC step crossed a flux sector boundary (R182)
deriving DecidableEq, Repr

/-- The sled beside the SLD registers. Position in 1/2^32 microstep, velocity and acceleration in nm/s and nm/s². -/
structure SldX where
  pos : Int
  vel : Int
  acc : Int
  target : Int            -- microsteps
  homeStep : Nat          -- 0 none, 1 inward, 2 braking, 3 outward
  after : Option Int      -- target of the move that waits for a homing (R221)
  stopping : Bool         -- PROFILE is braking for a stop (R219)
  limStop : Bool          -- ramp stop on a switch (R217)
  hardHold : Bool         -- after a hard stop on a switch: held at I_RUN (R217)
  keptState : Nat         -- MCH state in which the move stopped (R220)
  seekMove : Bool         -- the move is step 3 of a seek
  stopOp : Bool           -- the stop in progress answers SLD_CMD STOP
  phase : Int             -- microsteps by which rebases moved the position without the angle (R222)
  homeFrom : Int          -- position at which step 1 or 3 of a homing began (R214), in the units of `pos`
  limMove : Bool          -- a move was given while a ramp stop on a switch brakes: it follows at zero speed
  chatter : Vector Bool 2 -- switches treated as asserted because they chatter (R218): inner, outer
  dutyA : Option (Nat × Nat)   -- duty of MOTm_SLD_A1 as a fraction; A2 runs at the complement; `none`: both low (R205)
  dutyB : Option (Nat × Nat)   -- the same of MOTm_SLD_B1 and B2
deriving DecidableEq, Repr

/-- An access to a head register that awaits its reply (R240, R241, R248). -/
structure HlkTag where
  tag : Nat
  write : Bool
  addr : Nat
  data : Nat
  host : Bool            -- started by HLK_REG_CMD; otherwise by the device itself
  tries : Nat
deriving DecidableEq, Repr

/-- Write symbols of a beam that have not gone to the head yet (R231, R235): the CBC of the first, the recording block they belong to,
the first one's channel bit in its frame, and the symbols, at most the 960 of one block of the link. -/
structure TxChunk where
  beam : Nat
  pos : Nat
  pba : Nat
  off : Nat
  symbols : List (BitVec 2)
deriving DecidableEq, Repr

/-- A downstream block sent (R227): its SEQ, whether it carried an actuator cell, and its write symbols: beam, CBC of the first, how
many, the recording block they belong to and the first one's channel bit in its frame. -/
structure SentBlk where
  seq : Nat
  sv : Bool
  beam : Option Nat
  pos : Nat
  n : Nat
  pba : Nat
  off : Nat
deriving DecidableEq, Repr

/-- A span of a recording block that the link lost before the block began (R244). -/
structure EarlyFrag where
  pba : Nat
  beam : Nat
  first : Nat
  last : Option Nat
deriving DecidableEq, Repr

/-- The Head Link beside the HLK registers. -/
structure HlkX where
  fastFails : Nat               -- failed fast retrains since the link was last UP (R246)
  tags : List HlkTag
  waiting : List HlkTag         -- accesses that wait for a tag or for LINK to read UP, oldest first (R241, R247)
  placed : Vector (Option Nat) 16   -- channel-bit count at the end of the samples placed, per beam (R233)
  offs : List Int               -- arrival offsets of the last 16 frames, newest first (R243)
  adjWait : Nat                 -- frames until HF_SDLY may move again
  tempLow : Option Nat          -- TEMP bits [5:0] of a phase 0 cell (R237)
  cellSeen : Bool               -- a servo cell has come in this frame window (R248)
  taps : Option (List Word)     -- taps stored by the last full training, by lane (R69, R245, R246)
  rx : Vector Nat 3             -- descrambler of each upstream lane: the last 58 bits received (R226)
  tx : Nat                      -- scrambler of the downstream lane: the last 58 bits sent (R226)
  dnSeq : Nat                   -- SEQ of the next downstream block (R227)
  part : Vector (Option Link.Part) 16   -- sample of each beam that a block left unfinished (R232)
  bad : Vector (List Nat) 3     -- device times of the bad blocks of the last millisecond, by lane, newest first (R246)
  mark : Vector (Option Nat) 16 -- CBC of each beam at the last revolution mark (R231)
  txq : List TxChunk            -- write symbols that wait for their time (R235)
  sent : List SentBlk           -- the last 64 downstream blocks, newest first (R244)
  early : List EarlyFrag        -- spans lost of blocks whose first gate has not opened yet (R244)
deriving DecidableEq, Repr

/-- A span of a block that was not written (R16, R280): beam and channel-bit offsets from the frame's start; `last` is none
until the block ends. -/
structure Frag where
  beam : Nat
  first : Nat
  last : Option Nat
deriving DecidableEq, Repr

/-- The gates of a mechanism (R16, R453): masks of the beams whose write or read gate is open, and the fragments of the
block in progress. -/
structure GateX where
  wopen : Nat
  ropen : Nat
  frags : List Frag
  reopen : Nat                  -- beams whose write gate dropped and has not reopened (R16 step 5)
  cb : Nat                      -- channel-bit count last seen, from the revolution mark
  start : Nat                   -- channel bit at which the block in progress began
  frame0 : Nat                  -- Mule frame in which it began
  inBlock : Bool                -- a block is in progress (R89)
  writing : Bool                -- that block is written
  pba : Nat                     -- PBA of that block
  ended : List (Nat × List Frag)  -- fragments of blocks that have ended and are not yet classified, oldest first
deriving DecidableEq, Repr

end Sys2Proof.Machine
end

