-- ==== Sys2Proof/Machine/ReadChannel.lean ====
section
/-! DEFINITION. The read channels of a head over one recording frame (R288–R301): timing recovery, equaliser, crosstalk canceller,
dropout detector, soft detector, sync search, descrambler, header copies and the inverse of the dealing. All sixteen channels run
together, one channel bit at a time. Timed samples are in 2^-10 of full scale, equalised ones in 2^-20, cancelled ones in 2^-31; equaliser
taps are kept in 2^-46 and canceller taps in 2^-67, and used cut to their formats (log entry 195). -/
namespace Sys2Proof.Machine
namespace Rch

/-- A servo hint or another span of a frame: first and last channel bit, and whether it erases (otherwise it scales). -/
structure Doubt where
  first : Nat
  last : Nat
  erase : Bool
deriving DecidableEq, Repr

/-- The settings of one channel for a frame (R320), and what it is told of the block: its servo hints, the spans that Gander recorded,
whether the beam is retired, and the sides of the canceller that are not open throughout. -/
structure Cfg where
  eqAdapt : Nat
  xtAdapt : Nat
  muEq : Nat
  muXt : Nat
  wide : Bool
  kpAcq : Nat
  kiAcq : Nat
  kp : Nat
  ki : Nat
  lockLvl : Nat
  tgt : List Int                -- target taps, 1/16
  syncErr : Nat
  syncWin : Nat
  sMin : Nat
  ddLvl : Nat
  ddHi : Nat
  ddPad : Nat
  ddWin : Nat
  scale : Nat
  dlo : Int
  dhi : Int
  reference : Nat               -- reference envelope
  hints : List Doubt
  frags : List (Nat × Nat)
  retired : Bool
  sides : List Int              -- sides −2, −1, 1, 2 that are in use
  eq0 : List Int                -- starting taps of the equaliser, 2^-46
  xt0 : List Int                -- starting taps of the canceller, 2^-67
deriving DecidableEq, Repr

/-- One timed sample: its value and whether it is flagged erased. -/
structure Sample where
  v : Int
  erased : Bool
deriving DecidableEq, Repr

/-- What a channel carries from channel bit to channel bit; every history has its newest element first. -/
structure St where
  tau : Int
  integ : Int
  xs : List Sample
  ys : List Int
  zs : List Int
  met : List Int                -- forward metrics of the 8 states
  paths : List (List Bool)      -- survivor of each state
  as : List Bool                -- tentative levels, 16 channel bits behind z
  es : List Int                 -- equaliser errors
  phis : List Int               -- phase errors
  eq : List Int
  xt : List Int
  drop : Bool                   -- a dropout is in progress
  okRun : Nat                   -- samples for which the envelope has stayed at or above DD_HI
  drops : List (Nat × Option Nat)   -- dropouts, newest first

/-- The channel before its frame. -/
def St.init (c : Cfg) : St :=
  ⟨0, 0, [], [], [], List.replicate 8 0, List.replicate 8 [], [], [], [], c.eq0, c.xt0, false, 0, []⟩

/-! ### Timing recovery (R290) and dropouts (R297) -/

/-- A raw sample in 2^-10 of full scale; an erased one counts as 0. -/
def rawVal (s : Option (BitVec 6)) : Int := match s with
  | some b => b.toInt * 32
  | none => 0

/-- Mean of |x| over the last DD_WIN samples that are not erased; `none` where there is none. -/
def envelope (c : Cfg) (xs : List Sample) : Option Nat :=
  let l := (xs.take c.ddWin).filter (fun x => !x.erased)
  if l = [] then none else some ((l.map (fun x => x.v.natAbs)).foldl (· + ·) 0 / l.length)

/-- The dropout detector at channel bit `n` (R297). -/
def dropStep (c : Cfg) (n : Nat) (s : St) : St :=
  if s.xs.length < c.ddWin then s
  else match envelope c s.xs with
    | none => s
    | some e =>
      if ¬ s.drop then
        if e * 256 < c.ddLvl * c.reference then { s with drop := true, okRun := 0, drops := (n, none) :: s.drops } else s
      else
        let r := if c.ddHi * c.reference ≤ e * 256 then s.okRun + 1 else 0
        if c.ddWin ≤ r then
          { s with drop := false, okRun := 0, drops := match s.drops with
              | (a, _) :: t => (a, some n) :: t
              | [] => [] }
        else { s with okRun := r }

/-- Takes the raw sample of channel bit `n` at the present phase. -/
def timeStep (c : Cfg) (raw : List (Option (BitVec 6))) (n : Nat) (s : St) : St :=
  let window := (List.range 8).map (fun i => rawVal ((raw.getD (n + i - 3) none)))
  dropStep c n { s with xs := ⟨Config.interpolate s.tau window, (raw.getD n none).isNone⟩ :: s.xs }

/-- Whether channel bit `j` lies in a dropout, widened by DD_PAD, as far as the detector knows. -/
def inDrop (c : Cfg) (s : St) (j : Nat) : Bool :=
  s.drops.any (fun d => decide (d.1 ≤ j + c.ddPad) && (match d.2 with
    | some e => decide (j ≤ e + c.ddPad)
    | none => true))

/-! ### Equaliser and canceller (R292, R294, R295) -/

/-- Element `i` of a history whose newest element has index `n`; `dflt` outside. -/
def at_ {α : Type} (dflt : α) (l : List α) (n i : Int) : α := if i < 0 ∨ n < i then dflt else l.getD (n - i).toNat dflt

/-- A kept tap cut to its format: 12 bits after `sh` bits. -/
def tap (sh : Nat) (v : Int) : Int := v / 2 ^ sh

/-- A kept tap within the limits of its format (R292). -/
def satTap (sh : Nat) (v : Int) : Int := max (-2048 * 2 ^ sh) (min (2047 * 2 ^ sh) v)

/-- y[i] from the timed samples up to channel bit `n`. -/
def equalise (s : St) (n i : Int) : Int :=
  (s.eq.zipIdx.map (fun (ck : Int × Nat) => tap 36 ck.1 * (at_ ⟨0, true⟩ s.xs n (i + 7 - ck.2)).v)).foldl (· + ·) 0

/-- The taps of a side in the tap list of R320: first, count, centre. -/
def sideTaps (wide : Bool) (j : Int) : Nat × Nat × Nat :=
  if j = -2 then (0, 5, 2)
  else if j = -1 then (if wide then (5, 9, 9) else (7, 5, 9))
  else if j = 1 then (if wide then (14, 9, 18) else (16, 5, 18))
  else (23, 5, 25)

/-- The sides in force: normal mode has the two nearest. -/
def sidesOf (c : Cfg) : List Int := c.sides.filter (fun j => c.wide || decide (j = -1 ∨ j = 1))

/-- The neighbour's sample that tap `k` of a side multiplies at channel bit `i`: its index. -/
def nbIndex (c : Cfg) (j i : Int) (k centre : Nat) : Int := i + (if j < 0 then c.dlo else c.dhi) + k - centre

/-- What one side contributes to the crosstalk at channel bit `i`; `nb` is the neighbour, its newest y at index `n`. A sample that is
flagged erased contributes nothing. -/
def crosstalk (c : Cfg) (s nb : St) (j n i : Int) : Int :=
  let (f, cnt, centre) := sideTaps c.wide j
  ((List.range cnt).map (fun q =>
    let k := f + q
    let x := nbIndex c j i k centre
    if (at_ ⟨0, true⟩ nb.xs (n + 7) x).erased then 0 else tap 56 (s.xt.getD k 0) * at_ 0 nb.ys n x)).foldl (· + ·) 0

/-! ### The soft detector (R298) -/

/-- The level of a bit, +1 or −1. -/
def lev (b : Bool) : Int := if b then 1 else -1

/-- Σ t_i a[n − i] for a new level and the three before it (`s`, newest in bit 0), in 1/16. -/
def expected (tgt : List Int) (s : Nat) (a : Bool) : Int :=
  tgt.getD 0 0 * lev a + tgt.getD 1 0 * lev (tbit s 0) + tgt.getD 2 0 * lev (tbit s 1) + tgt.getD 3 0 * lev (tbit s 2)

/-- The branch metric of a sample: none where it is flagged erased. -/
def branch (tgt : List Int) (z : Sample) (s : Nat) (a : Bool) : Int :=
  if z.erased then 0
  else
    let e := z.v - expected tgt s a * 2 ^ 27
    Int.neg (e * e)

/-- The state after a level. -/
def next (s : Nat) (a : Bool) : Nat := (2 * s + b2n a) % 8

/-- The better of the two predecessors of state `t`, from the metrics before. -/
def bestPred (tgt : List Int) (z : Sample) (met : List Int) (t : Nat) : Nat × Int :=
  let a := tbit t 0
  let m0 := met.getD (t / 2) 0 + branch tgt z (t / 2) a
  let m1 := met.getD (t / 2 + 4) 0 + branch tgt z (t / 2 + 4) a
  if m0 < m1 then (t / 2 + 4, m1) else (t / 2, m0)

/-- One step of the forward recursion. -/
def forward (tgt : List Int) (z : Sample) (met : List Int) : List Int := (List.range 8).map (fun t => (bestPred tgt z met t).2)

/-- One step with survivors, 17 levels deep. -/
def trellisStep (tgt : List Int) (z : Sample) (s : St) : St :=
  let ps := (List.range 8).map (fun t => bestPred tgt z s.met t)
  { s with
    met := ps.map Prod.snd
    paths := ps.zipIdx.map (fun p => (tbit p.2 0 :: s.paths.getD p.1.1 []).take 17) }

/-- The level 16 channel bits behind on the best survivor. -/
def tentative (s : St) : Bool :=
  let best := (List.range 8).foldl (fun b t => if s.met.getD b 0 < s.met.getD t 0 then t else b) 0
  (s.paths.getD best []).getD 16 false

/-- Backward metrics over a window. -/
def backward (tgt : List Int) : List Sample → List Int
  | [] => List.replicate 8 0
  | z :: t =>
    let b := backward tgt t
    (List.range 8).map (fun s =>
      max (branch tgt z s false + b.getD (next s false) 0) (branch tgt z s true + b.getD (next s true) 0))

/-- Largest of a list, and 0 of none. -/
def maxOf : List Int → Int
  | [] => 0
  | [a] => a
  | a :: t => max a (maxOf t)

/-- The LLR of a level from its metric difference: positive favours 0, within ±15. -/
def llrOf (delta : Int) : Int :=
  let m : Int := min 15 (Config.llrMag delta.natAbs)
  if delta = 0 then 0 else if 0 < delta then m else -m

/-- Level LLRs of the samples of a frame, with a window of 64 channel bits. -/
def levelLlrs (tgt : List Int) : List Sample → (met : List Int) → List Int
  | [], _ => []
  | z :: t, met =>
    let b := backward tgt (t.take 64)
    let best (a : Bool) : Int := maxOf ((List.range 8).map (fun s => met.getD s 0 + branch tgt z s a + b.getD (next s a) 0))
    llrOf (best false - best true) :: levelLlrs tgt t (forward tgt z met)

/-- Channel-bit LLRs from level LLRs, given the one before. -/
def bitLlrs : (prev : Int) → List Int → List Int
  | _, [] => []
  | p, l :: t => p.sign * l.sign * (min p.natAbs l.natAbs : Nat) :: bitLlrs l t

/-! ### One channel bit -/

/-- Channel bits by which z lags y: what the delays and taps of the sides need. -/
def zLag (cs : List Cfg) : Nat := ((cs.map (fun c => (max 0 (max c.dlo c.dhi)).toNat)).foldl max 0) + 4

/-- Whether an erasing hint covers channel bit `j`. -/
def hintErases (c : Cfg) (j : Nat) : Bool := c.hints.any (fun h => h.erase && decide (h.first ≤ j ∧ j ≤ h.last))

/-- Whether channel bit `j` or one within 8 of it is excluded from adaptation (R292). `n` is the newest channel bit timed. -/
def excluded (c : Cfg) (s : St) (n j : Nat) : Bool :=
  (List.range 17).any (fun i =>
    let k : Int := (j : Int) + i - 8
    if k < 0 then false else (at_ ⟨0, true⟩ s.xs n k).erased || inDrop c s k.toNat || hintErases c k.toNat)

/-- y of the newest channel bit that the taps can reach. -/
def eqStep (n : Nat) (s : St) : St := if n < 7 then s else { s with ys := equalise s n ((n : Int) - 7) :: s.ys }

/-- z of the channel bit `lag` behind y, and the trellis after it; `all` are the channels, this one the `b`-th. -/
def zStep (cs : List Cfg) (all : List St) (lag n b : Nat) (c : Cfg) (s : St) : St :=
  if n < 7 + lag then s
  else
    let i : Int := (n : Int) - 7 - lag
    let y := at_ 0 s.ys (n - 7) i
    let xt := ((sidesOf c).map (fun j => match all[((b : Int) + j).toNat]?, cs[((b : Int) + j).toNat]? with
      | some nb, some _ => crosstalk c s nb j (n - 7) i
      | _, _ => 0)).foldl (· + ·) 0
    let z := y * 2 ^ 11 - xt
    trellisStep c.tgt ⟨z, (at_ ⟨0, true⟩ s.xs n i).erased⟩ { s with zs := z :: s.zs }

/-- Whether a tap adapts at channel bit `j`: mode 2 always, mode 1 in the preamble (R292, R296). -/
def adapts (mode j : Nat) : Bool := decide (mode = 2 ∨ (mode = 1 ∧ j < 320))

/-- Tap updates and the timing loop at the channel bit 16 behind z (R290, R292, R296). -/
def adaptStep (cs : List Cfg) (all : List St) (lag n b : Nat) (c : Cfg) (s : St) : St :=
  if n < 7 + lag + 16 then s
  else
    let j := n - 7 - lag - 16
    let as := tentative s :: s.as
    let d (i : Nat) : Int := -- Σ t_k a[j − i − k], in 1/16
      ((List.range 4).map (fun k => c.tgt.getD k 0 * lev (as.getD (i + k) false))).foldl (· + ·) 0
    let y (i : Nat) : Int := at_ 0 s.ys (n - 7) ((j : Int) - i)
    let e := y 0 - d 0 * 2 ^ 16
    let ez := at_ 0 s.zs (n - 7 - lag) j - d 0 * 2 ^ 27
    let phi := if j = 0 then 0 else Config.phaseOf (y 0 * d 1 - y 1 * d 0)
    let acq := decide (j < 368)
    let integ := s.integ + phi / 2 ^ (if acq then c.kiAcq else c.ki)
    let out := excluded c s n j
    let eq := if adapts c.eqAdapt j && !out then
        s.eq.zipIdx.map (fun (ck : Int × Nat) => satTap 36 (ck.1 + e * (at_ ⟨0, true⟩ s.xs n ((j : Int) + 7 - ck.2)).v * 2 ^ (16 - c.muEq)))
      else s.eq
    let xt := if adapts c.xtAdapt j && !out then
        (sidesOf c).foldl (fun (h : List Int) sd => match all[((b : Int) + sd).toNat]?, cs[((b : Int) + sd).toNat]? with
          | some nb, some cn =>
            if excluded cn nb n j then h
            else
              let (f, cnt, centre) := sideTaps c.wide sd
              (List.range cnt).foldl (fun h q =>
                let k := f + q
                h.set k (satTap 56 (h.getD k 0 + ez * at_ 0 nb.ys (n - 7) (nbIndex c sd j k centre) * 2 ^ (16 - c.muXt)))) h
          | _, _ => h) s.xt
      else s.xt
    { s with
      as := as, es := e :: s.es, phis := phi :: s.phis, integ := integ
      tau := s.tau + phi / 2 ^ (if acq then c.kpAcq else c.kp) + integ, eq := eq, xt := xt }

/-- One channel bit of all channels. -/
def stepAll (cs : List Cfg) (raws : List (List (Option (BitVec 6)))) (lag n : Nat) (ss : List St) : List St :=
  let each (f : Nat → Cfg → St → St) (l : List St) : List St := (l.zip cs).zipIdx.map (fun x => f x.2 x.1.2 x.1.1)
  let s1 := each (fun b c s => eqStep n (timeStep c (raws.getD b []) n s)) ss
  let s2 := each (fun b c s => zStep cs s1 lag n b c s) s1
  each (fun b c s => adaptStep cs s2 lag n b c s) s2

/-- Runs `k` channel bits from bit `n` on. -/
def runAll (cs : List Cfg) (raws : List (List (Option (BitVec 6)))) (lag : Nat) : (k : Nat) → (n : Nat) → List St → List St
  | 0, _, ss => ss
  | k + 1, n, ss => runAll cs raws lag k (n + 1) (stepAll cs raws lag n ss)

/-! ### What the channel makes of its frame -/

/-- The channel's results: whether timing was locked at the end of the preamble and lost later, the place of the sync mark, whether it
was missed, the header copy, the payload LLRs (`none`: erased), which of them fragments, retirement or the dropout detector erased, and
what the counters take. -/
structure Res where
  locked : Bool
  lockLost : Bool
  sync : Option Nat             -- channel bit at which the sync mark was found, or taken to be
  found : Bool                  -- a position qualified
  header : Option (List Byte)   -- a header copy whose HCRC passes
  pay : List (Option Int)
  hard : List Bool
  e2 : List Nat                 -- e² by channel bit, 2^-40 of full scale squared
  mse : Nat                     -- readback error, 1/256 of full scale squared (R293)
  erased : Nat                  -- samples flagged by the link and the dropout detector (R320)
  sErase : Nat                  -- words erased (R300)
  marks : Bool                  -- some of the frame lies outside dropouts (R301)
  clean : Option Nat            -- mean envelope of a frame without a dropout (R297)
  eq : List Int
  xt : List Int
deriving DecidableEq, Repr

/-- Timing is locked at the end of the preamble: rms over its last 128 samples below LOCK_LVL ÷ 256 (R290). -/
def lockedAt (c : Cfg) (phis : List Int) : Bool :=
  let l := (phis.drop 192).take 128
  decide (128 ≤ l.length) && decide (((l.map (fun p => p * p)).foldl (· + ·) 0) < 128 * (c.lockLvl * 256 : Int) ^ 2)

/-- The first channel bit after the preamble at which the rms over the last 256 samples exceeds twice LOCK_LVL (R290). -/
def lossAt (c : Cfg) (phis : List Int) : Option Nat :=
  (List.range (phis.length - 320)).findSome? (fun k =>
    let n := 320 + k
    let l := (phis.drop (n - 255)).take 256
    if 256 * (2 * c.lockLvl * 256 : Int) ^ 2 < ((l.map (fun p => p * p)).foldl (· + ·) 0) then some n else none)

/-- Mismatches of the sync mark at channel bit `pos`, by hard decisions on the levels (R254, R291). -/
def mismatches (levels : List Int) (pos : Nat) : Nat :=
  (Codec.syncMark.zipIdx.filter (fun b => decide (levels.getD (pos + b.2) 0 < 0) != b.1)).length

/-- The sync search (R291): fewest mismatches first, then the position nearest to the expected one, the earlier of two. -/
def syncSearch (c : Cfg) (levels : List Int) : Option Nat :=
  let cands := (List.range (c.syncWin + 1)).flatMap (fun d => if d = 0 then [320] else if d ≤ 320 then [320 - d, 320 + d] else [320 + d])
  (cands.foldl (fun acc p =>
    let k := mismatches levels p
    if c.syncErr < k then acc
    else match acc with
      | some (_, k0) => if k < k0 then some (p, k) else acc
      | none => some (p, k)) (none : Option (Nat × Nat))).map Prod.fst

/-- Cuts a list into `n` pieces of `k`. -/
def cut {α : Type} (k : Nat) : (n : Nat) → List α → List (List α)
  | 0, _ => []
  | n + 1, l => l.take k :: cut k n (l.drop k)

/-- Candidate `s` of a word of 132, most significant bit first, from hard decisions. -/
def candidateOf (w : List (Option Int)) : Nat := (w.take 4).foldl (fun a l => 2 * a + b2n (decide (l.getD 0 < 0))) 0

/-- Removes G_s from the LLRs of a word of 132 channel bits (R300); the word is erased where one of the first four bits is in doubt. -/
def descramble (sMin : Nat) (w : List (Option Int)) : List (Option Int) × Bool :=
  let weak := (w.take 4).any (fun l => match l with
    | some v => decide (v.natAbs < sMin)
    | none => true)
  if weak then (List.replicate 128 none, true)
  else
    let g := Codec.prbs 128 (Codec.seed (candidateOf w))
    (List.zipWith (fun l b => l.map (fun v => if b then -v else v)) (w.drop 4) g, false)

/-- Bytes of bits, bit 0 first. -/
def bytesOf : (n : Nat) → List Bool → List Byte
  | 0, _ => []
  | n + 1, l => BitVec.ofNat 8 ((l.take 8).foldr (fun b a => b2n b + 2 * a) 0) :: bytesOf n (l.drop 8)

/-- The header copy of 528 channel bits, by hard decisions, if its HCRC passes (R258, R291). -/
def headerCopy (l : List Int) : Option (List Byte) :=
  let hard (w : List Int) : List Bool :=
    let s := (w.take 4).foldl (fun a v => 2 * a + b2n (decide (v < 0))) 0
    List.zipWith xor ((w.drop 4).map (fun v => decide (v < 0))) (Codec.prbs 128 (Codec.seed s))
  let b := bytesOf 64 ((cut 132 4 l).flatMap hard)
  if byteField b 60 4 = Codec.crc32c (b.take 60) then some b else none

/-- What the channel delivers of a frame of `len` channel bits (R291, R297–R300). -/
def finish (c : Cfg) (len : Nat) (s : St) : Res :=
  let xs := s.xs.reverse.take len
  let phis := s.phis.reverse
  let locked := lockedAt c phis
  let loss := lossAt c phis
  let dd (j : Nat) : Bool := inDrop c s j
  let untimed (j : Nat) : Bool := !locked || (match loss with
    | some n => decide (n ≤ j)
    | none => false)
  let flagged := xs.zipIdx.map (fun x => x.1.erased || dd x.2)
  let zs := (List.zipWith (fun z f => (⟨z, f⟩ : Sample)) (s.zs.reverse.take len) flagged).zipIdx.map
    (fun z => { z.1 with erased := z.1.erased || untimed z.2 })
  let levels := levelLlrs c.tgt zs (List.replicate 8 0)
  let llrs := bitLlrs 0 levels
  let sync := syncSearch c levels
  let place := sync.orElse (fun _ => if locked then some 320 else none)
  let inFrag (j : Nat) : Bool := c.frags.any (fun f => decide (f.1 ≤ j ∧ j ≤ f.2))
  let erase (j : Nat) : Bool := flagged.getD j true || untimed j || inFrag j || c.retired || hintErases c j || place.isNone
  let soft := llrs.zipIdx.map (fun l =>
    if erase l.2 then none
    else if c.hints.any (fun h => !h.erase && decide (h.first ≤ l.2 ∧ l.2 ≤ h.last)) then some (Int.tdiv (l.1 * c.scale) 8) else some l.1)
  let words := (len - 992) / 132
  let p0 := place.getD 320 + 576
  let pay := (cut 132 words (soft.drop p0)).map (descramble c.sMin)
  let e2 := (s.es.reverse.take len).map (fun e => (e * e).toNat)
  let used := (e2.zip flagged).zipIdx.filter (fun x => decide (p0 ≤ x.2 ∧ x.2 < p0 + 132 * words) && !x.1.2)
  { locked := locked
    lockLost := locked && loss.isSome
    sync := place
    found := sync.isSome
    header := if c.retired then none else (headerCopy ((llrs.drop (place.getD 320 + 48)).take 528)).filter (fun _ => place.isSome && locked)
    pay := pay.flatMap Prod.fst
    hard := (List.range words).flatMap (fun w => (List.range 128).map (fun q =>
      let j := p0 + 132 * w + 4 + q
      inFrag j || c.retired || dd j))
    e2 := e2
    mse := if used = [] then 0 else (used.map (fun x => x.1.1)).foldl (· + ·) 0 * 256 / used.length / 2 ^ 40
    erased := (flagged.filter id).length
    sErase := (pay.filter Prod.snd).length
    marks := flagged.zipIdx.any (fun x => !dd x.2)
    clean := if s.drops = [] then some ((xs.map (fun x => x.v.natAbs)).foldl (· + ·) 0 / max 1 xs.length) else none
    eq := s.eq
    xt := s.xt }

/-- All channels over a frame of `len` channel bits. -/
def run (cs : List Cfg) (raws : List (List (Option (BitVec 6)))) (len : Nat) : List Res :=
  let lag := zLag cs
  let ss := runAll cs raws lag (len + 7 + lag + 16) 0 (cs.map St.init)
  List.zipWith (fun c s => finish c len s) cs ss

/-! ### The block (R264, R301) -/

/-- Takes the first element of list `i`. -/
def takeFrom {α : Type} : (i : Nat) → List (List α) → Option α × List (List α)
  | _, [] => (none, [])
  | 0, l :: t => (l.head?, l.tail :: t)
  | i + 1, l :: t => ((takeFrom i t).1, l :: (takeFrom i t).2)

/-- Puts an element in front of list `i`. -/
def pushTo {α : Type} : (i : Nat) → α → List (List α) → List (List α)
  | _, _, [] => []
  | 0, a, l :: t => (a :: l) :: t
  | i + 1, a, l :: t => l :: pushTo i a t

/-- Deals rounds `j`, `j + 1`, … back from the payloads of `n` beams: codeword `c` of round `j` comes from beam (17 j + c) mod n. The
codewords grow last bit first. -/
def dealBack {α : Type} (n : Nat) : (rounds : Nat) → (j : Nat) → List (List α) → List (List (Option α)) → List (List (Option α))
  | 0, _, _, cws => cws
  | r + 1, j, pays, cws =>
    let x := (List.range 16).foldl (fun (x : List (List α) × List (List (Option α))) c =>
      let t := takeFrom ((17 * j + c) % n) x.1
      (t.2, pushTo c t.1 x.2)) (pays, cws)
    dealBack n r (j + 1) x.1 x.2

/-- The 16 codewords of the payloads of the beams in use, in their order; a position that no payload holds is `none`. -/
def codewords {α : Type} (p : Nat) (pays : List (List α)) : List (List (Option α)) :=
  (dealBack (max 1 pays.length) (Codec.cwBits p) 0 pays (List.replicate 16 [])).map List.reverse

end Rch
end Sys2Proof.Machine
end

