-- ==== Sys2Proof/Machine/MediaTypes.lean ====
section
/-! DEFINITION. State of the media path: the format sequencer (R445–R466), the write channel (R254–R286), parity groups and
Gander (R274–R283), the decoder pool and Goat (R302–R316), and the defect remap table (R317–R323). -/
namespace Sys2Proof.Machine

/-! ### Format sequencer -/

/-- One control-store bank (R445, R460): the micro-words as loaded, with their ECC field 0, and the image they come from. -/
structure Bank where
  words : List (BitVec 128)
  version : Nat
  rollback : Nat
  mechMask : Nat
  patches : Nat
  patchWords : Nat
  loaded : Bool
deriving DecidableEq, Repr

/-- A buffered request of the commit buffer (R454, R457): the request code and its argument. -/
structure FsqReq where
  req : Nat
  arg : Nat
deriving DecidableEq, Repr

/-- A work item (R454, R455): the entry that serves it, its PBA, physical slot, slot length and block handle. -/
structure WorkItem where
  entry : Nat
  pba : Nat
  slot : Nat
  len : Nat
  blk : Nat
deriving DecidableEq, Repr

/-- What a commit point saves (R456). -/
structure Snapshot where
  wk : List Nat
  ct : List Nat
  zero : Bool
  neg : Bool
  carry : Bool
  stack : List Nat
  point : Nat
deriving DecidableEq, Repr

/-- An armed gate position (R453): opening for write or for read, or closing. -/
structure Armed where
  pos : Nat
  write : Bool
deriving DecidableEq, Repr

/-- The format sequencer of one mechanism beside its registers. WK0 to WK15 stand in FSQ_WKk. -/
structure FsqX where
  banks : Vector Bank 2
  ct : List Nat                      -- CT0 to CT3
  zero : Bool
  neg : Bool
  carry : Bool
  stack : List Nat                   -- return addresses, innermost first
  commit : List FsqReq               -- commit buffer, oldest first
  snap : Snapshot
  armedOpen : Vector (Option Armed) 16
  armedClose : Vector (Option Nat) 16
  rev : Bool                         -- condition REV
  addrOk : Bool                      -- condition ADDR_OK
  addr : Option (Nat × Nat × Nat)    -- last decoded address: swath, layer, groove start
  sync : Bool                        -- condition SYNC
  gateLate : Bool
  restarted : Bool
  abandoned : Bool                   -- a routine waits to be restarted
  failRuns : Nat                     -- consecutive restarts with no commit point reached
  items : List WorkItem              -- queued work, in the order queued
  userPending : List Nat             -- user entries made pending by USER_GO
  addrCheck : Bool                   -- entry 4 is pending
  revIdle : Bool                     -- entry 0 is pending
  zonePending : Bool                 -- entry 3 is pending
  rate : Option Nat                  -- N for the next revolution mark
  readBlk : Option Nat               -- PBA expected by RCH_FRAME
  ganderPba : Option Nat             -- PBA named by GANDER_BLOCK
  ganderDone : Bool
  ganderClass : Nat
  decLeft : Nat                      -- codewords of the last block read whose outcome is not known
  decFailed : Nat                    -- failed-codeword mask of the last block read
  decIdx : Nat                       -- next codeword of the last block read
  nextSwathMask : Bool               -- the mask in use changed: slots of the present swath are handed back
deriving DecidableEq, Repr

/-! ### Write channel -/

/-- The write channel beside its registers: the block of the last WCH_LOAD, whether its symbols are ready, and the write
symbols of each beam (R266). -/
structure WchX where
  load : Option Nat
  ready : Bool
  symbols : List (Nat × List (BitVec 2))
  contrib : List (Nat × List (List Byte))   -- by block handle, what a data block loaded and not yet reported adds to its group's parity
deriving DecidableEq, Repr

/-! ### Gander -/

/-- A fragment of a Gander record (R280). -/
structure FragSpan where
  beam : Nat
  first : Nat
  last : Nat
deriving DecidableEq, Repr

/-- A Gander record (R280); class 0 GOOD, 1 MARGINAL, 2 FAILED. -/
structure GanderRec where
  disc : Nat
  pba : Nat
  cls : Nat
  load : Nat
  frags : List FragSpan
deriving DecidableEq, Repr

/-! ### Read channels and the decoder pool -/

/-- Samples placed of one beam: the CBC of the first (R231, R233). -/
structure RawChunk where
  pos : Nat
  samples : List (BitVec 6)
deriving DecidableEq, Repr

/-- The taps that one parameter set of a channel has adapted to, as kept (R289, R292, R296); none before the first frame. -/
structure Taps where
  eq : List Int
  xt : List Int
deriving DecidableEq, Repr

/-- A frame that the read channels take: whether it is the verify readback of a written block, the PBA, the block's beams, the channel
bit from the mark at which it starts and the CBC of each beam at that mark, its length once its gates have closed, the settings in
force at its start, and the servo hints of its revolution. -/
structure RchFrame where
  write : Bool
  pba : Nat
  mask : Nat
  start : Nat
  marks : List (Option Nat)
  len : Option Nat
  cfgs : List Rch.Cfg
  hints : List Hint
deriving DecidableEq, Repr

/-- Why a block failed before decoding (R301), or that its codewords went to the decoder pool. -/
inductive ReadFate where
  | coded | noHdr | addr | blank
deriving DecidableEq, Repr

/-- A block that the read channels have delivered: the PBA read, its code strength and beams, per beam the payload LLRs, the readback
error, e² by channel bit, the place of the payload and the servo hints; the frame and its raw samples; per codeword the positions that
fragments, retired beams and dropouts erased and those that hints touched; what the decoder has found. -/
structure ReadBlk where
  pba : Nat
  fate : ReadFate
  p : Nat
  mask : Nat
  pays : List (List (Option Int))
  mses : List Nat
  e2 : List (List Nat)
  places : List Nat
  hints : List (List (Nat × Nat))
  frame : Option RchFrame
  raws : List (List (Option (BitVec 6)))
  hard : List Nat
  hinted : List Nat
  left : Nat
  good : Nat
  data : List (Nat × List Byte)
  tries : Nat
deriving DecidableEq, Repr

/-- A codeword in the decoder pool (R302, R304). -/
structure CwJob where
  pba : Nat
  cw : Nat
  p : Nat
  llr : List (Option Int)
  stopped : Bool                -- it ends BACKLOG
deriving DecidableEq, Repr

/-- What the verify readback of a block shows (R278): whether a sync mark and a good header copy were found, and per codeword the
unsatisfied checks and all checks among those that touch no erased bit. -/
structure VerifyRec where
  pba : Nat
  found : Bool
  w : List (Nat × Nat)
deriving DecidableEq, Repr

/-- The read channels of a head and the decoder pool beside their registers. -/
structure RchX where
  raw : Vector (List RawChunk) 16       -- samples placed of each beam, newest first
  taps : Vector (Vector Taps 2) 16      -- READ and VERIFY sets of each beam
  envs : Vector (List Nat) 16           -- mean envelopes of the last 64 frames without a dropout (R297)
  mses : Vector (List Nat) 16           -- readback errors of the last 64 frames (R320)
  frames : List RchFrame                -- frames in progress or whose samples have not all come, oldest first
  jobs : List CwJob                     -- codewords queued or decoding, oldest first; the first four are in the cores
  reads : List ReadBlk                  -- blocks read and not yet handed on, newest first
  verify : List VerifyRec               -- verify readbacks that Gander has not classified
deriving DecidableEq, Repr

/-! ### Goat and the defect remap table -/

/-- A recovery context (R306, R307), with the converged codewords and the stored reads; the best of them holds its raw samples. -/
structure GoatCtx where
  pba : Nat                 -- PBA asked for
  media : Nat               -- PBA read after the remap
  rung : Nat                -- rung in progress or the last one
  reads : Nat               -- reads of this rung done
  stored : List ReadBlk     -- LLR reads stored, at most 4
  third : Option ReadBlk    -- the first read of rung 3
  soft : List (List (Option Int))   -- payload LLRs of rung 5, by beam
  data : List (Nat × List Byte)     -- converged codewords
  converged : Nat           -- mask of converged codewords
  opened : Nat              -- device time
  hurry : Bool              -- GOAT_TMO has elapsed (R310)
  skipped : Bool            -- R308 applied
  ran7 : Bool
  failedAt7 : Nat           -- codewords failed when rung 7 first ran
  maxErased : Nat
  firstFail : Nat           -- device time of the first failure (R315)
  weak : Nat                -- the weak beams of rung 3
  ended : Bool              -- the ladder is exhausted
deriving DecidableEq, Repr

/-- Why a refresh is queued: the block recovered, its PBA and the rung (R314). -/
structure Refresh where
  pba : Nat
  blk : Nat
  rung : Nat
  copies : Nat
deriving DecidableEq, Repr

/-- A DRT entry (R317). -/
structure DrtEntry where
  src : Nat
  dst : Nat
  kind : Nat
  persisted : Bool
  marginal : Bool
  copies : Nat
  rung : Nat
deriving DecidableEq, Repr

/-- Decoder pool, Goat, refresh queue and DRT slice of a mechanism beside their registers. -/
structure GoatX where
  ctxs : List GoatCtx
  waiting : List (Nat × Nat × Nat)    -- blocks waiting for a context, in order of failure: PBA, codewords converged, device time
  offs : List (LoopId × Int)          -- set-point offsets of rungs 2 and 3 in force (R309)
  refreshes : List Refresh
  drt : List DrtEntry                 -- used entries, entry i at position i
deriving DecidableEq, Repr

def Bank.reset : Bank := ⟨[], 0, 0, 0, 0, 0, false⟩

def Snapshot.reset : Snapshot := ⟨List.replicate 16 0, List.replicate 4 0, false, false, false, [], 0⟩

def FsqX.reset : FsqX where
  banks := Vector.replicate 2 Bank.reset
  ct := List.replicate 4 0
  zero := false
  neg := false
  carry := false
  stack := []
  commit := []
  snap := Snapshot.reset
  armedOpen := Vector.replicate 16 none
  armedClose := Vector.replicate 16 none
  rev := false
  addrOk := false
  addr := none
  sync := false
  gateLate := false
  restarted := false
  abandoned := false
  failRuns := 0
  items := []
  userPending := []
  addrCheck := false
  revIdle := false
  zonePending := false
  rate := none
  readBlk := none
  ganderPba := none
  ganderDone := false
  ganderClass := 0
  decLeft := 0
  decFailed := 0
  decIdx := 0
  nextSwathMask := false

def WchX.reset : WchX := ⟨none, false, [], []⟩

def RchX.reset : RchX :=
  ⟨Vector.replicate 16 [], Vector.replicate 16 (Vector.replicate 2 ⟨[], []⟩), Vector.replicate 16 [], Vector.replicate 16 [], [], [], [], []⟩

def GoatX.reset : GoatX := ⟨[], [], [], [], []⟩

end Sys2Proof.Machine
end

