-- ==== Sys2Proof/Machine/PowerTypes.lean ====
section
/-! DEFINITION. State outside the register tables: Ox and power (R53–R85), the violation log (R77), the error log (R377), the
partitions (R20–R25, R71–R75) and what the device sends out. -/
namespace Sys2Proof.Machine

/-- Where power-up stands (R66): the last step reached. -/
inductive PowerStep where
  | off          -- VAON not within tolerance
  | mainEn       -- steps 1 to 3: trimmed, OX_MAIN_EN high, waiting for OX_MAIN_PG
  | mainPg       -- step 4: whole-device reset done, crystal checked, PLL locking
  | pll          -- step 4 done: device time runs
  | boot         -- step 5: boot firmware verified
  | fw           -- step 6: service firmware, microcode, patches, slot A read
  | cal          -- step 7: calibration done
  | image        -- step 8: the loader has run
  | up           -- step 9: NORMAL
  | oxOnly       -- the Ox-only state (R81)
deriving DecidableEq, Repr

/-- One entry of the violation log (R77). -/
structure VEntry where
  time : Nat
  seq : Nat
  source : Nat
  answer : Nat
  code : Nat
  count : Nat
  detail : List Byte
deriving DecidableEq, Repr

/-- The violation log: newest entry first, at most 256, and the sequence number the next entry carries (R76–R78). -/
structure VLog where
  entries : List VEntry
  next : Nat
deriving DecidableEq, Repr

/-- One entry of the error log (R377); `detail` holds bytes 16–63. -/
structure EEntry where
  time : Nat
  seq : Nat
  source : Nat
  kind : Nat
  code : Nat
  detail : List Byte
deriving DecidableEq, Repr

/-- The error log: newest entry first, at most 256, and the next sequence number (R377). -/
structure ELog where
  entries : List EEntry
  next : Nat
deriving DecidableEq, Repr

/-- How the spindle gates of a mechanism are driven. -/
inductive SpnDrive where
  | off        -- all gates off
  | lowSides   -- all low sides on, high sides off: active short
  | driven     -- by the spindle drive of the mechanism
deriving DecidableEq, Repr

/-- The output pins of one mechanism (R66, R82, R83, R86, R96). -/
structure MechPins where
  lden : Bool       -- HLKm_LDEN
  xpermit : Bool    -- MOTm_XPERMIT
  psen : Bool       -- power-stage enable
  gates : SpnDrive  -- spindle gates
  sled : Bool       -- sled bridge outputs on
  chop : Bool       -- brake chopper output on
deriving DecidableEq, Repr

/-- The gates of the device's single clock domains that the system PLL feeds (R55): true where the clock runs. -/
structure CoreClk where
  core : Bool
  service : Bool
  security : Bool
  calib : Bool
deriving DecidableEq, Repr

/-- Ox: what it holds beside the OXA registers. -/
structure Ox where
  step : PowerStep
  tox : Nat              -- T_OX, ns, modulo 2^64
  acc : Nat              -- time since the last 32.768 kHz tick, in 1/64 ns; while the PLL is stopped, the fraction carried
  devTime : Nat          -- device time, ns, modulo 2^64
  pllOn : Bool
  pllWait : Bool         -- the PLL has locked and device time waits for the next tick edge (R56)
  mainEn : Bool          -- pin OX_MAIN_EN
  mainPg : Bool          -- pin OX_MAIN_PG
  trims : Vector (BitVec 10) 80      -- comparator trim codes in force: five comparators per mechanism
  trimNext : Vector (Option (BitVec 10)) 80   -- codes that take effect at the next frame (R61)
  warnArmed : Bool       -- the temperature warning may fire (R62)
  throttle : Nat         -- throttle step n, 0–10 (R62)
  recoverRefused : Bool  -- RECOVER_REFUSED (R85)
  below2V : Vector Bool 16   -- bus 2 V below the regeneration-stop threshold, as last sampled (R83)
  motionQuiet : Vector Nat 16 -- T_OX at which each motion comparator last showed rotation
  discEdge : Vector Nat 16   -- T_OX of the last change of each disc-present input
  smbReply : Option (List Byte)  -- data returned by the last SMBus read
  imgState : Nat         -- GCTL_IMG_STAT.STATE as last known (R63)
  tempOfs : Vector Int 8        -- offset of each temperature sensor in force, 1/16 °C (R69)
  tempNext : Vector (Option Int) 8   -- offset that takes effect at the sensor's next conversion (R69)
  thresholds : Vector (List Nat) 16  -- comparator thresholds of each mechanism, 10 mV: regeneration stop, active short, gates off, undervoltage (R83, R170)
  clk : CoreClk
  limEdges : Vector (List Nat × List Nat) 16   -- T_OX of the last changes of each raw limit switch, newest first: inner, outer (R216, R218)
deriving DecidableEq, Repr

/-- Why a partition is held in reset, beside an ordinary reset. -/
inductive ResetCause where
  | ordinary | escalation | perst | flr | activation | reload
deriving DecidableEq, Repr

/-- One partition's reset state beside its registers (R71–R75). -/
structure PartX where
  waiting : Option ResetCause   -- a GO waiting out the 10 µs window of R73
  orderly : Bool                -- an orderly reset is in step 0 of R71
  lastEnd : Option Nat          -- device time at which the previous reset ended
  cause : ResetCause            -- of the reset in progress or the last one
deriving DecidableEq, Repr

/-- What the device writes to its SPI NOR flash, which start-up reads back as data from outside (R43, R463, R471, R474). -/
inductive FlashItem where
  | image (bytes : List Byte)                       -- slot A, after its former content is copied to slot B (R385)
  | ucode (version : Nat)                           -- the microcode image of this version (R463)
  | boot (slot : Nat) (img : SignedImage)           -- boot firmware, and the directory that prefers it (R471)
  | ownerKey (slot : Nat) (key : List Byte)         -- key record (R475)
deriving DecidableEq, Repr

/-- What the device sends out, newest first. -/
inductive Out where
  | hostWrite (p : Port) (addr : Nat) (data : List Byte)
  | msix (p : Port) (vector : Nat)
  | regRead (p : Port) (off : Nat) (v : Nat)
  | ur (p : Port)                                   -- unsupported request
  | cfgReply (p : Port) (v : Option Nat)            -- none: Configuration Request Retry Status
  | bar2Read (data : List Byte)
  | smbNack
  | link (m : Mech) (levels : List (BitVec 2))      -- a downstream block of the Head Link (R226)
  | jtag (i : JtagInstr) (idcode : Option Nat)
  | flash (x : FlashItem)
  | partReply (n : Part) (reset : Bool)             -- what a request into a partition meets: accepted, or PARTITION_RESET (R72)
deriving DecidableEq, Repr

/-- One host port beside its registers (R67, R350–R353). -/
structure PortX where
  perst : Bool       -- PERST_N asserted
  linkUp : Bool      -- link trained
  crs : Bool         -- answers configuration requests with retry status (R67)
  d3 : Bool          -- in D3hot
  linkPm : LinkPm
  cfg : List (Nat × Nat)    -- configuration-space words written by the host
  msixTab : List (Nat × Nat)  -- MSI-X table words, by offset within the table
  msixPend : Nat     -- pending bits
  taps : Nat         -- receiver and transmitter taps of the link in force (R69)
deriving DecidableEq, Repr

end Sys2Proof.Machine
end

