-- ==== Sys2Proof/Machine/QueueTypes.lean ====
section
/-! DEFINITION. State of the command queues (R350–R389). -/
namespace Sys2Proof.Machine

/-- Where the command of a slot stands (R363–R368). -/
inductive SlotPhase where
  | fetched       -- checked; its effect has not begun
  | lockWait      -- waits for its range lock
  | admitWait     -- waits for admission (R343, R344)
  | running       -- in progress
  | finished      -- status known, waits to be posted
deriving DecidableEq, Repr

/-- The Service Outcome (R366, R343). -/
inductive SvcOutcome where
  | served | delayed | refused
deriving DecidableEq, Repr

/-- The class of a write (R341). -/
inductive WrClass where
  | reserved | excess | unreserved
deriving DecidableEq, Repr

/-- A run of bytes that a command reads from one block on media: the mechanism, the PBA asked for, the first byte within the block,
how many bytes and where they go in the host data; then whether it is done and which sectors of it (as sectors of the block) were
not recovered. -/
structure Want where
  mech : Nat
  pba : Nat
  first : Nat
  count : Nat
  dest : Nat
  done : Bool
  unrec : Nat
deriving DecidableEq, Repr

/-- The weighted round robin of a port (R358): the class whose turns run and how many it has left, the pair served last of each
class, the pair whose turn runs and the entries left to it. -/
structure ArbX where
  cls : Nat
  turns : Nat
  last : List Nat
  cur : Option Nat
  burst : Nat
deriving DecidableEq, Repr

/-- A command slot. -/
structure Slot where
  port : Port
  pair : Nat
  cid : Nat
  index : Nat            -- index of its entry in the SQ
  order : Nat            -- order of submission
  entry : List Byte
  dlist : List Byte
  phase : SlotPhase
  locks : Bool           -- takes the lock key of its command (R364, R368)
  cls : WrClass
  grantedAt : Nat        -- device time of the range-lock grant
  status : Nat
  outcome : SvcOutcome
  reason : Nat           -- REASON of a refusal (R366)
  delay : Nat            -- µs of service delay counted so far, or from fetch to refusal
  result : Nat
  arrived : Nat          -- device time of the fetch
  wants : List Want      -- media reads still outstanding or done
  covers : List Nat      -- blocks that a Flush or Verify waits for; those that a Write or Object Put staged into
  earlier : List Nat     -- slots of the earlier commands that a Flush or Stream Close waits for
  held : Option Nat      -- device time since which its service is held (R49, R79, R380)
  reissues : Nat         -- re-issues after PARTITION_RESET (R366)
  restarted : Bool       -- its transfer was restarted once after a reset of the DMA engine (R429)
  orphan : Bool          -- its port was reset (R386)
  lostXfer : Bool        -- its transfer through the lost port was incomplete or is still to come (R386)
  target : Option Nat    -- an Abort's target slot
  lost : Nat             -- lost sectors that a Flush covers (R329)
  moved : Bool           -- data has moved to the host
deriving DecidableEq, Repr

end Sys2Proof.Machine
end

