-- ==== Sys2Proof/Machine/Regs.lean ====
section
/-! DEFINITION. The registers of BAR0 (R5–R10, R483–R488): one constant per field of every register table of the spec,
with its BAR0 offset, lowest bit, width, reset value and access code, and the same fields as a table that an access
searches. A field that the image sets reads 0 until an image is loaded (R10). -/
namespace Sys2Proof.Machine

/-- The access codes of R8. -/
inductive Access where
  | RO | RW | RW1C | W1S | WO | RC | RWL
deriving DecidableEq, Repr

/-- A register field: BAR0 byte offset of its register, lowest bit, width, reset value and access code. -/
structure Field where
  off : Nat
  lo : Nat
  width : Nat
  reset : Nat
  acc : Access
deriving DecidableEq, Repr

/-- The absolute bit address of a field's lowest bit: the key of the register store. -/
def Field.key (f : Field) : Nat := 8 * f.off + f.lo

/-- A field within a register of the table. -/
structure FieldSpec where
  lo : Nat
  width : Nat
  reset : Nat
  acc : Access
deriving DecidableEq, Repr

/-- A register, or an array of registers with (count, stride) per index. -/
structure RegSpec where
  base : Nat
  dims : List (Nat × Nat)
  fields : List FieldSpec
deriving DecidableEq, Repr

/-- The Vendor ID that ID_PART reads (R350, R488): the spec gives no number, so it is a free value. -/
def gornodomVendorId : Nat := Config.vendorId.toNat

/-- Reset value of DMA_CHn_CFG.OWNER (R415, R431). -/
def dmaOwnerReset (n : Nat) : Nat := if n ≤ 47 then 0 else if n ≤ 59 then 1 else 2

namespace Reg

/-- R42: 0b00 none loaded, 0b01 loaded, 0b10 last load refused, 0b11 checking -/
def GCTL_IMG_STAT_STATE : Field := ⟨0x10800, 0, 2, 0, .RO⟩
/-- R42: The last load attempt was partial -/
def GCTL_IMG_STAT_LAST_PARTIAL : Field := ⟨0x10800, 2, 1, 0, .RO⟩
/-- R42: The image in force had its owner signature verified -/
def GCTL_IMG_STAT_SIG_CHECKED : Field := ⟨0x10800, 3, 1, 0, .RO⟩
/-- R42: FLAGS.MECH of the last partial attempt -/
def GCTL_IMG_STAT_LAST_MECH : Field := ⟨0x10800, 4, 4, 0, .RO⟩
/-- R42: Last refusal code; 0x00 if the last attempt was admitted -/
def GCTL_IMG_STAT_CODE : Field := ⟨0x10800, 8, 8, 0, .RO⟩
/-- R42: Flash slot of the image in force at start: 0 is slot A, 1 is slot B -/
def GCTL_IMG_STAT_SLOT : Field := ⟨0x10800, 16, 1, 0, .RO⟩
/-- R42: Slot A was refused at start and slot B is in force -/
def GCTL_IMG_STAT_FALLBACK : Field := ⟨0x10800, 17, 1, 0, .RO⟩
/-- R42: Index of the reported record -/
def GCTL_IMG_FIRST_RECORD_INDEX : Field := ⟨0x10804, 0, 16, 0, .RO⟩
/-- R42: Type of the reported record -/
def GCTL_IMG_FIRST_RECORD_TYPE : Field := ⟨0x10804, 16, 16, 0, .RO⟩
/-- R42: Word offset of the reported record's header -/
def GCTL_IMG_OFFSET_WORD_OFFSET : Field := ⟨0x10808, 0, 32, 0, .RO⟩
/-- R42: As the detail table above -/
def GCTL_IMG_DETAIL0_DETAIL0 : Field := ⟨0x1080C, 0, 32, 0, .RO⟩
/-- R42: As the detail table above -/
def GCTL_IMG_DETAIL1_DETAIL1 : Field := ⟨0x10810, 0, 32, 0, .RO⟩
/-- R42: SERIAL of the image in force -/
def GCTL_IMG_SERIAL_SERIAL : Field := ⟨0x10814, 0, 32, 0, .RO⟩
/-- R42: B_EFF in force, in MB/s, after any channel retirement -/
def GCTL_IMG_BWEFF_BWEFF : Field := ⟨0x10818, 0, 32, 0, .RO⟩
/-- R42: D_PEAK in force, in MB/s -/
def GCTL_IMG_DRAIN_DPEAK : Field := ⟨0x1081C, 0, 32, 0, .RO⟩
/-- R42: Reservable bandwidth in force, in MB/s, as lowered under R39 -/
def GCTL_IMG_RESMAX_RESMAX : Field := ⟨0x10820, 0, 32, 0, .RO⟩
/-- R42: DIGEST of the image in force, low word at 0x0840. After a partial reload, DIGEST of the most recent partial image. -/
def GCTL_IMG_DIGEST_DIGEST (k : Fin 16) : Field := ⟨0x10840 + 0x4 * k.val, 0, 32, 0, .RO⟩
/-- R65: 0b00 normal, 0b01 Ox-only, 0b10 recovering -/
def OXA_STATE_MODE : Field := ⟨0x20000, 0, 2, 0, .RO⟩
/-- R65: 0b00 running, 0b01 IDLE, 0b10 DEEP_IDLE -/
def OXA_STATE_DEPTH : Field := ⟨0x20000, 2, 2, 0, .RO⟩
/-- R65: Cause of the most recent Ox-only entry, as in the Ox-only state table -/
def OXA_STATE_CAUSE : Field := ⟨0x20000, 4, 8, 0, .RO⟩
/-- R65: The 32.768 kHz crystal is valid -/
def OXA_STATE_XTAL_OK : Field := ⟨0x20000, 12, 1, 0, .RO⟩
/-- R65: Every comparator trim is complete -/
def OXA_STATE_TRIM_DONE : Field := ⟨0x20000, 13, 1, 0, .RO⟩
/-- R65: DEEP_IDLE permitted -/
def OXA_PCTL_DEEP_EN : Field := ⟨0x20004, 0, 1, 1, .RW⟩
/-- R65: Dwell before DEEP_IDLE, in ms -/
def OXA_PCTL_DWELL : Field := ⟨0x20004, 8, 8, 100, .RW⟩
/-- R65: Wake sources seen: [0] port A, [1] port B, [2] SMBus, [3] timer, [4] mechanism event, [5] temperature -/
def OXA_WAKE_SRC_SRC : Field := ⟨0x20008, 0, 6, 0, .RW1C⟩
/-- R65: Enable per wake source, bits as OXA_WAKE_SRC -/
def OXA_WAKE_EN_EN : Field := ⟨0x2000C, 0, 6, 63, .RW⟩
/-- R65: Device-time compare, low word; 0 in both words disables -/
def OXA_TIMER_LO_TIMER : Field := ⟨0x20010, 0, 32, 0, .RW⟩
/-- R65: High word -/
def OXA_TIMER_HI_TIMER : Field := ⟨0x20014, 0, 32, 0, .RW⟩
/-- R65: T_OX low word; latches the high word (R6) -/
def OXA_TOX_LO_TOX : Field := ⟨0x20018, 0, 32, 0, .RO⟩
/-- R65: T_OX high word -/
def OXA_TOX_HI_TOX : Field := ⟨0x2001C, 0, 32, 0, .RO⟩
/-- R65: °C junction -/
def OXA_TEMP_CFG_WARN : Field := ⟨0x20020, 0, 8, 130, .RW⟩
/-- R65: °C junction -/
def OXA_TEMP_CFG_THROTTLE : Field := ⟨0x20020, 8, 8, 135, .RW⟩
/-- R65: °C junction -/
def OXA_TEMP_CFG_TRIP : Field := ⟨0x20020, 16, 8, 145, .RO⟩
/-- R65: Junction temperature, signed, 1/16 °C -/
def OXA_TEMP_TEMP (k : Fin 8) : Field := ⟨0x20040 + 0x4 * k.val, 0, 16, 0, .RO⟩
/-- R65: The offset check at start failed; the sensor is excluded -/
def OXA_TEMP_BAD (k : Fin 8) : Field := ⟨0x20040 + 0x4 * k.val, 16, 1, 0, .RO⟩
/-- R65: Live comparator states: [0] regeneration stop, [1] active short, [2] gates off, [3] undervoltage -/
def OXA_MECH_BUS (m : Mech) : Field := ⟨0x20100 + 0x4 * m.val, 0, 4, 0, .RO⟩
/-- R65: The spindle-motion comparator shows rotation -/
def OXA_MECH_MOTION (m : Mech) : Field := ⟨0x20100 + 0x4 * m.val, 4, 1, 0, .RO⟩
/-- R65: [5] inner, [6] outer limit switch asserted -/
def OXA_MECH_LIMIT (m : Mech) : Field := ⟨0x20100 + 0x4 * m.val, 5, 2, 0, .RO⟩
/-- R65: The power-stage fault input is asserted -/
def OXA_MECH_PSTAGE_FAULT (m : Mech) : Field := ⟨0x20100 + 0x4 * m.val, 7, 1, 0, .RO⟩
/-- R65: The disc-present input is asserted -/
def OXA_MECH_DISC (m : Mech) : Field := ⟨0x20100 + 0x4 * m.val, 8, 1, 0, .RO⟩
/-- R65: This mechanism's comparator trims are complete -/
def OXA_MECH_TRIMMED (m : Mech) : Field := ⟨0x20100 + 0x4 * m.val, 9, 1, 0, .RO⟩
/-- R65: SMBus transactions discarded for PEC -/
def OXA_SMB_STAT_PEC_ERR : Field := ⟨0x20180, 0, 16, 0, .RC⟩
/-- R65: SMBus commands discarded for length or value -/
def OXA_SMB_STAT_BAD_CMD : Field := ⟨0x20180, 16, 16, 0, .RC⟩
/-- R76: Device time, low word; latches the high word (R6) -/
def GCTL_TIME_LO_TIME : Field := ⟨0x10000, 0, 32, 0, .RO⟩
/-- R76: Device time, high word -/
def GCTL_TIME_HI_TIME : Field := ⟨0x10004, 0, 32, 0, .RO⟩
/-- R76: Partition number, as R20 -/
def GCTL_PRST_CTL_PART : Field := ⟨0x10100, 0, 5, 0, .RW⟩
/-- R76: 0 orderly, 1 immediate -/
def GCTL_PRST_CTL_MODE : Field := ⟨0x10100, 5, 1, 0, .RW⟩
/-- R76: Starts the reset -/
def GCTL_PRST_CTL_GO : Field := ⟨0x10100, 31, 1, 0, .WO⟩
/-- R76: One bit per partition -/
def GCTL_PRST_STAT_IN_RESET : Field := ⟨0x10104, 0, 27, 0, .RO⟩
/-- R76: A GO was rejected under R75 -/
def GCTL_PRST_STAT_LAST_REJECTED : Field := ⟨0x10104, 31, 1, 0, .RW1C⟩
/-- R76: Current epoch of partition n -/
def GCTL_EPOCH_EPOCH (n : Part) : Field := ⟨0x10200 + 0x4 * n.val, 0, 16, 0, .RO⟩
/-- R76: Copy of IN_RESET bit n -/
def GCTL_EPOCH_IN_RESET (n : Part) : Field := ⟨0x10200 + 0x4 * n.val, 16, 1, 0, .RO⟩
/-- R76: Replies dropped as stale by receiver n; n = 27 is the unpartitioned core (QE, GCTL) -/
def GCTL_STALE_STALE (n : Fin 28) : Field := ⟨0x10300 + 0x4 * n.val, 0, 32, 0, .RC⟩
/-- R76: Sequence number the next violation-log entry will carry; it wraps. It reads 0 only after VAON is lost, and continues through a whole-device reset (R22). -/
def GCTL_VLOG_PROD_SEQ : Field := ⟨0x10400, 0, 32, 0, .RO⟩
/-- R106: State code (R86) -/
def MCH_STATE_STATE (m : Mech) : Field := ⟨0x800000 + 0x100000 * m.val, 0, 4, 0, .RO⟩
/-- R106: Automatic sequencing in progress -/
def MCH_STATE_AUTO_ACTIVE (m : Mech) : Field := ⟨0x800000 + 0x100000 * m.val, 4, 1, 0, .RO⟩
/-- R106: A disc is present and stable: MOTm_DISC_N has been low for 200 ms. Ox times the pin continuously and is not reset with partition m, so after a reset of the partition DISC shows the pin's present stable level within one Ox frame. -/
def MCH_STATE_DISC (m : Mech) : Field := ⟨0x800000 + 0x100000 * m.val, 5, 1, 0, .RO⟩
/-- R106: Optical calibration is valid for the present disc -/
def MCH_STATE_CAL_VALID (m : Mech) : Field := ⟨0x800000 + 0x100000 * m.val, 6, 1, 0, .RO⟩
/-- R106: At rest -/
def MCH_STATE_AT_REST (m : Mech) : Field := ⟨0x800000 + 0x100000 * m.val, 7, 1, 0, .RO⟩
/-- R106: R102 -/
def MCH_STATE_ESCALATED (m : Mech) : Field := ⟨0x800000 + 0x100000 * m.val, 8, 1, 0, .RO⟩
/-- R106: The spindle is in the recording class -/
def MCH_STATE_RECORDING_CLASS (m : Mech) : Field := ⟨0x800000 + 0x100000 * m.val, 9, 1, 0, .RO⟩
/-- R106: Command (R89) -/
def MCH_CMD_OP (m : Mech) : Field := ⟨0x800004 + 0x100000 * m.val, 0, 8, 0, .WO⟩
/-- R106: Argument, bits [23:0] of ARG being command bits [31:8] -/
def MCH_CMD_ARG (m : Mech) : Field := ⟨0x800004 + 0x100000 * m.val, 8, 24, 0, .WO⟩
/-- R106: 0x0 none, 0x1 IN_PROGRESS, 0x2 DONE, 0x3 STATE_CONFLICT, 0x4 BAD_ARG, 0x5 FAILED, 0x6 CANCELLED -/
def MCH_CMDSTAT_RESULT (m : Mech) : Field := ⟨0x800008 + 0x100000 * m.val, 0, 4, 0, .RO⟩
/-- R106: OP of the command reported -/
def MCH_CMDSTAT_OP (m : Mech) : Field := ⟨0x800008 + 0x100000 * m.val, 4, 8, 0, .RO⟩
/-- R106: State at the write, for STATE_CONFLICT -/
def MCH_CMDSTAT_SNAP_STATE (m : Mech) : Field := ⟨0x800008 + 0x100000 * m.val, 12, 4, 0, .RO⟩
/-- R106: AUTO_ACTIVE at the write -/
def MCH_CMDSTAT_SNAP_AUTO (m : Mech) : Field := ⟨0x800008 + 0x100000 * m.val, 16, 1, 0, .RO⟩
/-- R106: 0 host, 1 Archive Service -/
def MCH_CMDSTAT_SOURCE (m : Mech) : Field := ⟨0x800008 + 0x100000 * m.val, 17, 1, 0, .RO⟩
/-- R106: R88 -/
def MCH_CMDSTAT_REJ_BUSY (m : Mech) : Field := ⟨0x800008 + 0x100000 * m.val, 18, 1, 0, .RW1C⟩
/-- R106: Automatic sequencing enabled -/
def MCH_CTL_AUTO (m : Mech) : Field := ⟨0x80000C + 0x100000 * m.val, 0, 1, 1, .RW⟩
/-- R106: INIT automatically at power-up step 9 and on leaving partition reset, for a mechanism named in MECH_PRESENT (R86) -/
def MCH_CTL_AUTO_INIT (m : Mech) : Field := ⟨0x80000C + 0x100000 * m.val, 1, 1, 1, .RW⟩
/-- R106: R103 -/
def MCH_CTL_AUTO_RETIRE (m : Mech) : Field := ⟨0x80000C + 0x100000 * m.val, 2, 1, 1, .RW⟩
/-- R106: Idle park delay, s; 0 disables -/
def MCH_CFG_IDLE_S (m : Mech) : Field := ⟨0x800010 + 0x100000 * m.val, 0, 8, 60, .RW⟩
/-- R106: Sweeps per focus acquisition or reacquisition (R87, R145) -/
def MCH_CFG_REACQ (m : Mech) : Field := ⟨0x800010 + 0x100000 * m.val, 8, 4, 3, .RW⟩
/-- R106: Faults per 600 s before escalation; 0 disables -/
def MCH_CFG_ESC_LIMIT (m : Mech) : Field := ⟨0x800010 + 0x100000 * m.val, 12, 4, 3, .RW⟩
/-- R106: Fewest beams in use, 1–16 -/
def MCH_CFG_MIN_BEAMS (m : Mech) : Field := ⟨0x800010 + 0x100000 * m.val, 16, 5, 12, .RW⟩
/-- R106: Hold limit while AUTO is 0, s -/
def MCH_CFG_HOLD_S (m : Mech) : Field := ⟨0x800010 + 0x100000 * m.val, 24, 8, 10, .RW⟩
/-- R106: 100 ms units -/
def MCH_TMO_SPINUP_TMO (m : Mech) : Field := ⟨0x800014 + 0x100000 * m.val, 0, 8, 80, .RW⟩
/-- R106: ms -/
def MCH_TMO_FOCUS_TMO (m : Mech) : Field := ⟨0x800014 + 0x100000 * m.val, 8, 8, 200, .RW⟩
/-- R106: ms -/
def MCH_TMO_TRACK_TMO (m : Mech) : Field := ⟨0x800014 + 0x100000 * m.val, 16, 8, 100, .RW⟩
/-- R106: 4 ms units -/
def MCH_TMO_SEEK_TMO (m : Mech) : Field := ⟨0x800014 + 0x100000 * m.val, 24, 8, 125, .RW⟩
/-- R106: 100 ms units -/
def MCH_TMO2_CAL_TMO (m : Mech) : Field := ⟨0x800018 + 0x100000 * m.val, 0, 8, 30, .RW⟩
/-- R106: s -/
def MCH_XCHG_XCHG_TMO (m : Mech) : Field := ⟨0x80001C + 0x100000 * m.val, 0, 16, 120, .RW⟩
/-- R106: No-rotation time for at rest, ms -/
def MCH_XCHG_REST_MS (m : Mech) : Field := ⟨0x80001C + 0x100000 * m.val, 16, 16, 500, .RW⟩
/-- R106: Bits as R100 -/
def MCH_FAULT_FAULT (m : Mech) : Field := ⟨0x800020 + 0x100000 * m.val, 0, 20, 0, .RW1C⟩
/-- R106: Interrupt enable per fault bit -/
def MCH_FAULT_EN_EN (m : Mech) : Field := ⟨0x800024 + 0x100000 * m.val, 0, 20, 984063, .RW⟩
/-- R106: First fault (R101) -/
def MCH_FAULT_FIRST_CODE (m : Mech) : Field := ⟨0x800028 + 0x100000 * m.val, 0, 8, 0, .RO⟩
/-- R106: State when it was raised -/
def MCH_FAULT_FIRST_STATE (m : Mech) : Field := ⟨0x800028 + 0x100000 * m.val, 8, 4, 0, .RO⟩
/-- R106: Faults in the last 600 s -/
def MCH_FAULT_CNT_WINDOW (m : Mech) : Field := ⟨0x80002C + 0x100000 * m.val, 0, 8, 0, .RO⟩
/-- R106: Faults since last read -/
def MCH_FAULT_CNT_TOTAL (m : Mech) : Field := ⟨0x80002C + 0x100000 * m.val, 8, 16, 0, .RC⟩
/-- R106: BEAM_ENABLE of the MECHANISM record -/
def MCH_BEAM_ENABLE (m : Mech) : Field := ⟨0x800030 + 0x100000 * m.val, 0, 16, 0, .RWL⟩
/-- R106: Beams retired -/
def MCH_BEAM_RETIRED (m : Mech) : Field := ⟨0x800030 + 0x100000 * m.val, 16, 16, 0, .RO⟩
/-- R106: Step 3 of R96 -/
def MCH_EVENT_XREADY (m : Mech) : Field := ⟨0x800034 + 0x100000 * m.val, 0, 1, 0, .RW1C⟩
/-- R106: Step 4 of R96 -/
def MCH_EVENT_DISC_OUT (m : Mech) : Field := ⟨0x800034 + 0x100000 * m.val, 1, 1, 0, .RW1C⟩
/-- R106: Step 5 of R96 -/
def MCH_EVENT_DISC_IN (m : Mech) : Field := ⟨0x800034 + 0x100000 * m.val, 2, 1, 0, .RW1C⟩
/-- R106: R97 -/
def MCH_EVENT_XTIMEOUT (m : Mech) : Field := ⟨0x800034 + 0x100000 * m.val, 3, 1, 0, .RW1C⟩
/-- R106: R90 -/
def MCH_EVENT_CONFLICT (m : Mech) : Field := ⟨0x800034 + 0x100000 * m.val, 4, 1, 0, .RW1C⟩
/-- R106: R103 -/
def MCH_EVENT_RETIRED (m : Mech) : Field := ⟨0x800034 + 0x100000 * m.val, 5, 1, 0, .RW1C⟩
/-- R106: MOTOR_KE raised -/
def MCH_EVENT_KE (m : Mech) : Field := ⟨0x800034 + 0x100000 * m.val, 6, 1, 0, .RW1C⟩
/-- R106: Automatic sequencing reached TRACKING -/
def MCH_EVENT_SEQ_DONE (m : Mech) : Field := ⟨0x800034 + 0x100000 * m.val, 7, 1, 0, .RW1C⟩
/-- R106: Interrupt enable per event bit -/
def MCH_EVENT_EN_EN (m : Mech) : Field := ⟨0x800038 + 0x100000 * m.val, 0, 8, 127, .RW⟩
/-- R138: Consecutive lost frames before inhibit (R135), 1–3; 0 reads as 1 -/
def SRV_CFG_GATE_LOST (m : Mech) : Field := ⟨0x810000 + 0x100000 * m.val, 0, 2, 1, .RW⟩
/-- R138: Consecutive lost frames before retrain request (R136) -/
def SRV_CFG_LOST_LIMIT (m : Mech) : Field := ⟨0x810000 + 0x100000 * m.val, 8, 8, 8, .RW⟩
/-- R138: µs of consecutive loss before focus lost (R136) -/
def SRV_CFG_LOSS_FOCUS (m : Mech) : Field := ⟨0x810000 + 0x100000 * m.val, 16, 8, 50, .RW⟩
/-- R138: Temperature source (R123): 0 head, 1 junction -/
def SRV_CFG_TSRC (m : Mech) : Field := ⟨0x810000 + 0x100000 * m.val, 24, 1, 1, .RW⟩
/-- R138: Test stall cycles per frame (R117) -/
def SRV_CFG_STALL_INJ (m : Mech) : Field := ⟨0x810000 + 0x100000 * m.val, 25, 7, 0, .RW⟩
/-- R138: R108 -/
def SRV_STAT_FRAME_INDEX (m : Mech) : Field := ⟨0x810004 + 0x100000 * m.val, 0, 10, 0, .RO⟩
/-- R138: Mule domain ungated and framing -/
def SRV_STAT_RUNNING (m : Mech) : Field := ⟨0x810004 + 0x100000 * m.val, 10, 1, 0, .RO⟩
/-- R138: The current frame is lost -/
def SRV_STAT_LOST (m : Mech) : Field := ⟨0x810004 + 0x100000 * m.val, 11, 1, 0, .RO⟩
/-- R138: R136 -/
def SRV_STAT_RETRAIN_REQ (m : Mech) : Field := ⟨0x810004 + 0x100000 * m.val, 12, 1, 0, .RW1C⟩
/-- R138: Write inhibit from R135 in force -/
def SRV_STAT_INHIBIT_LOST (m : Mech) : Field := ⟨0x810004 + 0x100000 * m.val, 13, 1, 0, .RO⟩
/-- R138: Cycles used by compensators in the last frame -/
def SRV_FRAME_LAST (m : Mech) : Field := ⟨0x810008 + 0x100000 * m.val, 0, 16, 0, .RO⟩
/-- R138: Most cycles used in any frame since last read -/
def SRV_FRAME_MAX (m : Mech) : Field := ⟨0x810008 + 0x100000 * m.val, 16, 16, 0, .RC⟩
/-- R138: Lost frames -/
def SRV_LOST_CNT_LOST (m : Mech) : Field := ⟨0x81000C + 0x100000 * m.val, 0, 16, 0, .RC⟩
/-- R138: Longest run of consecutive lost frames -/
def SRV_LOST_CNT_MAX_RUN (m : Mech) : Field := ⟨0x81000C + 0x100000 * m.val, 16, 16, 0, .RC⟩
/-- R138: Predicted inputs (R134) -/
def SRV_PRED_CNT_PRED (m : Mech) : Field := ⟨0x810010 + 0x100000 * m.val, 0, 32, 0, .RC⟩
/-- R138: Copy of SRV_LSTAT.LATE, one bit per LOOP_ID; clearing a bit clears both -/
def SRV_LATE_SUM_LATE (m : Mech) : Field := ⟨0x810014 + 0x100000 * m.val, 0, 25, 0, .RW1C⟩
/-- R138: Loops enabled by MCH, one bit per LOOP_ID -/
def SRV_ENABLE_EN (m : Mech) : Field := ⟨0x810018 + 0x100000 * m.val, 0, 25, 0, .RO⟩
/-- R138: Zone in use (R123) -/
def SRV_REGION_ZONE (m : Mech) : Field := ⟨0x81001C + 0x100000 * m.val, 0, 5, 0, .RO⟩
/-- R138: Speed in use, 0.5 rpm -/
def SRV_REGION_SPEED (m : Mech) : Field := ⟨0x81001C + 0x100000 * m.val, 16, 16, 0, .RO⟩
/-- R138: Temperature in use, signed, 1/16 °C -/
def SRV_TEMP_TEMP (m : Mech) : Field := ⟨0x810020 + 0x100000 * m.val, 0, 16, 0, .RO⟩
/-- R138: Prefetches that missed the locked ways (R124) -/
def SRV_BANK_MISS_MISS (m : Mech) : Field := ⟨0x810024 + 0x100000 * m.val, 0, 16, 0, .RC⟩
/-- R138: Correctable state-memory ECC events (R117) -/
def SRV_BANK_MISS_ECC (m : Mech) : Field := ⟨0x810024 + 0x100000 * m.val, 16, 16, 0, .RC⟩
/-- R138: Entry index of the winner -/
def SRV_GOV_WINNER (m : Mech) (k : Fin 2) : Field := ⟨0x810030 + 0x100000 * m.val + 0x4 * k.val, 0, 2, 0, .RO⟩
/-- R138: SRC of the winner, 0xFF for the profile -/
def SRV_GOV_SRC (m : Mech) (k : Fin 2) : Field := ⟨0x810030 + 0x100000 * m.val + 0x4 * k.val, 8, 8, 255, .RO⟩
/-- R138: Selected fraction, Q15 -/
def SRV_GOV_SEL (m : Mech) (k : Fin 2) : Field := ⟨0x810030 + 0x100000 * m.val + 0x4 * k.val, 16, 16, 0, .RO⟩
/-- R138: Winner changes, spindle group -/
def SRV_GOV_CHG_SPN_CHG (m : Mech) : Field := ⟨0x810038 + 0x100000 * m.val, 0, 16, 0, .RC⟩
/-- R138: Winner changes, sled group -/
def SRV_GOV_CHG_SLD_CHG (m : Mech) : Field := ⟨0x810038 + 0x100000 * m.val, 16, 16, 0, .RC⟩
/-- R138: ms for which entry i won group k -/
def SRV_GOVT_MS (m : Mech) (k : Fin 2) (i : Fin 4) : Field := ⟨0x810040 + 0x100000 * m.val + 0x10 * k.val + 0x4 * i.val, 0, 32, 0, .RC⟩
/-- R138: Power headroom, Q15 -/
def SRV_MEAS_PWR_H (m : Mech) : Field := ⟨0x810060 + 0x100000 * m.val, 0, 16, 0, .RO⟩
/-- R138: Vibration headroom, Q15 -/
def SRV_MEAS_VIB_H (m : Mech) : Field := ⟨0x810064 + 0x100000 * m.val, 0, 16, 0, .RO⟩
/-- R138: E, unsigned, × 65,536 -/
def SRV_MEAS_VIB_E (m : Mech) : Field := ⟨0x810064 + 0x100000 * m.val, 16, 16, 0, .RO⟩
/-- R138: Data-need headroom, Q15 -/
def SRV_MEAS_DATA_H (m : Mech) : Field := ⟨0x810068 + 0x100000 * m.val, 0, 16, 0, .RO⟩
/-- R139: R120 -/
def SRV_LCTL_MODE (m : Mech) (n : LoopId) : Field := ⟨0x810100 + 0x100000 * m.val + 0x40 * n.val, 0, 2, 0, .RW⟩
/-- R139: R134. The image sets 1 for KIND 0 and 1, and 0 otherwise. -/
def SRV_LCTL_LOST_MODE (m : Mech) (n : LoopId) : Field := ⟨0x810100 + 0x100000 * m.val + 0x40 * n.val, 2, 1, 0, .RW⟩
/-- R139: R125 -/
def SRV_LCTL_FORCE_EN (m : Mech) (n : LoopId) : Field := ⟨0x810100 + 0x100000 * m.val + 0x40 * n.val, 3, 1, 0, .RW⟩
/-- R139: R125 -/
def SRV_LCTL_FORCE_BANK (m : Mech) (n : LoopId) : Field := ⟨0x810100 + 0x100000 * m.val + 0x40 * n.val, 4, 3, 0, .RW⟩
/-- R139: Active bank -/
def SRV_LSTAT_BANK (m : Mech) (n : LoopId) : Field := ⟨0x810104 + 0x100000 * m.val + 0x40 * n.val, 0, 3, 0, .RO⟩
/-- R139: R124 -/
def SRV_LSTAT_SWITCH_PENDING (m : Mech) (n : LoopId) : Field := ⟨0x810104 + 0x100000 * m.val + 0x40 * n.val, 3, 1, 0, .RO⟩
/-- R139: R124 -/
def SRV_LSTAT_PEND_BANK (m : Mech) (n : LoopId) : Field := ⟨0x810104 + 0x100000 * m.val + 0x40 * n.val, 4, 3, 0, .RO⟩
/-- R139: R115 -/
def SRV_LSTAT_LATE (m : Mech) (n : LoopId) : Field := ⟨0x810104 + 0x100000 * m.val + 0x40 * n.val, 7, 1, 0, .RW1C⟩
/-- R139: Last sample clamped (R111, R131) -/
def SRV_LSTAT_CLAMPED (m : Mech) (n : LoopId) : Field := ⟨0x810104 + 0x100000 * m.val + 0x40 * n.val, 8, 1, 0, .RO⟩
/-- R139: R110 -/
def SRV_LSTAT_STATE_SAT (m : Mech) (n : LoopId) : Field := ⟨0x810104 + 0x100000 * m.val + 0x40 * n.val, 9, 1, 0, .RW1C⟩
/-- R139: Copy of SRV_ENABLE bit n -/
def SRV_LSTAT_ENABLED (m : Mech) (n : LoopId) : Field := ⟨0x810104 + 0x100000 * m.val + 0x40 * n.val, 10, 1, 0, .RO⟩
/-- R139: Last comparison outside limits (R114) -/
def SRV_LSTAT_LIMIT (m : Mech) (n : LoopId) : Field := ⟨0x810104 + 0x100000 * m.val + 0x40 * n.val, 11, 1, 0, .RO⟩
/-- R139: R125 -/
def SRV_LSTAT_FORCE_BAD (m : Mech) (n : LoopId) : Field := ⟨0x810104 + 0x100000 * m.val + 0x40 * n.val, 12, 1, 0, .RW1C⟩
/-- R139: Consecutive skipped samples (R115) -/
def SRV_LSTAT_MISS_RUN (m : Mech) (n : LoopId) : Field := ⟨0x810104 + 0x100000 * m.val + 0x40 * n.val, 16, 8, 0, .RO⟩
/-- R139: Skipped samples -/
def SRV_LMISS_MISS (m : Mech) (n : LoopId) : Field := ⟨0x810108 + 0x100000 * m.val + 0x40 * n.val, 0, 32, 0, .RC⟩
/-- R139: Finish cycle of the last sample -/
def SRV_LFINISH_LAST (m : Mech) (n : LoopId) : Field := ⟨0x81010C + 0x100000 * m.val + 0x40 * n.val, 0, 16, 0, .RO⟩
/-- R139: Latest finish cycle since last read -/
def SRV_LFINISH_WORST (m : Mech) (n : LoopId) : Field := ⟨0x81010C + 0x100000 * m.val + 0x40 * n.val, 16, 16, 0, .RC⟩
/-- R139: Set-point or offset (R112), written by optical calibration or software -/
def SRV_LSETP_SETP (m : Mech) (n : LoopId) : Field := ⟨0x810110 + 0x100000 * m.val + 0x40 * n.val, 0, 16, 0, .RW⟩
/-- R139: Last delivered output -/
def SRV_LOUT_OUT (m : Mech) (n : LoopId) : Field := ⟨0x810114 + 0x100000 * m.val + 0x40 * n.val, 0, 16, 0, .RO⟩
/-- R139: Output in OPEN mode -/
def SRV_LOUT_MANUAL (m : Mech) (n : LoopId) : Field := ⟨0x810114 + 0x100000 * m.val + 0x40 * n.val, 16, 16, 0, .RW⟩
/-- R139: Last input e -/
def SRV_LIN_E (m : Mech) (n : LoopId) : Field := ⟨0x810118 + 0x100000 * m.val + 0x40 * n.val, 0, 16, 0, .RO⟩
/-- R139: Cascade value C (R127) -/
def SRV_LIN_CASC (m : Mech) (n : LoopId) : Field := ⟨0x810118 + 0x100000 * m.val + 0x40 * n.val, 16, 16, 0, .RO⟩
/-- R139: From the LOOP record -/
def SRV_LCLAMP_CLAMP_LO (m : Mech) (n : LoopId) : Field := ⟨0x81011C + 0x100000 * m.val + 0x40 * n.val, 0, 16, 0, .RWL⟩
/-- R139: From the LOOP record -/
def SRV_LCLAMP_CLAMP_HI (m : Mech) (n : LoopId) : Field := ⟨0x81011C + 0x100000 * m.val + 0x40 * n.val, 16, 16, 0, .RWL⟩
/-- R139: From the LOOP record -/
def SRV_LLIMIT_LIMIT_LO (m : Mech) (n : LoopId) : Field := ⟨0x810120 + 0x100000 * m.val + 0x40 * n.val, 0, 16, 0, .RWL⟩
/-- R139: From the LOOP record -/
def SRV_LLIMIT_LIMIT_HI (m : Mech) (n : LoopId) : Field := ⟨0x810120 + 0x100000 * m.val + 0x40 * n.val, 16, 16, 0, .RWL⟩
/-- R139: From the LOOP record -/
def SRV_LTIME_DEADLINE (m : Mech) (n : LoopId) : Field := ⟨0x810124 + 0x100000 * m.val + 0x40 * n.val, 0, 16, 0, .RWL⟩
/-- R139: From the LOOP record -/
def SRV_LTIME_MISS_LIMIT (m : Mech) (n : LoopId) : Field := ⟨0x810124 + 0x100000 * m.val + 0x40 * n.val, 16, 8, 0, .RWL⟩
/-- R139: Limit breaches (R114) -/
def SRV_LLIM_CNT_LIMIT (m : Mech) (n : LoopId) : Field := ⟨0x810128 + 0x100000 * m.val + 0x40 * n.val, 0, 32, 0, .RC⟩
/-- R139: Clamped samples (R111) -/
def SRV_LCLAMP_CNT_CLAMP (m : Mech) (n : LoopId) : Field := ⟨0x81012C + 0x100000 * m.val + 0x40 * n.val, 0, 32, 0, .RC⟩
/-- R139: Bank switches (R124) -/
def SRV_LSWITCH_CNT_SWITCH (m : Mech) (n : LoopId) : Field := ⟨0x810130 + 0x100000 * m.val + 0x40 * n.val, 0, 16, 0, .RC⟩
/-- R166: Layer in focus -/
def SRV_OPT_STAT_LAYER (m : Mech) : Field := ⟨0x812000 + 0x100000 * m.val, 0, 2, 0, .RO⟩
/-- R166: Focus captured -/
def SRV_OPT_STAT_FOCUS_ON (m : Mech) : Field := ⟨0x812000 + 0x100000 * m.val, 2, 1, 0, .RO⟩
/-- R166: Fine and coarse loops closed -/
def SRV_OPT_STAT_TRACK_ON (m : Mech) : Field := ⟨0x812000 + 0x100000 * m.val, 3, 1, 0, .RO⟩
/-- R166: Step of R161 in progress; 0 none, 5 quick calibration -/
def SRV_OPT_STAT_CAL_STEP (m : Mech) : Field := ⟨0x812000 + 0x100000 * m.val, 4, 4, 0, .RO⟩
/-- R166: Layer jump in progress -/
def SRV_OPT_STAT_JUMP (m : Mech) : Field := ⟨0x812000 + 0x100000 * m.val, 8, 1, 0, .RO⟩
/-- R166: Layers found on the disc by step 1 of R161, 1–4; 0 before that step has run (R162) -/
def SRV_OPT_STAT_LAYERS (m : Mech) : Field := ⟨0x812000 + 0x100000 * m.val, 9, 3, 0, .RO⟩
/-- R166: S-curve validity threshold, raw focus sum (R144) -/
def SRV_FOC_CFG_ACQ_SUM (m : Mech) : Field := ⟨0x812004 + 0x100000 * m.val, 0, 16, 4096, .RW⟩
/-- R166: Sweep duration, ms -/
def SRV_FOC_CFG_SWEEP_MS (m : Mech) : Field := ⟨0x812004 + 0x100000 * m.val, 16, 8, 20, .RW⟩
/-- R166: Frames below LOSS_LVL for focus loss (R147) -/
def SRV_FOC_CFG_LOSS_FR (m : Mech) : Field := ⟨0x812004 + 0x100000 * m.val, 24, 8, 48, .RW⟩
/-- R166: Focus loss level, normalised (30 %) -/
def SRV_FOC_LVL_LOSS_LVL (m : Mech) : Field := ⟨0x812008 + 0x100000 * m.val, 0, 16, 4915, .RW⟩
/-- R166: Jump kick amplitude, Q15 focus output -/
def SRV_JUMP_CFG_KICK (m : Mech) : Field := ⟨0x81200C + 0x100000 * m.val, 0, 16, 4096, .RW⟩
/-- R166: Kick and brake length, frames -/
def SRV_JUMP_CFG_KICK_FR (m : Mech) : Field := ⟨0x81200C + 0x100000 * m.val, 16, 8, 80, .RW⟩
/-- R166: Settle after capture, 10-frame units -/
def SRV_JUMP_CFG_SETTLE (m : Mech) : Field := ⟨0x81200C + 0x100000 * m.val, 24, 8, 80, .RW⟩
/-- R166: Dropout onset, normalised (60 %) -/
def SRV_DEF_CFG_DEF_LO (m : Mech) : Field := ⟨0x812010 + 0x100000 * m.val, 0, 16, 9830, .RW⟩
/-- R166: Defect end level, normalised (75 %) -/
def SRV_DEF_CFG_DEF_HI (m : Mech) : Field := ⟨0x812010 + 0x100000 * m.val, 16, 16, 12288, .RW⟩
/-- R166: Bright onset, normalised (150 %) -/
def SRV_DEF_CFG2_DEF_BRIGHT (m : Mech) : Field := ⟨0x812014 + 0x100000 * m.val, 0, 16, 24576, .RW⟩
/-- R166: Longest defect hold, frames (R156) -/
def SRV_DEF_CFG2_DEF_MAX (m : Mech) : Field := ⟨0x812014 + 0x100000 * m.val, 16, 8, 40, .RW⟩
/-- R166: Hint frames before (R157) -/
def SRV_DEF_CFG2_PRE (m : Mech) : Field := ⟨0x812014 + 0x100000 * m.val, 24, 4, 1, .RW⟩
/-- R166: Hint frames after (R157) -/
def SRV_DEF_CFG2_POST (m : Mech) : Field := ⟨0x812014 + 0x100000 * m.val, 28, 4, 1, .RW⟩
/-- R166: Slip level, normalised tracking error -/
def SRV_TRK_CFG_SLIP_LVL (m : Mech) : Field := ⟨0x812018 + 0x100000 * m.val, 0, 16, 14336, .RW⟩
/-- R166: Frames at SLIP_LVL for a slip (R150) -/
def SRV_TRK_CFG_SLIP_N (m : Mech) : Field := ⟨0x812018 + 0x100000 * m.val, 16, 4, 4, .RW⟩
/-- R166: Slipping beams for tracking loss (R151) -/
def SRV_TRK_CFG_LOSS_BEAMS (m : Mech) : Field := ⟨0x812018 + 0x100000 * m.val, 20, 4, 4, .RW⟩
/-- R166: Run of frames within limits for reopening (R160) -/
def SRV_TRK_CFG_REOPEN (m : Mech) : Field := ⟨0x812018 + 0x100000 * m.val, 24, 4, 8, .RW⟩
/-- R166: Tilt inhibit level (0.125°) (R148) -/
def SRV_TILT_CFG_TILT_INH (m : Mech) : Field := ⟨0x81201C + 0x100000 * m.val, 0, 16, 4096, .RW⟩
/-- R166: Largest short seek, swaths -/
def SRV_SEEK_CFG_SHORT_MAX (m : Mech) : Field := ⟨0x812020 + 0x100000 * m.val, 0, 8, 64, .RW⟩
/-- R166: Corrections per seek (R153) -/
def SRV_SEEK_CFG_RETRY (m : Mech) : Field := ⟨0x812020 + 0x100000 * m.val, 8, 4, 3, .RW⟩
/-- R166: Settle before the address check, µs -/
def SRV_SEEK_CFG_SETTLE_US (m : Mech) : Field := ⟨0x812020 + 0x100000 * m.val, 12, 12, 500, .RW⟩
/-- R166: Target swath -/
def SRV_SEEK_STAT_TARGET (m : Mech) : Field := ⟨0x812024 + 0x100000 * m.val, 0, 14, 0, .RO⟩
/-- R166: Target layer -/
def SRV_SEEK_STAT_TLAYER (m : Mech) : Field := ⟨0x812024 + 0x100000 * m.val, 14, 2, 0, .RO⟩
/-- R166: Seek in progress -/
def SRV_SEEK_STAT_ACTIVE (m : Mech) : Field := ⟨0x812024 + 0x100000 * m.val, 16, 1, 0, .RO⟩
/-- R166: The seek used a sled move -/
def SRV_SEEK_STAT_LONG (m : Mech) : Field := ⟨0x812024 + 0x100000 * m.val, 17, 1, 0, .RO⟩
/-- R166: Corrections made -/
def SRV_SEEK_STAT_TRIES (m : Mech) : Field := ⟨0x812024 + 0x100000 * m.val, 18, 4, 0, .RO⟩
/-- R166: Groove start found at the last check -/
def SRV_SEEK_STAT_LAST_K (m : Mech) : Field := ⟨0x812024 + 0x100000 * m.val, 22, 4, 0, .RO⟩
/-- R166: Focus losses (R147) -/
def SRV_OPT_EVT_FOC_LOSS (m : Mech) : Field := ⟨0x812028 + 0x100000 * m.val, 0, 16, 0, .RC⟩
/-- R166: Tracking losses (R151) -/
def SRV_OPT_EVT_TRK_LOSS (m : Mech) : Field := ⟨0x812028 + 0x100000 * m.val, 16, 16, 0, .RC⟩
/-- R166: Beam defect in force, one bit per beam -/
def SRV_DEF_ACTIVE_BEAM (m : Mech) : Field := ⟨0x81202C + 0x100000 * m.val, 0, 16, 0, .RO⟩
/-- R166: Focus defect in force -/
def SRV_DEF_ACTIVE_FOCUS (m : Mech) : Field := ⟨0x81202C + 0x100000 * m.val, 16, 1, 0, .RO⟩
/-- R166: Defects of beam b (R155) -/
def SRV_BEAM_DEF_CNT (m : Mech) (b : Beam) : Field := ⟨0x812100 + 0x100000 * m.val + 0x4 * b.val, 0, 16, 0, .RC⟩
/-- R166: Slips of beam b (R150) -/
def SRV_BEAM_SLIP_CNT (m : Mech) (b : Beam) : Field := ⟨0x812100 + 0x100000 * m.val + 0x4 * b.val, 16, 16, 0, .RC⟩
/-- R167: Focus offset, loaded into the focus loop's SETP -/
def SRV_CAL_FOC_FOC_OFS (m : Mech) (l : Layer) : Field := ⟨0x812200 + 0x100000 * m.val + 0x100 * l.val, 0, 16, 0, .RW⟩
/-- R167: Focus sum gain (R141) -/
def SRV_CAL_FOC_SUM_GAIN (m : Mech) (l : Layer) : Field := ⟨0x812200 + 0x100000 * m.val + 0x100 * l.val, 16, 16, 16384, .RW⟩
/-- R167: Radial tilt offset -/
def SRV_CAL_TILT_RTILT_OFS (m : Mech) (l : Layer) : Field := ⟨0x812204 + 0x100000 * m.val + 0x100 * l.val, 0, 16, 0, .RW⟩
/-- R167: Tangential tilt offset -/
def SRV_CAL_TILT_TTILT_OFS (m : Mech) (l : Layer) : Field := ⟨0x812204 + 0x100000 * m.val + 0x100 * l.val, 16, 16, 0, .RW⟩
/-- R167: Set by step 4 of R161 -/
def SRV_CAL_STAT_VALID (m : Mech) (l : Layer) : Field := ⟨0x812208 + 0x100000 * m.val + 0x100 * l.val, 0, 1, 0, .RO⟩
/-- R167: Quick or full calibration done on this layer since the last spin-up (R165) -/
def SRV_CAL_STAT_QUICK (m : Mech) (l : Layer) : Field := ⟨0x812208 + 0x100000 * m.val + 0x100 * l.val, 1, 1, 0, .RO⟩
/-- R167: SRV_TEMP at the last calibration, signed, °C -/
def SRV_CAL_STAT_TEMP (m : Mech) (l : Layer) : Field := ⟨0x812208 + 0x100000 * m.val + 0x100 * l.val, 8, 8, 0, .RO⟩
/-- R167: Tracking-error gain of beam b -/
def SRV_CAL_GAIN_TE_GAIN (m : Mech) (l : Layer) (b : Beam) : Field := ⟨0x812240 + 0x100000 * m.val + 0x100 * l.val + 0x4 * b.val, 0, 16, 16384, .RW⟩
/-- R167: Beam-sum gain of beam b -/
def SRV_CAL_GAIN_BSUM_GAIN (m : Mech) (l : Layer) (b : Beam) : Field := ⟨0x812240 + 0x100000 * m.val + 0x100 * l.val + 0x4 * b.val, 16, 16, 16384, .RW⟩
/-- R167: Tracking offset of beam b, loaded into its fine loop's SETP -/
def SRV_CAL_TOFS_TE_OFS (m : Mech) (l : Layer) (b : Beam) : Field := ⟨0x812280 + 0x100000 * m.val + 0x100 * l.val + 0x4 * b.val, 0, 16, 0, .RW⟩
/-- R167: Push-pull amplitude of beam b at the last calibration -/
def SRV_CAL_TOFS_PP (m : Mech) (l : Layer) (b : Beam) : Field := ⟨0x812280 + 0x100000 * m.val + 0x100 * l.val + 0x4 * b.val, 16, 16, 0, .RO⟩
/-- R200: Class (R175) -/
def SPN_STATE_CLASS (m : Mech) : Field := ⟨0x820000 + 0x100000 * m.val, 0, 3, 0, .RO⟩
/-- R200: Last catch case (R186) -/
def SPN_STATE_CASE (m : Mech) : Field := ⟨0x820000 + 0x100000 * m.val, 3, 3, 0, .RO⟩
/-- R200: Active short applied (R188, R191) -/
def SPN_STATE_SHORT (m : Mech) : Field := ⟨0x820000 + 0x100000 * m.val, 6, 1, 0, .RO⟩
/-- R200: R195 -/
def SPN_STATE_KE_BAD (m : Mech) : Field := ⟨0x820000 + 0x100000 * m.val, 7, 1, 0, .RO⟩
/-- R200: R190 -/
def SPN_STATE_CHOP_BAD (m : Mech) : Field := ⟨0x820000 + 0x100000 * m.val, 8, 1, 0, .RO⟩
/-- R200: R190 -/
def SPN_STATE_LOSS_ONLY (m : Mech) : Field := ⟨0x820000 + 0x100000 * m.val, 9, 1, 0, .RO⟩
/-- R200: R192 -/
def SPN_STATE_ABSORB (m : Mech) : Field := ⟨0x820000 + 0x100000 * m.val, 10, 1, 0, .RO⟩
/-- R200: 1 when the speed estimate is negative -/
def SPN_STATE_DIR (m : Mech) : Field := ⟨0x820000 + 0x100000 * m.val, 11, 1, 0, .RO⟩
/-- R200: R193 -/
def SPN_STATE_UV (m : Mech) : Field := ⟨0x820000 + 0x100000 * m.val, 12, 1, 0, .RO⟩
/-- R200: Clears KE_BAD (R195) -/
def SPN_CTL_KE_CLEAR (m : Mech) : Field := ⟨0x820004 + 0x100000 * m.val, 0, 1, 0, .WO⟩
/-- R200: Clears CHOP_BAD and LOSS_ONLY (R190) -/
def SPN_CTL_CHOP_CLEAR (m : Mech) : Field := ⟨0x820004 + 0x100000 * m.val, 1, 1, 0, .WO⟩
/-- R200: Speed estimate, signed, 0.5 rpm -/
def SPN_SPEED_SPEED (m : Mech) : Field := ⟨0x820008 + 0x100000 * m.val, 0, 16, 0, .RO⟩
/-- R200: r in use, including R192, 0.5 rpm -/
def SPN_SPEED_REF (m : Mech) : Field := ⟨0x820008 + 0x100000 * m.val, 16, 16, 0, .RO⟩
/-- R200: Electrical angle, 2^16 per turn -/
def SPN_POS_ELEC (m : Mech) : Field := ⟨0x82000C + 0x100000 * m.val, 0, 16, 0, .RO⟩
/-- R200: Mechanical angle, 2^16 per revolution (R174) -/
def SPN_POS_MECH (m : Mech) : Field := ⟨0x82000C + 0x100000 * m.val, 16, 16, 0, .RO⟩
/-- R200: Index angle (R174) -/
def SPN_INDEX_OFS (m : Mech) : Field := ⟨0x820010 + 0x100000 * m.val, 0, 16, 0, .RW⟩
/-- R200: T* after R177, Q15 of TQ_MAX -/
def SPN_TORQUE_TREF (m : Mech) : Field := ⟨0x820014 + 0x100000 * m.val, 0, 16, 0, .RO⟩
/-- R200: Torque estimate, Q15 of TQ_MAX -/
def SPN_TORQUE_TEST (m : Mech) : Field := ⟨0x820014 + 0x100000 * m.val, 16, 16, 0, .RO⟩
/-- R200: Bus voltage, 10 mV -/
def SPN_BUS_VBUS (m : Mech) : Field := ⟨0x820018 + 0x100000 * m.val, 0, 16, 0, .RO⟩
/-- R200: Chopper current, mA -/
def SPN_BUS_ICHOP (m : Mech) : Field := ⟨0x820018 + 0x100000 * m.val, 16, 16, 0, .RO⟩
/-- R200: Power drawn from the bus, signed, 10 mW; negative when generating -/
def SPN_POWER_PMOT (m : Mech) : Field := ⟨0x82001C + 0x100000 * m.val, 0, 16, 0, .RO⟩
/-- R200: Estimated winding loss, 10 mW -/
def SPN_POWER_PLOSS (m : Mech) : Field := ⟨0x82001C + 0x100000 * m.val, 16, 16, 0, .RO⟩
/-- R200: Last measured KE, mV per 1,000 rpm -/
def SPN_KE_MEAS (m : Mech) : Field := ⟨0x820020 + 0x100000 * m.val, 0, 16, 0, .RO⟩
/-- R200: Deviation from the record, signed, % -/
def SPN_KE_DEV (m : Mech) : Field := ⟨0x820020 + 0x100000 * m.val, 16, 8, 0, .RO⟩
/-- R200: A measurement exists since reset -/
def SPN_KE_VALID (m : Mech) : Field := ⟨0x820020 + 0x100000 * m.val, 24, 1, 0, .RO⟩
/-- R200: Measured catch speed, signed, 0.5 rpm -/
def SPN_CATCH_SPEED (m : Mech) : Field := ⟨0x820024 + 0x100000 * m.val, 0, 16, 0, .RO⟩
/-- R200: R186 -/
def SPN_CATCH_CASE (m : Mech) : Field := ⟨0x820024 + 0x100000 * m.val, 16, 3, 0, .RO⟩
/-- R200: DTC step, µs, 2–20 -/
def SPN_DTC_CFG_PERIOD (m : Mech) : Field := ⟨0x820028 + 0x100000 * m.val, 0, 5, 10, .RW⟩
/-- R200: Flux band, 0.1 % of λ_m -/
def SPN_DTC_CFG_FLUX_HYS (m : Mech) : Field := ⟨0x820028 + 0x100000 * m.val, 8, 8, 20, .RW⟩
/-- R200: Torque band, 0.1 % of TQ_MAX -/
def SPN_DTC_CFG_TQ_HYS (m : Mech) : Field := ⟨0x820028 + 0x100000 * m.val, 16, 8, 30, .RW⟩
/-- R200: Flux reference in LOSS_ONLY, % of λ_m -/
def SPN_DTC_CFG_FLUX_BRAKE (m : Mech) : Field := ⟨0x820028 + 0x100000 * m.val, 24, 8, 130, .RW⟩
/-- R200: Edge ramp, electrical degrees, 0–30 -/
def SPN_REC_CFG_RAMP_DEG (m : Mech) : Field := ⟨0x82002C + 0x100000 * m.val, 0, 5, 15, .RW⟩
/-- R200: 1 raised cosine, 0 linear -/
def SPN_REC_CFG_SHAPE (m : Mech) : Field := ⟨0x82002C + 0x100000 * m.val, 5, 1, 1, .RW⟩
/-- R200: Commutation advance, electrical degrees -/
def SPN_REC_CFG_ADVANCE (m : Mech) : Field := ⟨0x82002C + 0x100000 * m.val, 8, 6, 0, .RW⟩
/-- R200: Hand-over dwell, 10 ms units (R182) -/
def SPN_REC_CFG_HANDOVER (m : Mech) : Field := ⟨0x82002C + 0x100000 * m.val, 16, 8, 20, .RW⟩
/-- R200: Hand-over band, 0.1 % of r -/
def SPN_REC_CFG_BAND (m : Mech) : Field := ⟨0x82002C + 0x100000 * m.val, 24, 8, 5, .RW⟩
/-- R200: % (R183) -/
def SPN_REC_EXIT_EXIT_ERR (m : Mech) : Field := ⟨0x820030 + 0x100000 * m.val, 0, 8, 20, .RW⟩
/-- R200: 10 ms units (R183) -/
def SPN_REC_EXIT_SAT_T (m : Mech) : Field := ⟨0x820030 + 0x100000 * m.val, 8, 8, 50, .RW⟩
/-- R200: R183 -/
def SPN_REC_EXIT_BEMF_SKIP_MAX (m : Mech) : Field := ⟨0x820030 + 0x100000 * m.val, 16, 8, 12, .RW⟩
/-- R200: Modulator clock divider (R171) -/
def SPN_DSM_CFG_DIV (m : Mech) : Field := ⟨0x820034 + 0x100000 * m.val, 0, 8, 10, .RW⟩
/-- R200: Current decimation -/
def SPN_DSM_CFG_DEC_I (m : Mech) : Field := ⟨0x820034 + 0x100000 * m.val, 8, 8, 16, .RW⟩
/-- R200: Voltage decimation -/
def SPN_DSM_CFG_DEC_V (m : Mech) : Field := ⟨0x820034 + 0x100000 * m.val, 16, 8, 32, .RW⟩
/-- R200: Settle time, 10 ns (R172) -/
def SPN_DSM_CFG_SETTLE (m : Mech) : Field := ⟨0x820034 + 0x100000 * m.val, 24, 8, 30, .RW⟩
/-- R200: mA (R190) -/
def SPN_CHOP_CFG_CHOP_MIN_I (m : Mech) : Field := ⟨0x820038 + 0x100000 * m.val, 0, 16, 200, .RW⟩
/-- R200: µs (R190) -/
def SPN_CHOP_CFG_CHOP_DET (m : Mech) : Field := ⟨0x820038 + 0x100000 * m.val, 16, 8, 20, .RW⟩
/-- R200: % (R177) -/
def SPN_CHOP_CFG_LOSS_PCT (m : Mech) : Field := ⟨0x820038 + 0x100000 * m.val, 24, 8, 80, .RW⟩
/-- R200: Measurement window, ms -/
def SPN_CATCH_CFG_CATCH_MS (m : Mech) : Field := ⟨0x82003C + 0x100000 * m.val, 0, 8, 20, .RW⟩
/-- R200: Flux build, ms -/
def SPN_CATCH_CFG_FLUX_MS (m : Mech) : Field := ⟨0x82003C + 0x100000 * m.val, 8, 8, 5, .RW⟩
/-- R200: Lowest speed for a KE measurement, rpm -/
def SPN_CATCH_CFG_KE_MIN (m : Mech) : Field := ⟨0x82003C + 0x100000 * m.val, 16, 16, 1000, .RW⟩
/-- R200: Short time, ms -/
def SPN_SHORT_CFG_ON_MS (m : Mech) : Field := ⟨0x820040 + 0x100000 * m.val, 0, 8, 20, .RW⟩
/-- R200: Release time, ms -/
def SPN_SHORT_CFG_OFF_MS (m : Mech) : Field := ⟨0x820040 + 0x100000 * m.val, 8, 8, 5, .RW⟩
/-- R200: mA -/
def SPN_SHORT_CFG_I_SHORT_MAX (m : Mech) : Field := ⟨0x820040 + 0x100000 * m.val, 16, 16, 2500, .RW⟩
/-- R200: rpm (R192) -/
def SPN_ABSORB_CFG_ABSORB_RPM (m : Mech) : Field := ⟨0x820044 + 0x100000 * m.val, 0, 16, 300, .RW⟩
/-- R200: ms (R191, R192) -/
def SPN_ABSORB_CFG_HOLD_MS (m : Mech) : Field := ⟨0x820044 + 0x100000 * m.val, 16, 8, 10, .RW⟩
/-- R200: R192 -/
def SPN_ABSORB_CFG_ABSORB_EN (m : Mech) : Field := ⟨0x820044 + 0x100000 * m.val, 24, 1, 1, .RW⟩
/-- R200: From the SPINDLE record -/
def SPN_LIM0_MAX_RPM (m : Mech) : Field := ⟨0x820048 + 0x100000 * m.val, 0, 16, 0, .RWL⟩
/-- R200: From the SPINDLE record -/
def SPN_LIM0_BACK_THR (m : Mech) : Field := ⟨0x820048 + 0x100000 * m.val, 16, 16, 0, .RWL⟩
/-- R200: From the SPINDLE record -/
def SPN_LIM1_KE (m : Mech) : Field := ⟨0x82004C + 0x100000 * m.val, 0, 16, 0, .RWL⟩
/-- R200: From the SPINDLE record -/
def SPN_LIM1_TQ_MAX (m : Mech) : Field := ⟨0x82004C + 0x100000 * m.val, 16, 16, 0, .RWL⟩
/-- R200: 10 mV -/
def SPN_THR0_CHOP_OFF_V (m : Mech) : Field := ⟨0x820050 + 0x100000 * m.val, 0, 16, 0, .RWL⟩
/-- R200: 10 mV -/
def SPN_THR0_CHOP_ON_V (m : Mech) : Field := ⟨0x820050 + 0x100000 * m.val, 16, 16, 0, .RWL⟩
/-- R200: 10 mV -/
def SPN_THR1_DERATE_V (m : Mech) : Field := ⟨0x820054 + 0x100000 * m.val, 0, 16, 0, .RWL⟩
/-- R200: 10 mV -/
def SPN_THR1_REGEN_V (m : Mech) : Field := ⟨0x820054 + 0x100000 * m.val, 16, 16, 0, .RWL⟩
/-- R200: 10 mV -/
def SPN_THR2_SHORT_V (m : Mech) : Field := ⟨0x820058 + 0x100000 * m.val, 0, 16, 0, .RWL⟩
/-- R200: 10 mV -/
def SPN_THR2_GATESOFF_V (m : Mech) : Field := ⟨0x820058 + 0x100000 * m.val, 16, 16, 0, .RWL⟩
/-- R200: 10 mV -/
def SPN_THR3_UV_V (m : Mech) : Field := ⟨0x82005C + 0x100000 * m.val, 0, 16, 0, .RWL⟩
/-- R200: Skipped current samples (R173) -/
def SPN_SKIP_CNT_CUR (m : Mech) : Field := ⟨0x820060 + 0x100000 * m.val, 0, 16, 0, .RC⟩
/-- R200: Skipped zero crossings (R173) -/
def SPN_SKIP_CNT_BEMF (m : Mech) : Field := ⟨0x820060 + 0x100000 * m.val, 16, 16, 0, .RC⟩
/-- R200: Overcurrent trips (R197) -/
def SPN_FAULT_CNT_OC (m : Mech) : Field := ⟨0x820064 + 0x100000 * m.val, 0, 16, 0, .RC⟩
/-- R200: Hand-backs (R183) -/
def SPN_FAULT_CNT_HANDBACK (m : Mech) : Field := ⟨0x820064 + 0x100000 * m.val, 16, 16, 0, .RC⟩
/-- R200: R182 -/
def SPN_EVENT_HANDOVER (m : Mech) : Field := ⟨0x820068 + 0x100000 * m.val, 0, 1, 0, .RW1C⟩
/-- R200: R183 -/
def SPN_EVENT_HANDBACK (m : Mech) : Field := ⟨0x820068 + 0x100000 * m.val, 1, 1, 0, .RW1C⟩
/-- R200: R195 -/
def SPN_EVENT_KE (m : Mech) : Field := ⟨0x820068 + 0x100000 * m.val, 2, 1, 0, .RW1C⟩
/-- R200: R190 -/
def SPN_EVENT_CHOP (m : Mech) : Field := ⟨0x820068 + 0x100000 * m.val, 3, 1, 0, .RW1C⟩
/-- R200: REGEN_V reached (R191) -/
def SPN_EVENT_REGEN (m : Mech) : Field := ⟨0x820068 + 0x100000 * m.val, 4, 1, 0, .RW1C⟩
/-- R200: SHORT_V reached (R191) -/
def SPN_EVENT_SHORT (m : Mech) : Field := ⟨0x820068 + 0x100000 * m.val, 5, 1, 0, .RW1C⟩
/-- R200: GATESOFF_V reached (R191) -/
def SPN_EVENT_GATESOFF (m : Mech) : Field := ⟨0x820068 + 0x100000 * m.val, 6, 1, 0, .RW1C⟩
/-- R200: R193 -/
def SPN_EVENT_UV (m : Mech) : Field := ⟨0x820068 + 0x100000 * m.val, 7, 1, 0, .RW1C⟩
/-- R200: R197 -/
def SPN_EVENT_OC (m : Mech) : Field := ⟨0x820068 + 0x100000 * m.val, 8, 1, 0, .RW1C⟩
/-- R200: Acted as absorber (R192) -/
def SPN_EVENT_ABSORB_RX (m : Mech) : Field := ⟨0x820068 + 0x100000 * m.val, 9, 1, 0, .RW1C⟩
/-- R200: R196 -/
def SPN_EVENT_COMM_FAIL (m : Mech) : Field := ⟨0x820068 + 0x100000 * m.val, 10, 1, 0, .RW1C⟩
/-- R200: R198 -/
def SPN_EVENT_STREAM (m : Mech) : Field := ⟨0x820068 + 0x100000 * m.val, 11, 1, 0, .RW1C⟩
/-- R200: Interrupt enable per event bit -/
def SPN_EVENT_EN_EN (m : Mech) : Field := ⟨0x82006C + 0x100000 * m.val, 0, 12, 4092, .RW⟩
/-- R200: Cause of the last hand-back (R183) -/
def SPN_LAST_CAUSE (m : Mech) : Field := ⟨0x820070 + 0x100000 * m.val, 0, 3, 0, .RO⟩
/-- R224: Mode (R208) -/
def SLD_STATE_MODE (m : Mech) : Field := ⟨0x830000 + 0x100000 * m.val, 0, 3, 0, .RO⟩
/-- R224: R211 -/
def SLD_STATE_REVERSING (m : Mech) : Field := ⟨0x830000 + 0x100000 * m.val, 3, 1, 0, .RO⟩
/-- R224: R214, R221 -/
def SLD_STATE_HOMED (m : Mech) : Field := ⟨0x830000 + 0x100000 * m.val, 4, 1, 0, .RO⟩
/-- R224: R215 -/
def SLD_STATE_AT_PARK (m : Mech) : Field := ⟨0x830000 + 0x100000 * m.val, 5, 1, 0, .RO⟩
/-- R224: R205, last period -/
def SLD_STATE_VSAT (m : Mech) : Field := ⟨0x830000 + 0x100000 * m.val, 6, 1, 0, .RO⟩
/-- R224: R219 -/
def SLD_STATE_UV_WAIT (m : Mech) : Field := ⟨0x830000 + 0x100000 * m.val, 7, 1, 0, .RO⟩
/-- R224: A stopped move is kept (R219) -/
def SLD_STATE_KEPT (m : Mech) : Field := ⟨0x830000 + 0x100000 * m.val, 8, 1, 0, .RO⟩
/-- R224: Debounced switches: [9] inner, [10] outer (R216) -/
def SLD_STATE_LIM (m : Mech) : Field := ⟨0x830000 + 0x100000 * m.val, 9, 2, 0, .RO⟩
/-- R224: 1 STOP, 2 RESUME (R220) -/
def SLD_CMD_OP (m : Mech) : Field := ⟨0x830004 + 0x100000 * m.val, 0, 4, 0, .WO⟩
/-- R224: Codes as MCH_CMDSTAT.RESULT -/
def SLD_CMDSTAT_RESULT (m : Mech) : Field := ⟨0x830008 + 0x100000 * m.val, 0, 4, 0, .RO⟩
/-- R224: OP reported -/
def SLD_CMDSTAT_OP (m : Mech) : Field := ⟨0x830008 + 0x100000 * m.val, 4, 4, 0, .RO⟩
/-- R224: Commanded position, signed, microsteps -/
def SLD_POS_POS (m : Mech) : Field := ⟨0x83000C + 0x100000 * m.val, 0, 24, 0, .RO⟩
/-- R224: Target of the present or kept move -/
def SLD_TGT_TARGET (m : Mech) : Field := ⟨0x830010 + 0x100000 * m.val, 0, 24, 0, .RO⟩
/-- R224: Target − position, signed, microsteps (R211, R219) -/
def SLD_REMAIN_REMAIN (m : Mech) : Field := ⟨0x830014 + 0x100000 * m.val, 0, 24, 0, .RO⟩
/-- R224: Commanded velocity, signed, 0.01 mm/s -/
def SLD_VEL_VEL (m : Mech) : Field := ⟨0x830018 + 0x100000 * m.val, 0, 16, 0, .RO⟩
/-- R224: Commanded acceleration, signed, 2 mm/s², so that a ramp limit stop at up to 60,000 mm/s² (R201) fits -/
def SLD_VEL_ACC (m : Mech) : Field := ⟨0x830018 + 0x100000 * m.val, 16, 16, 0, .RO⟩
/-- R224: Sled loop output as received, 0.01 mm/s -/
def SLD_VCMD_LOOP (m : Mech) : Field := ⟨0x83001C + 0x100000 * m.val, 0, 16, 0, .RO⟩
/-- R224: Spiral feed-forward, 0.01 mm/s (R212) -/
def SLD_VCMD_FF (m : Mech) : Field := ⟨0x83001C + 0x100000 * m.val, 16, 16, 0, .RO⟩
/-- R224: Phase A voltage after R205, signed, mV -/
def SLD_VOUT_VA (m : Mech) : Field := ⟨0x830020 + 0x100000 * m.val, 0, 16, 0, .RO⟩
/-- R224: Phase B voltage after R205, signed, mV -/
def SLD_VOUT_VB (m : Mech) : Field := ⟨0x830020 + 0x100000 * m.val, 16, 16, 0, .RO⟩
/-- R224: Approach speed, 0.01 mm/s (R209) -/
def SLD_CFG_V_CREEP (m : Mech) : Field := ⟨0x830024 + 0x100000 * m.val, 0, 16, 50, .RW⟩
/-- R224: Approach distance, microsteps (R209) -/
def SLD_CFG_APPROACH (m : Mech) : Field := ⟨0x830024 + 0x100000 * m.val, 16, 8, 16, .RW⟩
/-- R224: Hold before OFF at park, ms (R206) -/
def SLD_CFG_HOLD_MS (m : Mech) : Field := ⟨0x830024 + 0x100000 * m.val, 24, 8, 100, .RW⟩
/-- R224: µs (R216) -/
def SLD_CFG2_DEBOUNCE (m : Mech) : Field := ⟨0x830028 + 0x100000 * m.val, 0, 8, 20, .RW⟩
/-- R224: Microsteps (R222) -/
def SLD_CFG2_RESYNC_LIM (m : Mech) : Field := ⟨0x830028 + 0x100000 * m.val, 8, 16, 410, .RW⟩
/-- R224: From the SLED record -/
def SLD_LIM0_VMAX (m : Mech) : Field := ⟨0x83002C + 0x100000 * m.val, 0, 16, 0, .RWL⟩
/-- R224: From the SLED record -/
def SLD_LIM0_AMAX (m : Mech) : Field := ⟨0x83002C + 0x100000 * m.val, 16, 16, 0, .RWL⟩
/-- R224: From the SLED record -/
def SLD_LIM1_JERK (m : Mech) : Field := ⟨0x830030 + 0x100000 * m.val, 0, 16, 0, .RWL⟩
/-- R224: From the SLED record -/
def SLD_LIM1_LIM_DECEL (m : Mech) : Field := ⟨0x830030 + 0x100000 * m.val, 16, 16, 0, .RWL⟩
/-- R224: From the SLED record -/
def SLD_PARK_PARK_POS (m : Mech) : Field := ⟨0x830034 + 0x100000 * m.val, 0, 24, 0, .RWL⟩
/-- R224: From the SLED record -/
def SLD_PARK_INNER_MODE (m : Mech) : Field := ⟨0x830034 + 0x100000 * m.val, 24, 1, 0, .RWL⟩
/-- R224: From the SLED record -/
def SLD_PARK_OUTER_MODE (m : Mech) : Field := ⟨0x830034 + 0x100000 * m.val, 25, 1, 0, .RWL⟩
/-- R224: From the SLED record -/
def SLD_SOFT_LO_SOFT_LO (m : Mech) : Field := ⟨0x830038 + 0x100000 * m.val, 0, 24, 0, .RWL⟩
/-- R224: From the SLED record -/
def SLD_SOFT_HI_SOFT_HI (m : Mech) : Field := ⟨0x83003C + 0x100000 * m.val, 0, 24, 0, .RWL⟩
/-- R224: From the SLED record -/
def SLD_SWATH0_SWATH0_POS (m : Mech) : Field := ⟨0x830040 + 0x100000 * m.val, 0, 24, 0, .RWL⟩
/-- R224: Rebases (R222) -/
def SLD_RESYNC_COUNT (m : Mech) : Field := ⟨0x830044 + 0x100000 * m.val, 0, 16, 0, .RC⟩
/-- R224: Last rebase, signed, microsteps -/
def SLD_RESYNC_LAST (m : Mech) : Field := ⟨0x830044 + 0x100000 * m.val, 16, 16, 0, .RO⟩
/-- R224: Completed moves -/
def SLD_MOVE_CNT_MOVES (m : Mech) : Field := ⟨0x830048 + 0x100000 * m.val, 0, 16, 0, .RC⟩
/-- R224: Reversals (R211) -/
def SLD_MOVE_CNT_REVERSALS (m : Mech) : Field := ⟨0x830048 + 0x100000 * m.val, 16, 16, 0, .RC⟩
/-- R224: R210 -/
def SLD_EVENT_DONE (m : Mech) : Field := ⟨0x83004C + 0x100000 * m.val, 0, 1, 0, .RW1C⟩
/-- R224: R211 -/
def SLD_EVENT_REVERSING (m : Mech) : Field := ⟨0x83004C + 0x100000 * m.val, 1, 1, 0, .RW1C⟩
/-- R224: R217 -/
def SLD_EVENT_LIM_IN (m : Mech) : Field := ⟨0x83004C + 0x100000 * m.val, 2, 1, 0, .RW1C⟩
/-- R224: R217 -/
def SLD_EVENT_LIM_OUT (m : Mech) : Field := ⟨0x83004C + 0x100000 * m.val, 3, 1, 0, .RW1C⟩
/-- R224: R214 -/
def SLD_EVENT_HOME_DONE (m : Mech) : Field := ⟨0x83004C + 0x100000 * m.val, 4, 1, 0, .RW1C⟩
/-- R224: R214 -/
def SLD_EVENT_HOME_FAIL (m : Mech) : Field := ⟨0x83004C + 0x100000 * m.val, 5, 1, 0, .RW1C⟩
/-- R224: R221 -/
def SLD_EVENT_POS_LOST (m : Mech) : Field := ⟨0x83004C + 0x100000 * m.val, 6, 1, 0, .RW1C⟩
/-- R224: R205 -/
def SLD_EVENT_VSAT (m : Mech) : Field := ⟨0x83004C + 0x100000 * m.val, 7, 1, 0, .RW1C⟩
/-- R224: R222 -/
def SLD_EVENT_RESYNC (m : Mech) : Field := ⟨0x83004C + 0x100000 * m.val, 8, 1, 0, .RW1C⟩
/-- R224: R219 -/
def SLD_EVENT_UV_STOP (m : Mech) : Field := ⟨0x83004C + 0x100000 * m.val, 9, 1, 0, .RW1C⟩
/-- R224: Interrupt enable per event bit -/
def SLD_EVENT_EN_EN (m : Mech) : Field := ⟨0x830050 + 0x100000 * m.val, 0, 10, 108, .RW⟩
/-- R249: 0 DOWN, 1 FULL_TRAIN, 2 FAST_TRAIN, 3 UP, 4 FAILED -/
def HLK_STATE_LINK (m : Mech) : Field := ⟨0x840000 + 0x100000 * m.val, 0, 3, 0, .RO⟩
/-- R249: Block lock, upstream lanes 0–2 -/
def HLK_STATE_UP_LOCK (m : Mech) : Field := ⟨0x840000 + 0x100000 * m.val, 3, 3, 0, .RO⟩
/-- R249: STATUS bit 4 -/
def HLK_STATE_DN_LOCK (m : Mech) : Field := ⟨0x840000 + 0x100000 * m.val, 6, 1, 0, .RO⟩
/-- R249: A STATUS fault bit is set -/
def HLK_STATE_HEAD_FAULT (m : Mech) : Field := ⟨0x840000 + 0x100000 * m.val, 7, 1, 0, .RO⟩
/-- R249: HF_ID matched at the last training -/
def HLK_STATE_ID_OK (m : Mech) : Field := ⟨0x840000 + 0x100000 * m.val, 8, 1, 0, .RO⟩
/-- R249: Fast retrain (R246) -/
def HLK_CTL_RETRAIN (m : Mech) : Field := ⟨0x840004 + 0x100000 * m.val, 0, 1, 0, .WO⟩
/-- R249: Full training -/
def HLK_CTL_FULL (m : Mech) : Field := ⟨0x840004 + 0x100000 * m.val, 1, 1, 0, .WO⟩
/-- R249: Bad blocks per ms on a lane -/
def HLK_CFG_ERR_LIMIT (m : Mech) : Field := ⟨0x840008 + 0x100000 * m.val, 0, 8, 16, .RW⟩
/-- R249: Fast retrains before a full training -/
def HLK_CFG_RETRY (m : Mech) : Field := ⟨0x840008 + 0x100000 * m.val, 8, 4, 2, .RW⟩
/-- R249: µs (R247) -/
def HLK_CFG_REG_TMO (m : Mech) : Field := ⟨0x840008 + 0x100000 * m.val, 12, 12, 100, .RW⟩
/-- R249: HF_SDLY in force, 0.8 ns -/
def HLK_TIMING_SDLY (m : Mech) : Field := ⟨0x84000C + 0x100000 * m.val, 0, 12, 0, .RO⟩
/-- R249: R243, 0.1 ns -/
def HLK_TIMING_RTT (m : Mech) : Field := ⟨0x84000C + 0x100000 * m.val, 12, 16, 0, .RO⟩
/-- R249: 16-frame mean arrival offset, signed, Mule cycles -/
def HLK_ARRIVE_MEAN (m : Mech) : Field := ⟨0x840010 + 0x100000 * m.val, 0, 8, 0, .RO⟩
/-- R249: HF_SDLY moves (R243) -/
def HLK_ARRIVE_ADJ (m : Mech) : Field := ⟨0x840010 + 0x100000 * m.val, 16, 16, 0, .RC⟩
/-- R249: Lane 1 − lane 0, signed, 0.25 ns -/
def HLK_SKEW_SKEW1 (m : Mech) : Field := ⟨0x840014 + 0x100000 * m.val, 0, 8, 0, .RO⟩
/-- R249: Lane 2 − lane 0, signed, 0.25 ns -/
def HLK_SKEW_SKEW2 (m : Mech) : Field := ⟨0x840014 + 0x100000 * m.val, 8, 8, 0, .RO⟩
/-- R249: Blocks with a good header and a bad CRC; for k = 3, as reported by DN_ERR -/
def HLK_ERR_CRC (m : Mech) (k : Fin 4) : Field := ⟨0x840020 + 0x100000 * m.val + 0x4 * k.val, 0, 16, 0, .RC⟩
/-- R249: Blocks with a bad header -/
def HLK_ERR_HDR (m : Mech) (k : Fin 4) : Field := ⟨0x840020 + 0x100000 * m.val + 0x4 * k.val, 16, 16, 0, .RC⟩
/-- R249: Pre-tap, signed -/
def HLK_EQ_PRE (m : Mech) (k : Fin 4) : Field := ⟨0x840030 + 0x100000 * m.val + 0x4 * k.val, 0, 8, 0, .RO⟩
/-- R249: Main tap -/
def HLK_EQ_MAIN (m : Mech) (k : Fin 4) : Field := ⟨0x840030 + 0x100000 * m.val + 0x4 * k.val, 8, 8, 0, .RO⟩
/-- R249: Post-tap, signed -/
def HLK_EQ_POST (m : Mech) (k : Fin 4) : Field := ⟨0x840030 + 0x100000 * m.val + 0x4 * k.val, 16, 8, 0, .RO⟩
/-- R249: Receiver eye height at training, mV -/
def HLK_EQ_MARGIN (m : Mech) (k : Fin 4) : Field := ⟨0x840030 + 0x100000 * m.val + 0x4 * k.val, 24, 8, 0, .RO⟩
/-- R249: Servo cells missing or bad -/
def HLK_LOST_LOST (m : Mech) : Field := ⟨0x840040 + 0x100000 * m.val, 0, 16, 0, .RC⟩
/-- R249: Servo cells outside the window (R243) -/
def HLK_LOST_LATE (m : Mech) : Field := ⟨0x840040 + 0x100000 * m.val, 16, 16, 0, .RC⟩
/-- R249: Samples erased (R233) -/
def HLK_ERASE_ERASED (m : Mech) : Field := ⟨0x840044 + 0x100000 * m.val, 0, 32, 0, .RC⟩
/-- R249: Write spans lost to DN_ERR or WLATE -/
def HLK_WERR_FRAG (m : Mech) : Field := ⟨0x840048 + 0x100000 * m.val, 0, 16, 0, .RC⟩
/-- R249: Servo cells with DN_BAD set -/
def HLK_WERR_DN_BAD (m : Mech) : Field := ⟨0x840048 + 0x100000 * m.val, 16, 16, 0, .RC⟩
/-- R249: Fast retrains -/
def HLK_RETRAIN_FAST (m : Mech) : Field := ⟨0x84004C + 0x100000 * m.val, 0, 16, 0, .RC⟩
/-- R249: Full trainings -/
def HLK_RETRAIN_FULL (m : Mech) : Field := ⟨0x84004C + 0x100000 * m.val, 16, 16, 0, .RC⟩
/-- R249: HF_ID -/
def HLK_HEAD_ID_ID (m : Mech) : Field := ⟨0x840050 + 0x100000 * m.val, 0, 16, 0, .RO⟩
/-- R249: HF_VER -/
def HLK_HEAD_ID_VER (m : Mech) : Field := ⟨0x840050 + 0x100000 * m.val, 16, 16, 0, .RO⟩
/-- R249: MDATA[31:0] of the last STATUS -/
def HLK_HEAD_STAT_STATUS (m : Mech) : Field := ⟨0x840054 + 0x100000 * m.val, 0, 32, 0, .RO⟩
/-- R249: Head temperature, signed, 1/16 °C (R237) -/
def HLK_TEMP_TEMP (m : Mech) : Field := ⟨0x840058 + 0x100000 * m.val, 0, 16, 0, .RO⟩
/-- R249: Head register address -/
def HLK_REG_CMD_ADDR (m : Mech) : Field := ⟨0x840060 + 0x100000 * m.val, 0, 16, 0, .RW⟩
/-- R249: 1 write, 0 read -/
def HLK_REG_CMD_WRITE (m : Mech) : Field := ⟨0x840060 + 0x100000 * m.val, 16, 1, 0, .RW⟩
/-- R249: Starts the access. While RESULT reads busy, GO has no effect and is logged with source 0x14 and code 0x0710. -/
def HLK_REG_CMD_GO (m : Mech) : Field := ⟨0x840060 + 0x100000 * m.val, 31, 1, 0, .WO⟩
/-- R249: Write data, or the reply's data -/
def HLK_REG_DATA_DATA (m : Mech) : Field := ⟨0x840064 + 0x100000 * m.val, 0, 16, 0, .RW⟩
/-- R249: 0 idle, 1 busy, 2 done, 3 error -/
def HLK_REG_STAT_RESULT (m : Mech) : Field := ⟨0x840068 + 0x100000 * m.val, 0, 2, 0, .RO⟩
/-- R249: REG_ERR code, or 0xFF for timeout -/
def HLK_REG_STAT_CODE (m : Mech) : Field := ⟨0x840068 + 0x100000 * m.val, 8, 8, 0, .RO⟩
/-- R249: Link reached UP -/
def HLK_EVENT_UP (m : Mech) : Field := ⟨0x840070 + 0x100000 * m.val, 0, 1, 0, .RW1C⟩
/-- R249: A retrain began -/
def HLK_EVENT_RETRAIN (m : Mech) : Field := ⟨0x840070 + 0x100000 * m.val, 1, 1, 0, .RW1C⟩
/-- R249: LINK reached FAILED -/
def HLK_EVENT_FAILED (m : Mech) : Field := ⟨0x840070 + 0x100000 * m.val, 2, 1, 0, .RW1C⟩
/-- R249: ERR_LIMIT exceeded -/
def HLK_EVENT_ERR_RATE (m : Mech) : Field := ⟨0x840070 + 0x100000 * m.val, 3, 1, 0, .RW1C⟩
/-- R249: STATUS fault -/
def HLK_EVENT_HEAD_FAULT (m : Mech) : Field := ⟨0x840070 + 0x100000 * m.val, 4, 1, 0, .RW1C⟩
/-- R249: HF_ID mismatch -/
def HLK_EVENT_ID_MISMATCH (m : Mech) : Field := ⟨0x840070 + 0x100000 * m.val, 5, 1, 0, .RW1C⟩
/-- R249: DN_ERR or WLATE received -/
def HLK_EVENT_WLOSS (m : Mech) : Field := ⟨0x840070 + 0x100000 * m.val, 6, 1, 0, .RW1C⟩
/-- R249: A host register access ended -/
def HLK_EVENT_REG_DONE (m : Mech) : Field := ⟨0x840070 + 0x100000 * m.val, 7, 1, 0, .RW1C⟩
/-- R249: Interrupt enable per event bit -/
def HLK_EVENT_EN_EN (m : Mech) : Field := ⟨0x840074 + 0x100000 * m.val, 0, 8, 52, .RW⟩
/-- R286: Code strength of the disc in use -/
def WCH_STAT_P (m : Mech) : Field := ⟨0x860000 + 0x100000 * m.val, 0, 5, 0, .RO⟩
/-- R286: Parity count of the disc in use -/
def WCH_STAT_Q (m : Mech) : Field := ⟨0x860000 + 0x100000 * m.val, 5, 4, 0, .RO⟩
/-- R286: Write run in progress -/
def WCH_STAT_RUN (m : Mech) : Field := ⟨0x860000 + 0x100000 * m.val, 9, 1, 0, .RO⟩
/-- R286: Beam mask of the present swath -/
def WCH_MASK_MASK (m : Mech) : Field := ⟨0x860004 + 0x100000 * m.val, 0, 16, 0, .RO⟩
/-- R286: Mask for the next swath (R284) -/
def WCH_MASK_NEXT (m : Mech) : Field := ⟨0x860004 + 0x100000 * m.val, 16, 16, 0, .RO⟩
/-- R286: L of the present swath, channel bits -/
def WCH_GEOM_SLOT_LEN (m : Mech) : Field := ⟨0x860008 + 0x100000 * m.val, 0, 16, 0, .RO⟩
/-- R286: Physical slots of the present swath -/
def WCH_GEOM_SLOTS (m : Mech) : Field := ⟨0x860008 + 0x100000 * m.val, 16, 16, 0, .RO⟩
/-- R286: Data slots D -/
def WCH_DSLOTS_DATA (m : Mech) : Field := ⟨0x86000C + 0x100000 * m.val, 0, 16, 0, .RO⟩
/-- R286: Reserve slots R -/
def WCH_DSLOTS_RESERVE (m : Mech) : Field := ⟨0x86000C + 0x100000 * m.val, 16, 16, 0, .RO⟩
/-- R286: Blocks written, copies included -/
def WCH_BLK_CNT_BLOCKS (m : Mech) : Field := ⟨0x860010 + 0x100000 * m.val, 0, 32, 0, .RC⟩
/-- R286: Parity blocks written -/
def WCH_PAR_CNT_PARITY (m : Mech) : Field := ⟨0x860014 + 0x100000 * m.val, 0, 32, 0, .RC⟩
/-- R286: Next unused test pair; 64 when full -/
def WCH_CAL_CURSOR (m : Mech) (l : Layer) : Field := ⟨0x860040 + 0x100000 * m.val + 0x4 * l.val, 0, 7, 0, .RO⟩
/-- R286: R271 -/
def WCH_CAL_FULL (m : Mech) (l : Layer) : Field := ⟨0x860040 + 0x100000 * m.val + 0x4 * l.val, 7, 1, 0, .RO⟩
/-- R286: Calibration of layer l complete -/
def WCH_CAL_DONE (m : Mech) (l : Layer) : Field := ⟨0x860040 + 0x100000 * m.val + 0x4 * l.val, 8, 1, 0, .RO⟩
/-- R286: PWopt of beam b on layer l, 0.1 mW -/
def WCH_PW_PWOPT (m : Mech) (l : Layer) (b : Beam) : Field := ⟨0x860100 + 0x100000 * m.val + 0x40 * l.val + 0x4 * b.val, 0, 16, 0, .RO⟩
/-- R286: Lowest pass-2 readback error, 1/256 of full-scale squared -/
def WCH_PW_ERR (m : Mech) (l : Layer) (b : Beam) : Field := ⟨0x860100 + 0x100000 * m.val + 0x40 * l.val + 0x4 * b.val, 16, 16, 0, .RO⟩
/-- R286: A layer's calibration completed -/
def WCH_EVENT_CAL_DONE (m : Mech) : Field := ⟨0x860200 + 0x100000 * m.val, 0, 1, 0, .RW1C⟩
/-- R286: R271 -/
def WCH_EVENT_CALZONE_FULL (m : Mech) : Field := ⟨0x860200 + 0x100000 * m.val, 1, 1, 0, .RW1C⟩
/-- R286: R271 -/
def WCH_EVENT_BEAM_POWER (m : Mech) : Field := ⟨0x860200 + 0x100000 * m.val, 2, 1, 0, .RW1C⟩
/-- R286: R284 -/
def WCH_EVENT_SKIP_SWATH (m : Mech) : Field := ⟨0x860200 + 0x100000 * m.val, 3, 1, 0, .RW1C⟩
/-- R286: A zone change was applied (R253) -/
def WCH_EVENT_ZONE (m : Mech) : Field := ⟨0x860200 + 0x100000 * m.val, 4, 1, 0, .RW1C⟩
/-- R286: Interrupt enable per event bit -/
def WCH_EVENT_EN_EN (m : Mech) : Field := ⟨0x860204 + 0x100000 * m.val, 0, 5, 6, .RW⟩
/-- R287: From the CODE record -/
def GPE_CODE_P_DEFAULT (m : Mech) : Field := ⟨0x8C0000 + 0x100000 * m.val, 0, 5, 0, .RWL⟩
/-- R287: From the CODE record -/
def GPE_CODE_Q_DEFAULT (m : Mech) : Field := ⟨0x8C0000 + 0x100000 * m.val, 8, 4, 0, .RWL⟩
/-- R287: From the CODE record -/
def GPE_CODE_RELOC_PCT (m : Mech) : Field := ⟨0x8C0000 + 0x100000 * m.val, 24, 4, 0, .RWL⟩
/-- R287: From the CODE record -/
def GPE_GROUP_SPACING (m : Mech) : Field := ⟨0x8C0004 + 0x100000 * m.val, 0, 5, 0, .RWL⟩
/-- R287: From the CODE record -/
def GPE_GROUP_RELOC_MAX (m : Mech) : Field := ⟨0x8C0004 + 0x100000 * m.val, 8, 2, 0, .RWL⟩
/-- R287: ms -/
def GPE_GROUP_GROUP_TMO (m : Mech) : Field := ⟨0x8C0004 + 0x100000 * m.val, 16, 16, 0, .RWL⟩
/-- R287: R279 -/
def GANDER_CFG_GOOD_PCT (m : Mech) : Field := ⟨0x8C0008 + 0x100000 * m.val, 0, 8, 0, .RW⟩
/-- R287: R279; a value below GOOD_PCT is taken as GOOD_PCT -/
def GANDER_CFG_FAIL_PCT (m : Mech) : Field := ⟨0x8C0008 + 0x100000 * m.val, 8, 8, 0, .RW⟩
/-- R287: R278 -/
def GANDER_CFG_ERASE_WT (m : Mech) : Field := ⟨0x8C0008 + 0x100000 * m.val, 16, 8, 0, .RW⟩
/-- R287: R279 -/
def GANDER_CFG_FRAG_MAX (m : Mech) : Field := ⟨0x8C0008 + 0x100000 * m.val, 24, 8, 0, .RW⟩
/-- R287: Open groups (R277) -/
def GPE_OPEN_OPEN (m : Mech) : Field := ⟨0x8C000C + 0x100000 * m.val, 0, 16, 0, .RO⟩
/-- R287: Most open groups since last read -/
def GPE_OPEN_MAX (m : Mech) : Field := ⟨0x8C000C + 0x100000 * m.val, 16, 16, 0, .RC⟩
/-- R287: Blocks classified GOOD -/
def GANDER_GOOD_COUNT (m : Mech) : Field := ⟨0x8C0010 + 0x100000 * m.val, 0, 32, 0, .RC⟩
/-- R287: Blocks classified MARGINAL -/
def GANDER_MARG_COUNT (m : Mech) : Field := ⟨0x8C0014 + 0x100000 * m.val, 0, 32, 0, .RC⟩
/-- R287: Blocks classified FAILED, copies included -/
def GANDER_FAIL_COUNT (m : Mech) : Field := ⟨0x8C0018 + 0x100000 * m.val, 0, 32, 0, .RC⟩
/-- R287: Copies written (R281) -/
def GANDER_RELOC_COPIES (m : Mech) : Field := ⟨0x8C001C + 0x100000 * m.val, 0, 16, 0, .RC⟩
/-- R287: Blocks handed back (R282, R283) -/
def GANDER_RELOC_HANDBACK (m : Mech) : Field := ⟨0x8C001C + 0x100000 * m.val, 16, 16, 0, .RC⟩
/-- R287: 0 GOOD, 1 MARGINAL, 2 FAILED, for the last block -/
def GANDER_LAST_CLASS (m : Mech) : Field := ⟨0x8C0020 + 0x100000 * m.val, 0, 2, 0, .RO⟩
/-- R287: Its fragment count -/
def GANDER_LAST_FRAGS (m : Mech) : Field := ⟨0x8C0020 + 0x100000 * m.val, 2, 6, 0, .RO⟩
/-- R287: Its largest λ, 1/4,096 -/
def GANDER_LAST_LOAD (m : Mech) : Field := ⟨0x8C0020 + 0x100000 * m.val, 16, 16, 0, .RO⟩
/-- R287: PBA of the last block classified -/
def GANDER_LAST_PBA_PBA (m : Mech) : Field := ⟨0x8C0024 + 0x100000 * m.val, 0, 32, 0, .RO⟩
/-- R287: PBA of the last FAILED block -/
def GANDER_FAIL_PBA_PBA (m : Mech) : Field := ⟨0x8C0028 + 0x100000 * m.val, 0, 32, 0, .RO⟩
/-- R287: A block was MARGINAL -/
def GPE_EVENT_MARGINAL (m : Mech) : Field := ⟨0x8C0030 + 0x100000 * m.val, 0, 1, 0, .RW1C⟩
/-- R287: A block was FAILED -/
def GPE_EVENT_FAILED (m : Mech) : Field := ⟨0x8C0030 + 0x100000 * m.val, 1, 1, 0, .RW1C⟩
/-- R287: RELOC_MAX copies failed (R282) -/
def GPE_EVENT_RELOC_FAIL (m : Mech) : Field := ⟨0x8C0030 + 0x100000 * m.val, 2, 1, 0, .RW1C⟩
/-- R287: R282 -/
def GPE_EVENT_RESERVE_OUT (m : Mech) : Field := ⟨0x8C0030 + 0x100000 * m.val, 3, 1, 0, .RW1C⟩
/-- R287: R282 -/
def GPE_EVENT_DRT_FULL (m : Mech) : Field := ⟨0x8C0030 + 0x100000 * m.val, 4, 1, 0, .RW1C⟩
/-- R287: A group closed by GROUP_TMO (R276) -/
def GPE_EVENT_GROUP_TMO (m : Mech) : Field := ⟨0x8C0030 + 0x100000 * m.val, 5, 1, 0, .RW1C⟩
/-- R287: Interrupt enable per event bit -/
def GPE_EVENT_EN_EN (m : Mech) : Field := ⟨0x8C0034 + 0x100000 * m.val, 0, 6, 28, .RW⟩
/-- R320: R292 -/
def RCH_CTL_EQ_ADAPT (m : Mech) (b : Beam) : Field := ⟨0x880000 + 0x100000 * m.val + 0x1000 * b.val, 0, 2, 2, .RW⟩
/-- R320: R296 -/
def RCH_CTL_XT_ADAPT (m : Mech) (b : Beam) : Field := ⟨0x880000 + 0x100000 * m.val + 0x1000 * b.val, 2, 2, 2, .RW⟩
/-- R320: Equaliser step, 2^−MU_EQ -/
def RCH_CTL_MU_EQ (m : Mech) (b : Beam) : Field := ⟨0x880000 + 0x100000 * m.val + 0x1000 * b.val, 4, 4, 10, .RW⟩
/-- R320: Canceller step, 2^−MU_XT -/
def RCH_CTL_MU_XT (m : Mech) (b : Beam) : Field := ⟨0x880000 + 0x100000 * m.val + 0x1000 * b.val, 8, 4, 12, .RW⟩
/-- R320: R294 -/
def RCH_CTL_WIDE_FORCE (m : Mech) (b : Beam) : Field := ⟨0x880000 + 0x100000 * m.val + 0x1000 * b.val, 12, 1, 0, .RW⟩
/-- R320: Timing locked (R290) -/
def RCH_STAT_LOCK (m : Mech) (b : Beam) : Field := ⟨0x880004 + 0x100000 * m.val + 0x1000 * b.val, 0, 1, 0, .RO⟩
/-- R320: 0 READ, 1 VERIFY (R289) -/
def RCH_STAT_SET (m : Mech) (b : Beam) : Field := ⟨0x880004 + 0x100000 * m.val + 0x1000 * b.val, 1, 1, 0, .RO⟩
/-- R320: Wide mode in force -/
def RCH_STAT_WIDE (m : Mech) (b : Beam) : Field := ⟨0x880004 + 0x100000 * m.val + 0x1000 * b.val, 2, 1, 0, .RO⟩
/-- R320: R295 -/
def RCH_STAT_REF_MODE (m : Mech) (b : Beam) : Field := ⟨0x880004 + 0x100000 * m.val + 0x1000 * b.val, 3, 1, 0, .RO⟩
/-- R320: Side −1 open (R295) -/
def RCH_STAT_OPEN_LO (m : Mech) (b : Beam) : Field := ⟨0x880004 + 0x100000 * m.val + 0x1000 * b.val, 4, 1, 0, .RO⟩
/-- R320: Side +1 open (R295) -/
def RCH_STAT_OPEN_HI (m : Mech) (b : Beam) : Field := ⟨0x880004 + 0x100000 * m.val + 0x1000 * b.val, 5, 1, 0, .RO⟩
/-- R320: A gate is open on this beam -/
def RCH_STAT_ACTIVE (m : Mech) (b : Beam) : Field := ⟨0x880004 + 0x100000 * m.val + 0x1000 * b.val, 6, 1, 0, .RO⟩
/-- R320: R290 -/
def RCH_TR_CFG_KP_ACQ (m : Mech) (b : Beam) : Field := ⟨0x880008 + 0x100000 * m.val + 0x1000 * b.val, 0, 4, 4, .RW⟩
/-- R320: R290 -/
def RCH_TR_CFG_KI_ACQ (m : Mech) (b : Beam) : Field := ⟨0x880008 + 0x100000 * m.val + 0x1000 * b.val, 4, 4, 8, .RW⟩
/-- R320: R290 -/
def RCH_TR_CFG_KP (m : Mech) (b : Beam) : Field := ⟨0x880008 + 0x100000 * m.val + 0x1000 * b.val, 8, 4, 7, .RW⟩
/-- R320: R290 -/
def RCH_TR_CFG_KI (m : Mech) (b : Beam) : Field := ⟨0x880008 + 0x100000 * m.val + 0x1000 * b.val, 12, 4, 12, .RW⟩
/-- R320: 1/256 channel bit, rms -/
def RCH_TR_CFG_LOCK_LVL (m : Mech) (b : Beam) : Field := ⟨0x880008 + 0x100000 * m.val + 0x1000 * b.val, 16, 8, 24, .RW⟩
/-- R320: Target taps, signed, 1/16 -/
def RCH_TARGET_TGT0 (m : Mech) (b : Beam) : Field := ⟨0x88000C + 0x100000 * m.val + 0x1000 * b.val, 0, 8, 16, .RW⟩
/-- R320: Target taps, signed, 1/16 -/
def RCH_TARGET_TGT1 (m : Mech) (b : Beam) : Field := ⟨0x88000C + 0x100000 * m.val + 0x1000 * b.val, 8, 8, 32, .RW⟩
/-- R320: Target taps, signed, 1/16 -/
def RCH_TARGET_TGT2 (m : Mech) (b : Beam) : Field := ⟨0x88000C + 0x100000 * m.val + 0x1000 * b.val, 16, 8, 32, .RW⟩
/-- R320: Target taps, signed, 1/16 -/
def RCH_TARGET_TGT3 (m : Mech) (b : Beam) : Field := ⟨0x88000C + 0x100000 * m.val + 0x1000 * b.val, 24, 8, 16, .RW⟩
/-- R320: R291 -/
def RCH_SYNC_CFG_SYNC_ERR (m : Mech) (b : Beam) : Field := ⟨0x880010 + 0x100000 * m.val + 0x1000 * b.val, 0, 4, 6, .RW⟩
/-- R320: Channel bits (R291) -/
def RCH_SYNC_CFG_SYNC_WIN (m : Mech) (b : Beam) : Field := ⟨0x880010 + 0x100000 * m.val + 0x1000 * b.val, 4, 8, 16, .RW⟩
/-- R320: R300 -/
def RCH_SYNC_CFG_S_MIN (m : Mech) (b : Beam) : Field := ⟨0x880010 + 0x100000 * m.val + 0x1000 * b.val, 16, 4, 3, .RW⟩
/-- R320: Onset, 1/256 of reference (R297) -/
def RCH_DD_CFG_DD_LVL (m : Mech) (b : Beam) : Field := ⟨0x880014 + 0x100000 * m.val + 0x1000 * b.val, 0, 8, 128, .RW⟩
/-- R320: End, 1/256 of reference -/
def RCH_DD_CFG_DD_HI (m : Mech) (b : Beam) : Field := ⟨0x880014 + 0x100000 * m.val + 0x1000 * b.val, 8, 8, 179, .RW⟩
/-- R320: Channel bits -/
def RCH_DD_CFG_DD_PAD (m : Mech) (b : Beam) : Field := ⟨0x880014 + 0x100000 * m.val + 0x1000 * b.val, 16, 8, 32, .RW⟩
/-- R320: Samples -/
def RCH_DD_CFG_DD_WIN (m : Mech) (b : Beam) : Field := ⟨0x880014 + 0x100000 * m.val + 0x1000 * b.val, 24, 8, 32, .RW⟩
/-- R320: Cause k in [2k − 1:2k − 2]: 0 ignore, 1 SCALE, 2 ERASE (R299) -/
def RCH_HINT_CFG_ACT (m : Mech) (b : Beam) : Field := ⟨0x880018 + 0x100000 * m.val + 0x1000 * b.val, 0, 14, 5461, .RW⟩
/-- R320: Eighths -/
def RCH_HINT_CFG_SCALE (m : Mech) (b : Beam) : Field := ⟨0x880018 + 0x100000 * m.val + 0x1000 * b.val, 14, 3, 4, .RW⟩
/-- R320: Inward sides, signed, channel bits -/
def RCH_XT_DELAY_DLO (m : Mech) (b : Beam) : Field := ⟨0x88001C + 0x100000 * m.val + 0x1000 * b.val, 0, 8, 0, .RW⟩
/-- R320: Outward sides, signed -/
def RCH_XT_DELAY_DHI (m : Mech) (b : Beam) : Field := ⟨0x88001C + 0x100000 * m.val + 0x1000 * b.val, 8, 8, 0, .RW⟩
/-- R320: Readback error of the last frame (R293) -/
def RCH_MSE_LAST (m : Mech) (b : Beam) : Field := ⟨0x880020 + 0x100000 * m.val + 0x1000 * b.val, 0, 16, 0, .RO⟩
/-- R320: Mean over the last 64 frames -/
def RCH_MSE_AVG (m : Mech) (b : Beam) : Field := ⟨0x880020 + 0x100000 * m.val + 0x1000 * b.val, 16, 16, 0, .RO⟩
/-- R320: Frames read -/
def RCH_CNT_FRAME_FRAMES (m : Mech) (b : Beam) : Field := ⟨0x880024 + 0x100000 * m.val + 0x1000 * b.val, 0, 16, 0, .RC⟩
/-- R320: R291 -/
def RCH_CNT_FRAME_SYNC_MISS (m : Mech) (b : Beam) : Field := ⟨0x880024 + 0x100000 * m.val + 0x1000 * b.val, 16, 16, 0, .RC⟩
/-- R320: Samples flagged by R233 and R297 -/
def RCH_CNT_ERASE_ERASED (m : Mech) (b : Beam) : Field := ⟨0x880028 + 0x100000 * m.val + 0x1000 * b.val, 0, 32, 0, .RC⟩
/-- R320: R290 -/
def RCH_CNT_MISC_LOCK_LOSS (m : Mech) (b : Beam) : Field := ⟨0x88002C + 0x100000 * m.val + 0x1000 * b.val, 0, 8, 0, .RC⟩
/-- R320: Words erased (R300) -/
def RCH_CNT_MISC_S_ERASE (m : Mech) (b : Beam) : Field := ⟨0x88002C + 0x100000 * m.val + 0x1000 * b.val, 8, 8, 0, .RC⟩
/-- R320: Frames with a servo hint applied -/
def RCH_CNT_MISC_HINTED (m : Mech) (b : Beam) : Field := ⟨0x88002C + 0x100000 * m.val + 0x1000 * b.val, 16, 16, 0, .RC⟩
/-- R320: Tap k, s1.10; a write sets the starting value -/
def RCH_EQ_COEF (m : Mech) (b : Beam) (s : Fin 2) (k : Fin 15) : Field := ⟨0x880100 + 0x100000 * m.val + 0x1000 * b.val + 0x40 * s.val + 0x4 * k.val, 0, 12, (if k.val = 7 then 0x400 else 0), .RW⟩
/-- R320: s0.11; k = 0–4 side −2, 5–13 side −1, 14–22 side +1, 23–27 side +2; the normal mode uses k = 7–11 and 16–20 -/
def RCH_XT_COEF (m : Mech) (b : Beam) (s : Fin 2) (k : Fin 28) : Field := ⟨0x880200 + 0x100000 * m.val + 0x1000 * b.val + 0x80 * s.val + 0x4 * k.val, 0, 12, 0, .RW⟩
/-- R321: From the CODE record -/
def DEC_CFG_ITER_LIMIT (m : Mech) : Field := ⟨0x8D0800 + 0x100000 * m.val, 0, 7, 0, .RWL⟩
/-- R321: R316 -/
def DEC_CFG_ITER_WARN (m : Mech) : Field := ⟨0x8D0800 + 0x100000 * m.val, 8, 7, 8, .RW⟩
/-- R321: R302 -/
def DEC_CFG_OFS (m : Mech) : Field := ⟨0x8D0800 + 0x100000 * m.val, 16, 4, 2, .RW⟩
/-- R321: 1/1,024 (R303) -/
def DEC_CFG_FLIP_MAX (m : Mech) : Field := ⟨0x8D0800 + 0x100000 * m.val, 20, 8, 40, .RW⟩
/-- R321: Codewords queued -/
def DEC_STAT_QUEUE (m : Mech) : Field := ⟨0x8D0804 + 0x100000 * m.val, 0, 7, 0, .RO⟩
/-- R321: Cores decoding, one bit per core -/
def DEC_STAT_BUSY (m : Mech) : Field := ⟨0x8D0804 + 0x100000 * m.val, 8, 4, 0, .RO⟩
/-- R321: Codewords converged -/
def DEC_CW_CONVERGED (m : Mech) : Field := ⟨0x8D0808 + 0x100000 * m.val, 0, 32, 0, .RC⟩
/-- R321: R303 -/
def DEC_FAIL_ITER (m : Mech) : Field := ⟨0x8D080C + 0x100000 * m.val, 0, 8, 0, .RC⟩
/-- R321: R303 -/
def DEC_FAIL_ERASED (m : Mech) : Field := ⟨0x8D080C + 0x100000 * m.val, 8, 8, 0, .RC⟩
/-- R321: R303 -/
def DEC_FAIL_FLIP (m : Mech) : Field := ⟨0x8D080C + 0x100000 * m.val, 16, 8, 0, .RC⟩
/-- R321: R303 -/
def DEC_FAIL_BACKLOG (m : Mech) : Field := ⟨0x8D080C + 0x100000 * m.val, 24, 8, 0, .RC⟩
/-- R321: Converged after 1–2, 3–4, 5–6, 7–8, 9–12, 13–16, 17–24, 25–64 iterations -/
def DEC_HIST_COUNT (m : Mech) (k : Fin 8) : Field := ⟨0x8D0810 + 0x100000 * m.val + 0x4 * k.val, 0, 32, 0, .RC⟩
/-- R321: Blocks decoded without Goat -/
def DEC_BLOCKS_BLOCKS (m : Mech) : Field := ⟨0x8D0830 + 0x100000 * m.val, 0, 32, 0, .RC⟩
/-- R321: Rung 7 runs -/
def GPE_GRP_DECODES (m : Mech) : Field := ⟨0x8D0834 + 0x100000 * m.val, 0, 16, 0, .RC⟩
/-- R321: Ranges accepted unchecked (R313) -/
def GPE_GRP_UNCHECKED (m : Mech) : Field := ⟨0x8D0834 + 0x100000 * m.val, 16, 16, 0, .RC⟩
/-- R322: Rung 1 reads; 0 skips the rung -/
def GOAT_CFG_REREAD_N (m : Mech) : Field := ⟨0x8D0000 + 0x100000 * m.val, 0, 2, 2, .RW⟩
/-- R322: Rung 2 steps; 0 skips the rung -/
def GOAT_CFG_FOC_STEPS (m : Mech) : Field := ⟨0x8D0000 + 0x100000 * m.val, 2, 2, 2, .RW⟩
/-- R322: R308 -/
def GOAT_CFG_SKIP_EN (m : Mech) : Field := ⟨0x8D0000 + 0x100000 * m.val, 4, 1, 1, .RW⟩
/-- R322: R314; 0 disables refresh -/
def GOAT_CFG_REFRESH_RUNG (m : Mech) : Field := ⟨0x8D0000 + 0x100000 * m.val, 5, 3, 5, .RW⟩
/-- R322: Rung 6 iteration limit -/
def GOAT_CFG_ITER_G (m : Mech) : Field := ⟨0x8D0000 + 0x100000 * m.val, 8, 7, 40, .RW⟩
/-- R322: 1/256 of full scale squared -/
def GOAT_CFG_MARK_LVL (m : Mech) : Field := ⟨0x8D0000 + 0x100000 * m.val, 16, 8, 96, .RW⟩
/-- R322: Channel bits -/
def GOAT_CFG_MARK_WIN (m : Mech) : Field := ⟨0x8D0000 + 0x100000 * m.val, 24, 8, 16, .RW⟩
/-- R322: Focus offset step, Q15 -/
def GOAT_STEP_FSTEP (m : Mech) : Field := ⟨0x8D0004 + 0x100000 * m.val, 0, 16, 512, .RW⟩
/-- R322: Tracking offset, normalised, 9 nm -/
def GOAT_STEP_TSTEP (m : Mech) : Field := ⟨0x8D0004 + 0x100000 * m.val, 16, 16, 3072, .RW⟩
/-- R322: ms (R310) -/
def GOAT_TMO_TMO (m : Mech) : Field := ⟨0x8D0008 + 0x100000 * m.val, 0, 16, 2000, .RW⟩
/-- R322: s (R314) -/
def GOAT_TMO_REFRESH_IDLE (m : Mech) : Field := ⟨0x8D0008 + 0x100000 * m.val, 16, 8, 30, .RW⟩
/-- R322: Contexts in use -/
def GOAT_STAT_CTX (m : Mech) : Field := ⟨0x8D000C + 0x100000 * m.val, 0, 4, 0, .RO⟩
/-- R322: Blocks waiting for a context -/
def GOAT_STAT_WAIT (m : Mech) : Field := ⟨0x8D000C + 0x100000 * m.val, 4, 4, 0, .RO⟩
/-- R322: Contexts waiting for the mechanism (R311) -/
def GOAT_STAT_SUSPENDED (m : Mech) : Field := ⟨0x8D000C + 0x100000 * m.val, 8, 1, 0, .RO⟩
/-- R322: Refreshes queued -/
def GOAT_STAT_REFRESH_Q (m : Mech) : Field := ⟨0x8D000C + 0x100000 * m.val, 16, 16, 0, .RO⟩
/-- R322: Blocks recovered at rung k -/
def GOAT_RUNG_COUNT (m : Mech) (k : Fin 7) : Field := ⟨0x8D0010 + 0x100000 * m.val + 0x4 * k.val, 0, 32, 0, .RC⟩
/-- R322: R315 -/
def GOAT_UNREC_UNREC (m : Mech) : Field := ⟨0x8D0030 + 0x100000 * m.val, 0, 16, 0, .RC⟩
/-- R322: R311 -/
def GOAT_UNREC_ABANDONED (m : Mech) : Field := ⟨0x8D0030 + 0x100000 * m.val, 16, 16, 0, .RC⟩
/-- R322: Last block that ended recovery -/
def GOAT_LAST_PBA_PBA (m : Mech) : Field := ⟨0x8D0034 + 0x100000 * m.val, 0, 32, 0, .RO⟩
/-- R322: Last rung reached -/
def GOAT_LAST_RUNG (m : Mech) : Field := ⟨0x8D0038 + 0x100000 * m.val, 0, 3, 0, .RO⟩
/-- R322: Every codeword converged -/
def GOAT_LAST_RECOVERED (m : Mech) : Field := ⟨0x8D0038 + 0x100000 * m.val, 3, 1, 0, .RO⟩
/-- R322: R308 applied -/
def GOAT_LAST_SKIPPED (m : Mech) : Field := ⟨0x8D0038 + 0x100000 * m.val, 4, 1, 0, .RO⟩
/-- R322: Sectors unrecovered (R315) -/
def GOAT_LAST_MASK (m : Mech) : Field := ⟨0x8D0038 + 0x100000 * m.val, 16, 16, 0, .RO⟩
/-- R322: SPARED entries written -/
def GOAT_REFRESH_DONE (m : Mech) : Field := ⟨0x8D003C + 0x100000 * m.val, 0, 16, 0, .RC⟩
/-- R322: R314 -/
def GOAT_REFRESH_SKIPPED (m : Mech) : Field := ⟨0x8D003C + 0x100000 * m.val, 16, 16, 0, .RC⟩
/-- R322: R316 -/
def GOAT_BKT_INC0_INC_ITER (m : Mech) : Field := ⟨0x8D0040 + 0x100000 * m.val, 0, 8, 1, .RW⟩
/-- R322: R316 -/
def GOAT_BKT_INC0_INC_LO (m : Mech) : Field := ⟨0x8D0040 + 0x100000 * m.val, 8, 8, 4, .RW⟩
/-- R322: R316 -/
def GOAT_BKT_INC0_INC_HI (m : Mech) : Field := ⟨0x8D0040 + 0x100000 * m.val, 16, 8, 16, .RW⟩
/-- R322: R316 -/
def GOAT_BKT_INC0_INC_GROUP (m : Mech) : Field := ⟨0x8D0040 + 0x100000 * m.val, 24, 8, 64, .RW⟩
/-- R322: R316 -/
def GOAT_BKT_INC1_INC_MARG (m : Mech) : Field := ⟨0x8D0044 + 0x100000 * m.val, 0, 8, 1, .RW⟩
/-- R322: R316 -/
def GOAT_BKT_INC1_INC_FAIL (m : Mech) : Field := ⟨0x8D0044 + 0x100000 * m.val, 8, 8, 8, .RW⟩
/-- R322: R316 -/
def GOAT_BKT_CFG_DEPTH (m : Mech) : Field := ⟨0x8D0048 + 0x100000 * m.val, 0, 16, 1000, .RW⟩
/-- R322: ms per unit -/
def GOAT_BKT_CFG_LEAK_MS (m : Mech) : Field := ⟨0x8D0048 + 0x100000 * m.val, 16, 16, 100, .RW⟩
/-- R322: Bucket level -/
def GOAT_BKT_LVL_LEVEL (m : Mech) : Field := ⟨0x8D004C + 0x100000 * m.val, 0, 16, 0, .RO⟩
/-- R322: R316 -/
def GOAT_BKT_LVL_ARMED (m : Mech) : Field := ⟨0x8D004C + 0x100000 * m.val, 16, 1, 1, .RO⟩
/-- R322: Overflows -/
def GOAT_BKT_OVF_OVF (m : Mech) : Field := ⟨0x8D0050 + 0x100000 * m.val, 0, 16, 0, .RC⟩
/-- R322: R316 -/
def GOAT_EVENT_BUCKET (m : Mech) : Field := ⟨0x8D0060 + 0x100000 * m.val, 0, 1, 0, .RW1C⟩
/-- R322: R315 -/
def GOAT_EVENT_UNREC (m : Mech) : Field := ⟨0x8D0060 + 0x100000 * m.val, 1, 1, 0, .RW1C⟩
/-- R322: Rung 7 ran -/
def GOAT_EVENT_GROUP (m : Mech) : Field := ⟨0x8D0060 + 0x100000 * m.val, 2, 1, 0, .RW1C⟩
/-- R322: R314 -/
def GOAT_EVENT_REFRESH_SKIP (m : Mech) : Field := ⟨0x8D0060 + 0x100000 * m.val, 3, 1, 0, .RW1C⟩
/-- R322: R311 -/
def GOAT_EVENT_ABANDON (m : Mech) : Field := ⟨0x8D0060 + 0x100000 * m.val, 4, 1, 0, .RW1C⟩
/-- R322: Interrupt enable per event bit -/
def GOAT_EVENT_EN_EN (m : Mech) : Field := ⟨0x8D0064 + 0x100000 * m.val, 0, 5, 3, .RW⟩
/-- R323: Entries in use -/
def DRT_STAT_USED (m : Mech) : Field := ⟨0x8D4000 + 0x100000 * m.val, 0, 12, 0, .RO⟩
/-- R323: R319 -/
def DRT_STAT_LOADED (m : Mech) : Field := ⟨0x8D4000 + 0x100000 * m.val, 12, 1, 0, .RO⟩
/-- R323: R319 -/
def DRT_STAT_FULL (m : Mech) : Field := ⟨0x8D4000 + 0x100000 * m.val, 13, 1, 0, .RO⟩
/-- R323: Entries with PERSISTED 0 -/
def DRT_STAT_UNPERSISTED (m : Mech) : Field := ⟨0x8D4000 + 0x100000 * m.val, 16, 12, 0, .RO⟩
/-- R323: Starts a lookup of this PBA -/
def DRT_LOOKUP_PBA (m : Mech) : Field := ⟨0x8D4004 + 0x100000 * m.val, 0, 32, 0, .WO⟩
/-- R323: The lookup has completed -/
def DRT_LOOKUP_RES_DONE (m : Mech) : Field := ⟨0x8D4008 + 0x100000 * m.val, 0, 1, 0, .RO⟩
/-- R323: An entry maps the PBA -/
def DRT_LOOKUP_RES_HIT (m : Mech) : Field := ⟨0x8D4008 + 0x100000 * m.val, 1, 1, 0, .RO⟩
/-- R323: Index of that entry -/
def DRT_LOOKUP_RES_INDEX (m : Mech) : Field := ⟨0x8D4008 + 0x100000 * m.val, 2, 11, 0, .RO⟩
/-- R323: TO of that entry -/
def DRT_LOOKUP_TO_TO (m : Mech) : Field := ⟨0x8D400C + 0x100000 * m.val, 0, 32, 0, .RO⟩
/-- R323: Media lookups that hit (R18) -/
def DRT_CNT_HIT_HITS (m : Mech) : Field := ⟨0x8D4010 + 0x100000 * m.val, 0, 32, 0, .RC⟩
/-- R323: Entries created -/
def DRT_CNT_NEW_CREATED (m : Mech) : Field := ⟨0x8D4014 + 0x100000 * m.val, 0, 16, 0, .RC⟩
/-- R323: Entries rewritten (R318) -/
def DRT_CNT_NEW_RETARGET (m : Mech) : Field := ⟨0x8D4014 + 0x100000 * m.val, 16, 16, 0, .RC⟩
/-- R348: Active channels -/
def BUF_STAT_ACTIVE : Field := ⟨0x400000, 0, 5, 0, .RO⟩
/-- R348: R345 -/
def BUF_STAT_PRESSURE : Field := ⟨0x400000, 5, 1, 0, .RO⟩
/-- R348: R333 -/
def BUF_STAT_RETIRING : Field := ⟨0x400000, 6, 1, 0, .RO⟩
/-- R348: R335 -/
def BUF_STAT_FAILED : Field := ⟨0x400000, 7, 1, 0, .RO⟩
/-- R348: One bit per active channel -/
def BUF_CH_ACTIVE_MASK : Field := ⟨0x400004, 0, 24, 0, .RO⟩
/-- R348: R328 -/
def BUF_CTL_SCRUB_EN : Field := ⟨0x400008, 0, 1, 1, .RW⟩
/-- R348: R325 -/
def BUF_CTL_SR_EN : Field := ⟨0x400008, 1, 1, 1, .RW⟩
/-- R348: BAR2 writes take effect; otherwise they are ignored and logged with source 0x14 and code 0x0903 -/
def BUF_CTL_BAR2_WR_EN : Field := ⟨0x400008, 2, 1, 0, .RW⟩
/-- R348: Channel to retire -/
def BUF_RETIRE_CH : Field := ⟨0x40000C, 0, 5, 0, .RW⟩
/-- R348: R332 -/
def BUF_RETIRE_GO : Field := ⟨0x40000C, 31, 1, 0, .WO⟩
/-- R348: Scrub period, hours -/
def BUF_SCRUB_CFG_PERIOD_H : Field := ⟨0x400010, 0, 8, 24, .RW⟩
/-- R348: R330 -/
def BUF_SCRUB_CFG_CE_ROW_THR : Field := ⟨0x400010, 8, 8, 2, .RW⟩
/-- R348: Corrected errors per hour (R332) -/
def BUF_SCRUB_CFG_CE_CH_THR : Field := ⟨0x400010, 16, 16, 1000, .RW⟩
/-- R348: µs (R325) -/
def BUF_PWR_SR_DWELL : Field := ⟨0x400014, 0, 16, 200, .RW⟩
/-- R348: 100 MB/s units (R333) -/
def BUF_PWR_RETIRE_BW : Field := ⟨0x400014, 16, 16, 80, .RW⟩
/-- R348: Size in force, MiB (R334) -/
def BUF_SZ_MIB (i : Fin 5) : Field := ⟨0x400020 + 0x4 * i.val, 0, 32, 0, .RO⟩
/-- R348: From BUFFER_PLAN -/
def BUF_WM_HIGH_WM : Field := ⟨0x400034, 0, 8, 0, .RWL⟩
/-- R348: From BUFFER_PLAN -/
def BUF_WM_LOW_WM : Field := ⟨0x400034, 8, 8, 0, .RWL⟩
/-- R348: From BUFFER_PLAN -/
def BUF_WM_RES_SHARE : Field := ⟨0x400034, 16, 8, 0, .RWL⟩
/-- R348: From BUFFER_PLAN -/
def BUF_RES_CFG_HORIZON_MS : Field := ⟨0x400038, 0, 16, 0, .RWL⟩
/-- R348: From BUFFER_PLAN -/
def BUF_RES_CFG_RES_WINDOW_MS : Field := ⟨0x400038, 16, 16, 0, .RWL⟩
/-- R348: Occupancy, MiB -/
def BUF_OCC_MIB (i : Fin 5) : Field := ⟨0x400040 + 0x4 * i.val, 0, 32, 0, .RO⟩
/-- R348: HELD, MiB -/
def BUF_HELD_MIB : Field := ⟨0x400054, 0, 32, 0, .RO⟩
/-- R348: Open reservations, MB/s -/
def BUF_RES_SUM_SUM : Field := ⟨0x400058, 0, 32, 0, .RO⟩
/-- R348: Ratio of R342, 1/65,536; 0xFFFF when not scaled -/
def BUF_RES_SCALE_SCALE : Field := ⟨0x40005C, 0, 16, 65535, .RO⟩
/-- R348: MB/s (R339) -/
def BUF_RATE_D_D_NOW : Field := ⟨0x400060, 0, 32, 0, .RO⟩
/-- R348: MB/s -/
def BUF_RATE_M_M_NOW : Field := ⟨0x400064, 0, 32, 0, .RO⟩
/-- R348: MB/s -/
def BUF_RATE_R_R_USED : Field := ⟨0x400068, 0, 32, 0, .RO⟩
/-- R348: MB/s -/
def BUF_RATE_U_U_RATE : Field := ⟨0x40006C, 0, 32, 0, .RO⟩
/-- R348: Writes Served -/
def BUF_OUT_SERVED_COUNT : Field := ⟨0x400070, 0, 32, 0, .RC⟩
/-- R348: Writes and reads Delayed by admission -/
def BUF_OUT_DELAYED_COUNT : Field := ⟨0x400074, 0, 32, 0, .RC⟩
/-- R348: Writes Refused, BUFFER_PRESSURE -/
def BUF_OUT_REFUSED_COUNT : Field := ⟨0x400078, 0, 32, 0, .RC⟩
/-- R348: Longest admission wait, µs -/
def BUF_HOLD_MAX_US : Field := ⟨0x40007C, 0, 32, 0, .RC⟩
/-- R348: R338 -/
def BUF_UNDERRUN_COUNT : Field := ⟨0x400080, 0, 32, 0, .RC⟩
/-- R348: R345 -/
def BUF_EVENT_PRESSURE_ON : Field := ⟨0x400084, 0, 1, 0, .RW1C⟩
/-- R348: R345 -/
def BUF_EVENT_PRESSURE_OFF : Field := ⟨0x400084, 1, 1, 0, .RW1C⟩
/-- R348: R342 -/
def BUF_EVENT_RES_SCALED : Field := ⟨0x400084, 2, 1, 0, .RW1C⟩
/-- R348: R330 -/
def BUF_EVENT_CE_ROW : Field := ⟨0x400084, 3, 1, 0, .RW1C⟩
/-- R348: R327 -/
def BUF_EVENT_UE : Field := ⟨0x400084, 4, 1, 0, .RW1C⟩
/-- R348: R329 -/
def BUF_EVENT_DATA_LOST : Field := ⟨0x400084, 5, 1, 0, .RW1C⟩
/-- R348: R333 -/
def BUF_EVENT_RETIRE_START : Field := ⟨0x400084, 6, 1, 0, .RW1C⟩
/-- R348: R333 -/
def BUF_EVENT_RETIRE_DONE : Field := ⟨0x400084, 7, 1, 0, .RW1C⟩
/-- R348: R335 -/
def BUF_EVENT_BUFFER_FAILED : Field := ⟨0x400084, 8, 1, 0, .RW1C⟩
/-- R348: R325 -/
def BUF_EVENT_MR4_HOT : Field := ⟨0x400084, 9, 1, 0, .RW1C⟩
/-- R348: R338 -/
def BUF_EVENT_UNDERRUN : Field := ⟨0x400084, 10, 1, 0, .RW1C⟩
/-- R348: R337 -/
def BUF_EVENT_RETAINED_SPILL : Field := ⟨0x400084, 11, 1, 0, .RW1C⟩
/-- R348: Interrupt enable per event bit -/
def BUF_EVENT_EN_EN : Field := ⟨0x400088, 0, 12, 948, .RW⟩
/-- R348: I/O slots held by the port -/
def BUF_PORT_CREDIT_USED (p : Port) : Field := ⟨0x400100 + 0x20 * p.idx, 0, 12, 0, .RO⟩
/-- R348: R347 -/
def BUF_PORT_CREDIT_LIMIT (p : Port) : Field := ⟨0x400100 + 0x20 * p.idx, 16, 12, 2048, .RW⟩
/-- R348: Bit i: queue 32w + i paused (R347) -/
def BUF_PORT_PAUSE_PAUSED (p : Port) (w : Fin 4) : Field := ⟨0x400104 + 0x20 * p.idx + 0x4 * w.val, 0, 32, 0, .RO⟩
/-- R348: Fetch pauses -/
def BUF_PORT_PAUSE_CNT_COUNT (p : Port) : Field := ⟨0x400114 + 0x20 * p.idx, 0, 32, 0, .RC⟩
/-- R349: 0 absent, 1 training, 2 active, 3 retiring, 4 retired, 5 failed -/
def BUF_CH_STAT_STATE (c : Chan) : Field := ⟨0x401000 + 0x40 * c.val, 0, 3, 0, .RO⟩
/-- R349: In self-refresh -/
def BUF_CH_STAT_SR (c : Chan) : Field := ⟨0x401000 + 0x40 * c.val, 3, 1, 0, .RO⟩
/-- R349: Refresh-rate code from MR4 -/
def BUF_CH_STAT_REFRESH (c : Chan) : Field := ⟨0x401000 + 0x40 * c.val, 4, 3, 0, .RO⟩
/-- R349: R325 -/
def BUF_CH_STAT_HOT (c : Chan) : Field := ⟨0x401000 + 0x40 * c.val, 7, 1, 0, .RO⟩
/-- R349: Banks with a hard-repair resource (R331) -/
def BUF_CH_STAT_PPR_LEFT (c : Chan) : Field := ⟨0x401000 + 0x40 * c.val, 8, 8, 0, .RO⟩
/-- R349: Soft repairs in use, 0–32 (R330) -/
def BUF_CH_STAT_SOFT_USED (c : Chan) : Field := ⟨0x401000 + 0x40 * c.val, 16, 6, 0, .RO⟩
/-- R349: Corrected errors -/
def BUF_CH_CE_COUNT (c : Chan) : Field := ⟨0x401004 + 0x40 * c.val, 0, 32, 0, .RC⟩
/-- R349: Uncorrectable errors -/
def BUF_CH_UE_COUNT (c : Chan) : Field := ⟨0x401008 + 0x40 * c.val, 0, 16, 0, .RC⟩
/-- R349: Buffer address of the last uncorrectable error, low word; latches the high word (R6) -/
def BUF_CH_ERR_ADDR_LO_ADDR (c : Chan) : Field := ⟨0x40100C + 0x40 * c.val, 0, 32, 0, .RO⟩
/-- R349: High word -/
def BUF_CH_ERR_ADDR_HI_ADDR (c : Chan) : Field := ⟨0x401010 + 0x40 * c.val, 0, 32, 0, .RO⟩
/-- R354: SQ base, low word. Bits [5:0] must be 0. -/
def QE_SQB_LO_ADDR (p : Port) (q : Pair) : Field := ⟨0x101000 + 0x1000 * p.idx + 0x20 * q.val, 0, 32, 0, .RW⟩
/-- R354: SQ base, high word -/
def QE_SQB_HI_ADDR (p : Port) (q : Pair) : Field := ⟨0x101004 + 0x1000 * p.idx + 0x20 * q.val, 0, 32, 0, .RW⟩
/-- R354: CQ base, low word. Bits [3:0] must be 0. -/
def QE_CQB_LO_ADDR (p : Port) (q : Pair) : Field := ⟨0x101008 + 0x1000 * p.idx + 0x20 * q.val, 0, 32, 0, .RW⟩
/-- R354: CQ base, high word -/
def QE_CQB_HI_ADDR (p : Port) (q : Pair) : Field := ⟨0x10100C + 0x1000 * p.idx + 0x20 * q.val, 0, 32, 0, .RW⟩
/-- R354: Entries in each ring, minus 1. Valid range 1–4,095. -/
def QE_QCFG_SIZE (p : Port) (q : Pair) : Field := ⟨0x101010 + 0x1000 * p.idx + 0x20 * q.val, 0, 12, 0, .RW⟩
/-- R354: MSI-X vector of the CQ, 0–127 -/
def QE_QCFG_VECTOR (p : Port) (q : Pair) : Field := ⟨0x101010 + 0x1000 * p.idx + 0x20 * q.val, 12, 7, 0, .RW⟩
/-- R354: Interrupt on posting -/
def QE_QCFG_IEN (p : Port) (q : Pair) : Field := ⟨0x101010 + 0x1000 * p.idx + 0x20 * q.val, 19, 1, 1, .RW⟩
/-- R354: 0 high, 1 medium, 2 low, 3 treated as low. Ignored for pair 0. -/
def QE_QCFG_PRIO (p : Port) (q : Pair) : Field := ⟨0x101010 + 0x1000 * p.idx + 0x20 * q.val, 20, 2, 1, .RW⟩
/-- R354: Entries per interrupt; 0 and 1 both mean every entry -/
def QE_QCFG_AGG_N (p : Port) (q : Pair) : Field := ⟨0x101010 + 0x1000 * p.idx + 0x20 * q.val, 24, 4, 0, .RW⟩
/-- R354: Longest wait before an interrupt, 8 µs units; 0 means none -/
def QE_QCFG_AGG_T (p : Port) (q : Pair) : Field := ⟨0x101010 + 0x1000 * p.idx + 0x20 * q.val, 28, 4, 0, .RW⟩
/-- R354: Pair enabled -/
def QE_QCTL_EN (p : Port) (q : Pair) : Field := ⟨0x101014 + 0x1000 * p.idx + 0x20 * q.val, 0, 1, 0, .RW⟩
/-- R354: 0 disabled, 1 enabled, 2 frozen, 3 draining, 4 failed -/
def QE_QCTL_STATE (p : Port) (q : Pair) : Field := ⟨0x101014 + 0x1000 * p.idx + 0x20 * q.val, 1, 3, 0, .RO⟩
/-- R354: Next SQ entry to fetch -/
def QE_QPTR_SQ_HEAD (p : Port) (q : Pair) : Field := ⟨0x101018 + 0x1000 * p.idx + 0x20 * q.val, 0, 12, 0, .RO⟩
/-- R354: Next CQ entry to write -/
def QE_QPTR_CQ_TAIL (p : Port) (q : Pair) : Field := ⟨0x101018 + 0x1000 * p.idx + 0x20 * q.val, 16, 12, 0, .RO⟩
/-- R354: Phase bit being written -/
def QE_QPTR_PHASE (p : Port) (q : Pair) : Field := ⟨0x101018 + 0x1000 * p.idx + 0x20 * q.val, 28, 1, 0, .RO⟩
/-- R354: Entries fetched -/
def QE_QCNT_FETCHED (p : Port) (q : Pair) : Field := ⟨0x10101C + 0x1000 * p.idx + 0x20 * q.val, 0, 16, 0, .RC⟩
/-- R354: Freezes of this SQ -/
def QE_QCNT_FREEZES (p : Port) (q : Pair) : Field := ⟨0x10101C + 0x1000 * p.idx + 0x20 * q.val, 16, 16, 0, .RC⟩
/-- R355: New SQ tail -/
def HQ_SQTAIL_TAIL (q : Pair) : Field := ⟨0x40000 + 0x10 * q.val, 0, 12, 0, .WO⟩
/-- R355: New CQ head, the next entry the host will read -/
def HQ_CQHEAD_HEAD (q : Pair) : Field := ⟨0x40004 + 0x10 * q.val, 0, 12, 0, .WO⟩
/-- R355: SQ head from which fetching resumes (R376) -/
def HQ_RESTART_NEW_HEAD (q : Pair) : Field := ⟨0x40008 + 0x10 * q.val, 0, 12, 0, .WO⟩
/-- R355: 1: resume at the present SQ head, ignoring NEW_HEAD -/
def HQ_RESTART_KEEP (q : Pair) : Field := ⟨0x40008 + 0x10 * q.val, 31, 1, 0, .WO⟩
/-- R389: Command slots in use -/
def QE_STAT_SLOTS_USED : Field := ⟨0x100000, 0, 13, 0, .RO⟩
/-- R389: FAILOVER value (R384) -/
def QE_FO_EN : Field := ⟨0x100004, 0, 1, 0, .RO⟩
/-- R389: R384 -/
def QE_FO_FOCQ_A : Field := ⟨0x100004, 8, 7, 1, .RO⟩
/-- R389: R384 -/
def QE_FO_FOCQ_B : Field := ⟨0x100004, 16, 7, 1, .RO⟩
/-- R389: R384 -/
def QE_FO_EVT_ROUTE : Field := ⟨0x100004, 24, 1, 0, .RO⟩
/-- R389: Port receiving vectors 128–145 (R387) -/
def QE_FO_EVT_ACTIVE : Field := ⟨0x100004, 25, 1, 0, .RO⟩
/-- R389: R386 -/
def QE_FO_CNT_DROPPED : Field := ⟨0x100008, 0, 16, 0, .RC⟩
/-- R389: R387 -/
def QE_FO_CNT_REDIRECTED : Field := ⟨0x100008, 16, 16, 0, .RC⟩
/-- R389: Commands that waited for a lock -/
def QE_LOCK_WAIT_COUNT : Field := ⟨0x10000C, 0, 16, 0, .RC⟩
/-- R389: Longest lock wait, µs -/
def QE_LOCK_WAIT_MAX_US : Field := ⟨0x10000C, 16, 16, 0, .RC⟩
/-- R389: Targets aborted -/
def QE_ABORT_CNT_ABORTED : Field := ⟨0x100010, 0, 16, 0, .RC⟩
/-- R389: Aborts answered ALREADY_COMPLETE -/
def QE_ABORT_CNT_LATE : Field := ⟨0x100010, 16, 16, 0, .RC⟩
/-- R389: Media requests re-issued (R366) -/
def QE_REISSUE_COUNT : Field := ⟨0x100014, 0, 16, 0, .RC⟩
/-- R414: 0 stopped, 1 running, 2 activating -/
def ARC_STAT_STATE : Field := ⟨0x700000, 0, 2, 0, .RO⟩
/-- R414: Open streams -/
def ARC_STAT_STREAMS : Field := ⟨0x700000, 16, 14, 0, .RO⟩
/-- R414: R412 -/
def ARC_CTL_EVT_IEN : Field := ⟨0x700004, 0, 1, 1, .RW⟩
/-- R414: R413 -/
def ARC_MBOX_CMD_OP : Field := ⟨0x700008, 0, 8, 0, .WO⟩
/-- R414: Mechanism -/
def ARC_MBOX_CMD_MECH : Field := ⟨0x700008, 8, 4, 0, .WO⟩
/-- R414: 0 idle, 1 busy, 2 done, 3 refused -/
def ARC_MBOX_STAT_RESULT : Field := ⟨0x70000C, 0, 2, 0, .RO⟩
/-- R414: OP reported -/
def ARC_MBOX_STAT_OP : Field := ⟨0x70000C, 8, 8, 0, .RO⟩
/-- R414: Refusal code (R413) -/
def ARC_MBOX_STAT_CODE : Field := ⟨0x70000C, 16, 8, 0, .RO⟩
/-- R414: Sequence number of the next event; wraps -/
def ARC_EVT_PROD_SEQ : Field := ⟨0x700010, 0, 32, 0, .RO⟩
/-- R414: GAP in force, ms (R408) -/
def ARC_GAP_GAP : Field := ⟨0x700014, 0, 32, 0, .RO⟩
/-- R414: Contexts in use, draining included (R393) -/
def ARC_CTX_USED : Field := ⟨0x700018, 0, 14, 0, .RO⟩
/-- R414: Most contexts in use since last read -/
def ARC_CTX_MAX : Field := ⟨0x700018, 16, 14, 0, .RC⟩
/-- R414: 0 not eligible, 1 eligible, 2 awaiting join, 3 held, 4 disc full, 5 no disc -/
def ARC_MECH_PLACE (m : Mech) : Field := ⟨0x700100 + 0x4 * m.val, 0, 3, 0, .RO⟩
/-- R414: The disc is blank -/
def ARC_MECH_BLANK (m : Mech) : Field := ⟨0x700100 + 0x4 * m.val, 3, 1, 0, .RO⟩
/-- R414: Disc data slots placed, % -/
def ARC_MECH_FILL (m : Mech) : Field := ⟨0x700100 + 0x4 * m.val, 8, 8, 0, .RO⟩
/-- R414: Seconds until the join time, 0 once joined -/
def ARC_MECH_JOIN_S (m : Mech) : Field := ⟨0x700100 + 0x4 * m.val, 16, 16, 0, .RO⟩
/-- R430: Channels 0–31 in RUNNING or WAITING -/
def DMA_RUN_LO_RUN : Field := ⟨0x300000, 0, 32, 0, .RO⟩
/-- R430: Channels 32–63 -/
def DMA_RUN_HI_RUN : Field := ⟨0x300004, 0, 32, 0, .RO⟩
/-- R430: Channels 0–31 in HALTED -/
def DMA_HALT_LO_HALT : Field := ⟨0x300008, 0, 32, 0, .RO⟩
/-- R430: Channels 32–63 -/
def DMA_HALT_HI_HALT : Field := ⟨0x30000C, 0, 32, 0, .RO⟩
/-- R430: Host program window, buffer address, low word; latches the high word (R6) -/
def DMA_HOST_BASE_LO_BASE : Field := ⟨0x300010, 0, 32, 0, .RO⟩
/-- R430: High word -/
def DMA_HOST_BASE_HI_BASE : Field := ⟨0x300014, 0, 32, 0, .RO⟩
/-- R430: Window size in bytes, 1 MiB after boot -/
def DMA_HOST_SIZE_SIZE : Field := ⟨0x300018, 0, 32, 0, .RO⟩
/-- R430: Semaphore i. A software write sets it, and a device update in the same cycle is lost. -/
def DMA_SEM_VALUE (i : Fin 64) : Field := ⟨0x300100 + 0x4 * i.val, 0, 32, 0, .RW⟩
/-- R431: R424 -/
def DMA_CH_CTL_START (n : DmaCh) : Field := ⟨0x301000 + 0x40 * n.val, 0, 1, 0, .WO⟩
/-- R431: R425 -/
def DMA_CH_CTL_STOP (n : DmaCh) : Field := ⟨0x301000 + 0x40 * n.val, 1, 1, 0, .WO⟩
/-- R431: R424 -/
def DMA_CH_CTL_CLEAR (n : DmaCh) : Field := ⟨0x301000 + 0x40 * n.val, 2, 1, 0, .WO⟩
/-- R431: Written by the service firmware only (R415) -/
def DMA_CH_CFG_OWNER (n : DmaCh) : Field := ⟨0x301004 + 0x40 * n.val, 0, 2, (dmaOwnerReset n.val), .RO⟩
/-- R431: R426 -/
def DMA_CH_CFG_RETRY (n : DmaCh) : Field := ⟨0x301004 + 0x40 * n.val, 2, 4, 3, .RW⟩
/-- R431: R427 -/
def DMA_CH_CFG_EPOCH_STOP (n : DmaCh) : Field := ⟨0x301004 + 0x40 * n.val, 6, 1, 0, .RW⟩
/-- R431: R424 -/
def DMA_CH_STAT_STATE (n : DmaCh) : Field := ⟨0x301008 + 0x40 * n.val, 0, 3, 0, .RO⟩
/-- R431: R425 -/
def DMA_CH_STAT_STOP_PENDING (n : DmaCh) : Field := ⟨0x301008 + 0x40 * n.val, 3, 1, 0, .RO⟩
/-- R431: R428 -/
def DMA_CH_STAT_HALT (n : DmaCh) : Field := ⟨0x301008 + 0x40 * n.val, 4, 4, 0, .RO⟩
/-- R431: Program counter, low word; latches the high word (R6) -/
def DMA_CH_PC_LO_PC (n : DmaCh) : Field := ⟨0x30100C + 0x40 * n.val, 0, 32, 0, .RW⟩
/-- R431: High word -/
def DMA_CH_PC_HI_PC (n : DmaCh) : Field := ⟨0x301010 + 0x40 * n.val, 0, 32, 0, .RW⟩
/-- R431: Address of the faulting access, low word; latches the high word -/
def DMA_CH_FAULT_LO_ADDR (n : DmaCh) : Field := ⟨0x301014 + 0x40 * n.val, 0, 32, 0, .RO⟩
/-- R431: High word -/
def DMA_CH_FAULT_HI_ADDR (n : DmaCh) : Field := ⟨0x301018 + 0x40 * n.val, 0, 32, 0, .RO⟩
/-- R431: Space of the faulting access -/
def DMA_CH_FAULT_SP_SPACE (n : DmaCh) : Field := ⟨0x30101C + 0x40 * n.val, 0, 2, 0, .RO⟩
/-- R431: Loop counter k -/
def DMA_CH_CNT_CNT (n : DmaCh) (k : Fin 4) : Field := ⟨0x301020 + 0x40 * n.val + 0x4 * k.val, 0, 24, 0, .RO⟩
/-- R431: Bytes moved -/
def DMA_CH_BYTES_BYTES (n : DmaCh) : Field := ⟨0x301030 + 0x40 * n.val, 0, 32, 0, .RC⟩
/-- R431: Bus retries (R426) -/
def DMA_CH_RETRY_BUS (n : DmaCh) : Field := ⟨0x301034 + 0x40 * n.val, 0, 16, 0, .RC⟩
/-- R431: Epoch re-issues (R427) -/
def DMA_CH_RETRY_EPOCH (n : DmaCh) : Field := ⟨0x301034 + 0x40 * n.val, 16, 16, 0, .RC⟩
/-- R444: R442 -/
def MDC_CTL_EN : Field := ⟨0x200000, 0, 1, 1, .RW⟩
/-- R444: R435 -/
def MDC_CTL_PREFETCH : Field := ⟨0x200000, 1, 1, 1, .RW⟩
/-- R444: From BUFFER_PLAN (R437) -/
def MDC_STAT_LOCKED_WAYS : Field := ⟨0x200004, 0, 3, 0, .RO⟩
/-- R444: R443 -/
def MDC_STAT_STALE_RISK : Field := ⟨0x200004, 3, 1, 0, .RW1C⟩
/-- R444: The unlocked ways serve requests -/
def MDC_STAT_ENABLED : Field := ⟨0x200004, 4, 1, 0, .RO⟩
/-- R444: Miss registers in use -/
def MDC_STAT_MISS_USED : Field := ⟨0x200004, 6, 7, 0, .RO⟩
/-- R444: Buffer address, low word; bits [6:0] are ignored -/
def MDC_MAINT_ADDR_LO_ADDR : Field := ⟨0x200008, 0, 32, 0, .RW⟩
/-- R444: High word -/
def MDC_MAINT_ADDR_HI_ADDR : Field := ⟨0x20000C, 0, 32, 0, .RW⟩
/-- R444: Lines, for range operations -/
def MDC_MAINT_LEN_LEN : Field := ⟨0x200010, 0, 24, 0, .RW⟩
/-- R444: R438; 6 and 7 complete as rejected -/
def MDC_MAINT_CMD_OP : Field := ⟨0x200014, 0, 3, 0, .RW⟩
/-- R444: 1 by range, 0 by address -/
def MDC_MAINT_CMD_RANGE : Field := ⟨0x200014, 3, 1, 0, .RW⟩
/-- R444: R438 -/
def MDC_MAINT_CMD_FORCE : Field := ⟨0x200014, 4, 1, 0, .RW⟩
/-- R444: Starts the operation (R439) -/
def MDC_MAINT_CMD_GO : Field := ⟨0x200014, 31, 1, 0, .WO⟩
/-- R444: 0 idle, 1 busy, 2 done, 3 rejected -/
def MDC_MAINT_STAT_RESULT : Field := ⟨0x200018, 0, 2, 0, .RO⟩
/-- R444: Lines skipped by the last host operation -/
def MDC_MAINT_SKIP_SKIPPED : Field := ⟨0x20001C, 0, 32, 0, .RO⟩
/-- R444: Lines acted on by the last host operation -/
def MDC_MAINT_DONE_DONE : Field := ⟨0x200020, 0, 32, 0, .RO⟩
/-- R444: Hits -/
def MDC_HIT_HITS : Field := ⟨0x200040, 0, 32, 0, .RC⟩
/-- R444: Demand misses -/
def MDC_MISS_MISSES : Field := ⟨0x200044, 0, 32, 0, .RC⟩
/-- R444: Requests merged into a held fill (R434) -/
def MDC_MERGE_MERGED : Field := ⟨0x200048, 0, 32, 0, .RC⟩
/-- R444: Cycles a miss waited for a register (R434) -/
def MDC_MISS_FULL_CYCLES : Field := ⟨0x20004C, 0, 32, 0, .RC⟩
/-- R444: Prefetches issued (R435) -/
def MDC_PF_ISSUED : Field := ⟨0x200050, 0, 16, 0, .RC⟩
/-- R444: Prefetched lines later hit -/
def MDC_PF_USED : Field := ⟨0x200050, 16, 16, 0, .RC⟩
/-- R444: Dirty victims written back (R436) -/
def MDC_EVICT_DIRTY : Field := ⟨0x200054, 0, 32, 0, .RC⟩
/-- R444: Dirty lines discarded by INVALIDATE, INV_ALL or an immediate reset (R74) -/
def MDC_DISCARD_LINES : Field := ⟨0x200058, 0, 32, 0, .RC⟩
/-- R444: R443 -/
def MDC_STALE_HITS_HITS : Field := ⟨0x20005C, 0, 32, 0, .RC⟩
/-- R444: Lines with LOCK = 1 -/
def MDC_LOCKED_LINES : Field := ⟨0x200060, 0, 16, 0, .RO⟩
/-- R466: A routine is running -/
def FSQ_STAT_BUSY (m : Mech) : Field := ⟨0x850000 + 0x100000 * m.val, 0, 1, 0, .RO⟩
/-- R466: Entry of that routine -/
def FSQ_STAT_ENTRY (m : Mech) : Field := ⟨0x850000 + 0x100000 * m.val, 1, 4, 0, .RO⟩
/-- R466: Present address -/
def FSQ_STAT_PC (m : Mech) : Field := ⟨0x850000 + 0x100000 * m.val, 5, 12, 0, .RO⟩
/-- R466: R459 -/
def FSQ_STAT_HALTED (m : Mech) : Field := ⟨0x850000 + 0x100000 * m.val, 17, 1, 0, .RO⟩
/-- R466: An FSQ run is in progress (R455) -/
def FSQ_STAT_RUN (m : Mech) : Field := ⟨0x850000 + 0x100000 * m.val, 18, 1, 0, .RO⟩
/-- R466: The run has opened a write gate -/
def FSQ_STAT_WRITE (m : Mech) : Field := ⟨0x850000 + 0x100000 * m.val, 19, 1, 0, .RO⟩
/-- R466: Clears HALTED (R459) -/
def FSQ_CTL_RESUME (m : Mech) : Field := ⟨0x850004 + 0x100000 * m.val, 0, 1, 0, .WO⟩
/-- R466: R464 -/
def FSQ_CTL_USER_GO (m : Mech) : Field := ⟨0x850004 + 0x100000 * m.val, 1, 1, 0, .WO⟩
/-- R466: User entry, 10–15 -/
def FSQ_CTL_ENTRY (m : Mech) : Field := ⟨0x850004 + 0x100000 * m.val, 2, 4, 0, .WO⟩
/-- R466: ms (R459) -/
def FSQ_CFG_WDOG_MS (m : Mech) : Field := ⟨0x850008 + 0x100000 * m.val, 0, 16, 100, .RW⟩
/-- R466: R459 -/
def FSQ_CFG_RESTART_MAX (m : Mech) : Field := ⟨0x850008 + 0x100000 * m.val, 16, 4, 4, .RW⟩
/-- R466: VERSION of the active bank -/
def FSQ_UCODE_VER_VERSION (m : Mech) : Field := ⟨0x85000C + 0x100000 * m.val, 0, 32, 0, .RO⟩
/-- R466: Active bank -/
def FSQ_UCODE_STAT_ACTIVE (m : Mech) : Field := ⟨0x850010 + 0x100000 * m.val, 0, 1, 0, .RO⟩
/-- R466: The inactive bank holds a verified image -/
def FSQ_UCODE_STAT_STAGED (m : Mech) : Field := ⟨0x850010 + 0x100000 * m.val, 1, 1, 0, .RO⟩
/-- R466: R460 -/
def FSQ_UCODE_STAT_SWAP_ARMED (m : Mech) : Field := ⟨0x850010 + 0x100000 * m.val, 2, 1, 0, .RO⟩
/-- R466: Containers applied to the active bank (R465) -/
def FSQ_UCODE_STAT_PATCHES (m : Mech) : Field := ⟨0x850010 + 0x100000 * m.val, 8, 8, 0, .RO⟩
/-- R466: Words patched in the active bank -/
def FSQ_UCODE_STAT_PATCH_WORDS (m : Mech) : Field := ⟨0x850010 + 0x100000 * m.val, 16, 12, 0, .RO⟩
/-- R466: VERSION of the inactive bank -/
def FSQ_UCODE_STAGED_VERSION (m : Mech) : Field := ⟨0x850014 + 0x100000 * m.val, 0, 32, 0, .RO⟩
/-- R466: Conditions 48–63 -/
def FSQ_USER_FLAGS_FLAGS (m : Mech) : Field := ⟨0x850018 + 0x100000 * m.val, 0, 16, 0, .RW⟩
/-- R466: Codes as MCH_CMDSTAT.RESULT -/
def FSQ_USER_STAT_RESULT (m : Mech) : Field := ⟨0x85001C + 0x100000 * m.val, 0, 4, 0, .RO⟩
/-- R466: R459 -/
def FSQ_FAULT_ILLEGAL (m : Mech) : Field := ⟨0x850020 + 0x100000 * m.val, 0, 1, 0, .RW1C⟩
/-- R466: R459 -/
def FSQ_FAULT_CS_UE (m : Mech) : Field := ⟨0x850020 + 0x100000 * m.val, 1, 1, 0, .RW1C⟩
/-- R466: R459 -/
def FSQ_FAULT_WATCHDOG (m : Mech) : Field := ⟨0x850020 + 0x100000 * m.val, 2, 1, 0, .RW1C⟩
/-- R466: Address of the last fault -/
def FSQ_FAULT_PC (m : Mech) : Field := ⟨0x850020 + 0x100000 * m.val, 16, 12, 0, .RO⟩
/-- R466: R458 -/
def FSQ_CNT_RESTARTS (m : Mech) : Field := ⟨0x850024 + 0x100000 * m.val, 0, 16, 0, .RC⟩
/-- R466: Corrected control-store errors -/
def FSQ_CNT_CS_CE (m : Mech) : Field := ⟨0x850024 + 0x100000 * m.val, 16, 16, 0, .RC⟩
/-- R466: R453 -/
def FSQ_CNT_GATE_LATE (m : Mech) : Field := ⟨0x850028 + 0x100000 * m.val, 0, 16, 0, .RC⟩
/-- R466: R453 -/
def FSQ_CNT_GATE_REFUSED (m : Mech) : Field := ⟨0x850028 + 0x100000 * m.val, 16, 16, 0, .RC⟩
/-- R466: R460 -/
def FSQ_EVENT_SWAPPED (m : Mech) : Field := ⟨0x850030 + 0x100000 * m.val, 0, 1, 0, .RW1C⟩
/-- R466: R459 -/
def FSQ_EVENT_FAULT (m : Mech) : Field := ⟨0x850030 + 0x100000 * m.val, 1, 1, 0, .RW1C⟩
/-- R466: R459 -/
def FSQ_EVENT_HALTED (m : Mech) : Field := ⟨0x850030 + 0x100000 * m.val, 2, 1, 0, .RW1C⟩
/-- R466: REQ 0x09 released -/
def FSQ_EVENT_USER (m : Mech) : Field := ⟨0x850030 + 0x100000 * m.val, 3, 1, 0, .RW1C⟩
/-- R466: Argument of the last REQ 0x09 -/
def FSQ_USER_DATA_DATA (m : Mech) : Field := ⟨0x850034 + 0x100000 * m.val, 0, 32, 0, .RO⟩
/-- R466: Control-store address to read -/
def FSQ_CS_ADDR_ADDR (m : Mech) : Field := ⟨0x850040 + 0x100000 * m.val, 0, 12, 0, .RW⟩
/-- R466: Bank to read -/
def FSQ_CS_ADDR_BANK (m : Mech) : Field := ⟨0x850040 + 0x100000 * m.val, 12, 1, 0, .RW⟩
/-- R466: Bits [32k + 31:32k] of the addressed word, with its stored ECC -/
def FSQ_CS_DATA_WORD (m : Mech) (k : Fin 4) : Field := ⟨0x850044 + 0x100000 * m.val + 0x4 * k.val, 0, 32, 0, .RO⟩
/-- R466: Work register k -/
def FSQ_WK_VALUE (m : Mech) (k : Fin 16) : Field := ⟨0x850080 + 0x100000 * m.val + 0x4 * k.val, 0, 32, 0, .RO⟩
/-- R482: Boot firmware slot booted -/
def SEC_STAT_BOOT_SLOT : Field := ⟨0x600000, 0, 1, 0, .RO⟩
/-- R482: Key slot of that boot firmware -/
def SEC_STAT_GK_SLOT : Field := ⟨0x600000, 1, 1, 0, .RO⟩
/-- R482: R472 -/
def SEC_STAT_GK0_REVOKED : Field := ⟨0x600000, 2, 1, 0, .RO⟩
/-- R482: Identity key ready (R478) -/
def SEC_STAT_ID_OK : Field := ⟨0x600000, 3, 1, 0, .RO⟩
/-- R482: R478 -/
def SEC_STAT_ID_BAD : Field := ⟨0x600000, 4, 1, 0, .RO⟩
/-- R482: R467 -/
def SEC_STAT_LEGACY_DIS : Field := ⟨0x600000, 5, 1, 0, .RO⟩
/-- R482: 0 none, 1–4 for slots 0–3 -/
def SEC_STAT_OWNER_SLOT : Field := ⟨0x600000, 6, 3, 0, .RO⟩
/-- R482: R474 -/
def SEC_STAT_OWNER_MISSING : Field := ⟨0x600000, 9, 1, 0, .RO⟩
/-- R482: R473 -/
def SEC_STAT_ARB_FAIL : Field := ⟨0x600000, 10, 1, 0, .RW1C⟩
/-- R482: A report is being built -/
def SEC_STAT_ATTEST_BUSY : Field := ⟨0x600000, 11, 1, 0, .RO⟩
/-- R482: ARB_BOOT -/
def SEC_ARB_BOOT : Field := ⟨0x600004, 0, 8, 0, .RO⟩
/-- R482: ARB_SVC -/
def SEC_ARB_SVC : Field := ⟨0x600004, 8, 8, 0, .RO⟩
/-- R482: ARB_UCODE -/
def SEC_ARB_UCODE : Field := ⟨0x600004, 16, 8, 0, .RO⟩
/-- R482: 1 ENROL, 2 RESTORE (R475) -/
def SEC_OWNER_CMD_OP : Field := ⟨0x600008, 0, 2, 0, .WO⟩
/-- R482: Starts the operation -/
def SEC_OWNER_CMD_GO : Field := ⟨0x600008, 31, 1, 0, .WO⟩
/-- R482: 0 idle, 1 busy, 2 done, 3 refused -/
def SEC_OWNER_STAT_RESULT : Field := ⟨0x60000C, 0, 2, 0, .RO⟩
/-- R482: Refusal code (R475) -/
def SEC_OWNER_STAT_CODE : Field := ⟨0x60000C, 8, 8, 0, .RO⟩
/-- R482: ID_HASH, low word at k = 0 -/
def SEC_ID_HASH_HASH (k : Fin 16) : Field := ⟨0x600040 + 0x4 * k.val, 0, 32, 0, .RO⟩
/-- R482: OWNER_HASH of the active slot -/
def SEC_OWNER_HASH_HASH (k : Fin 16) : Field := ⟨0x600080 + 0x4 * k.val, 0, 32, 0, .RO⟩
/-- R482: GK_HASH of the slot in use -/
def SEC_GK_HASH_HASH (k : Fin 16) : Field := ⟨0x6000C0 + 0x4 * k.val, 0, 32, 0, .RO⟩
/-- R482: Key and signature window (R475); cleared at each GO's completion -/
def SEC_DATA_DATA (k : Fin 1024) : Field := ⟨0x601000 + 0x4 * k.val, 0, 32, 0, .RW⟩
/-- R488: As the PCIe Vendor ID -/
def ID_PART_VENDOR : Field := ⟨0x0, 0, 16, gornodomVendorId, .RO⟩
/-- R488: Part code -/
def ID_PART_PART : Field := ⟨0x0, 16, 16, 5654, .RO⟩
/-- R488: Stepping -/
def ID_REV_STEPPING : Field := ⟨0x4, 0, 8, 176, .RO⟩
/-- R488: Version of this map -/
def ID_REV_MAP_VER : Field := ⟨0x4, 8, 8, 1, .RO⟩
/-- R488: BAR0 offset of the first capability header -/
def ID_CAP_PTR_PTR : Field := ⟨0x8, 0, 32, 256, .RO⟩
/-- R488: Incremented at each rebuild of the list (R491); it wraps -/
def ID_LIST_GEN_GEN : Field := ⟨0xC, 0, 32, 0, .RO⟩
/-- R488: Device Serial Number (R350), low word; latches the high word (R6) -/
def ID_SERIAL_LO_SERIAL : Field := ⟨0x10, 0, 32, 0, .RO⟩
/-- R488: High word -/
def ID_SERIAL_HI_SERIAL : Field := ⟨0x14, 0, 32, 0, .RO⟩
/-- R488: From the DEVICE record in force -/
def ID_CONFIG_MECH_PRESENT : Field := ⟨0x18, 0, 16, 0, .RO⟩
/-- R488: Active buffer channels -/
def ID_CONFIG_CHANNELS : Field := ⟨0x18, 16, 5, 0, .RO⟩
/-- R488: Mirror of GCTL_IMG_DIGESTk (R42) -/
def ID_IMG_DIGEST_DIGEST (k : Fin 16) : Field := ⟨0x40 + 0x4 * k.val, 0, 32, 0, .RO⟩

end Reg

/-- Registers of the GCTL block. -/
def regsGCTL : List RegSpec := [
  ⟨0x10800, [], [⟨0, 2, 0, .RO⟩, ⟨2, 1, 0, .RO⟩, ⟨3, 1, 0, .RO⟩, ⟨4, 4, 0, .RO⟩, ⟨8, 8, 0, .RO⟩, ⟨16, 1, 0, .RO⟩, ⟨17, 1, 0, .RO⟩]⟩,
  ⟨0x10804, [], [⟨0, 16, 0, .RO⟩, ⟨16, 16, 0, .RO⟩]⟩,
  ⟨0x10808, [], [⟨0, 32, 0, .RO⟩]⟩,
  ⟨0x1080C, [], [⟨0, 32, 0, .RO⟩]⟩,
  ⟨0x10810, [], [⟨0, 32, 0, .RO⟩]⟩,
  ⟨0x10814, [], [⟨0, 32, 0, .RO⟩]⟩,
  ⟨0x10818, [], [⟨0, 32, 0, .RO⟩]⟩,
  ⟨0x1081C, [], [⟨0, 32, 0, .RO⟩]⟩,
  ⟨0x10820, [], [⟨0, 32, 0, .RO⟩]⟩,
  ⟨0x10840, [(16, 0x4)], [⟨0, 32, 0, .RO⟩]⟩,
  ⟨0x10000, [], [⟨0, 32, 0, .RO⟩]⟩,
  ⟨0x10004, [], [⟨0, 32, 0, .RO⟩]⟩,
  ⟨0x10100, [], [⟨0, 5, 0, .RW⟩, ⟨5, 1, 0, .RW⟩, ⟨31, 1, 0, .WO⟩]⟩,
  ⟨0x10104, [], [⟨0, 27, 0, .RO⟩, ⟨31, 1, 0, .RW1C⟩]⟩,
  ⟨0x10200, [(27, 0x4)], [⟨0, 16, 0, .RO⟩, ⟨16, 1, 0, .RO⟩]⟩,
  ⟨0x10300, [(28, 0x4)], [⟨0, 32, 0, .RC⟩]⟩,
  ⟨0x10400, [], [⟨0, 32, 0, .RO⟩]⟩]

/-- Registers of the OXA block. -/
def regsOXA : List RegSpec := [
  ⟨0x20000, [], [⟨0, 2, 0, .RO⟩, ⟨2, 2, 0, .RO⟩, ⟨4, 8, 0, .RO⟩, ⟨12, 1, 0, .RO⟩, ⟨13, 1, 0, .RO⟩]⟩,
  ⟨0x20004, [], [⟨0, 1, 1, .RW⟩, ⟨8, 8, 100, .RW⟩]⟩,
  ⟨0x20008, [], [⟨0, 6, 0, .RW1C⟩]⟩,
  ⟨0x2000C, [], [⟨0, 6, 63, .RW⟩]⟩,
  ⟨0x20010, [], [⟨0, 32, 0, .RW⟩]⟩,
  ⟨0x20014, [], [⟨0, 32, 0, .RW⟩]⟩,
  ⟨0x20018, [], [⟨0, 32, 0, .RO⟩]⟩,
  ⟨0x2001C, [], [⟨0, 32, 0, .RO⟩]⟩,
  ⟨0x20020, [], [⟨0, 8, 130, .RW⟩, ⟨8, 8, 135, .RW⟩, ⟨16, 8, 145, .RO⟩]⟩,
  ⟨0x20040, [(8, 0x4)], [⟨0, 16, 0, .RO⟩, ⟨16, 1, 0, .RO⟩]⟩,
  ⟨0x20100, [(16, 0x4)], [⟨0, 4, 0, .RO⟩, ⟨4, 1, 0, .RO⟩, ⟨5, 2, 0, .RO⟩, ⟨7, 1, 0, .RO⟩, ⟨8, 1, 0, .RO⟩, ⟨9, 1, 0, .RO⟩]⟩,
  ⟨0x20180, [], [⟨0, 16, 0, .RC⟩, ⟨16, 16, 0, .RC⟩]⟩]

/-- Registers of the MCH block. -/
def regsMCH : List RegSpec := [
  ⟨0x800000, [(16, 0x100000)], [⟨0, 4, 0, .RO⟩, ⟨4, 1, 0, .RO⟩, ⟨5, 1, 0, .RO⟩, ⟨6, 1, 0, .RO⟩, ⟨7, 1, 0, .RO⟩, ⟨8, 1, 0, .RO⟩, ⟨9, 1, 0, .RO⟩]⟩,
  ⟨0x800004, [(16, 0x100000)], [⟨0, 8, 0, .WO⟩, ⟨8, 24, 0, .WO⟩]⟩,
  ⟨0x800008, [(16, 0x100000)], [⟨0, 4, 0, .RO⟩, ⟨4, 8, 0, .RO⟩, ⟨12, 4, 0, .RO⟩, ⟨16, 1, 0, .RO⟩, ⟨17, 1, 0, .RO⟩, ⟨18, 1, 0, .RW1C⟩]⟩,
  ⟨0x80000C, [(16, 0x100000)], [⟨0, 1, 1, .RW⟩, ⟨1, 1, 1, .RW⟩, ⟨2, 1, 1, .RW⟩]⟩,
  ⟨0x800010, [(16, 0x100000)], [⟨0, 8, 60, .RW⟩, ⟨8, 4, 3, .RW⟩, ⟨12, 4, 3, .RW⟩, ⟨16, 5, 12, .RW⟩, ⟨24, 8, 10, .RW⟩]⟩,
  ⟨0x800014, [(16, 0x100000)], [⟨0, 8, 80, .RW⟩, ⟨8, 8, 200, .RW⟩, ⟨16, 8, 100, .RW⟩, ⟨24, 8, 125, .RW⟩]⟩,
  ⟨0x800018, [(16, 0x100000)], [⟨0, 8, 30, .RW⟩]⟩,
  ⟨0x80001C, [(16, 0x100000)], [⟨0, 16, 120, .RW⟩, ⟨16, 16, 500, .RW⟩]⟩,
  ⟨0x800020, [(16, 0x100000)], [⟨0, 20, 0, .RW1C⟩]⟩,
  ⟨0x800024, [(16, 0x100000)], [⟨0, 20, 984063, .RW⟩]⟩,
  ⟨0x800028, [(16, 0x100000)], [⟨0, 8, 0, .RO⟩, ⟨8, 4, 0, .RO⟩]⟩,
  ⟨0x80002C, [(16, 0x100000)], [⟨0, 8, 0, .RO⟩, ⟨8, 16, 0, .RC⟩]⟩,
  ⟨0x800030, [(16, 0x100000)], [⟨0, 16, 0, .RWL⟩, ⟨16, 16, 0, .RO⟩]⟩,
  ⟨0x800034, [(16, 0x100000)], [⟨0, 1, 0, .RW1C⟩, ⟨1, 1, 0, .RW1C⟩, ⟨2, 1, 0, .RW1C⟩, ⟨3, 1, 0, .RW1C⟩, ⟨4, 1, 0, .RW1C⟩, ⟨5, 1, 0, .RW1C⟩, ⟨6, 1, 0, .RW1C⟩, ⟨7, 1, 0, .RW1C⟩]⟩,
  ⟨0x800038, [(16, 0x100000)], [⟨0, 8, 127, .RW⟩]⟩]

/-- Registers of the SRV block. -/
def regsSRV_0 : List RegSpec := [
  ⟨0x810000, [(16, 0x100000)], [⟨0, 2, 1, .RW⟩, ⟨8, 8, 8, .RW⟩, ⟨16, 8, 50, .RW⟩, ⟨24, 1, 1, .RW⟩, ⟨25, 7, 0, .RW⟩]⟩,
  ⟨0x810004, [(16, 0x100000)], [⟨0, 10, 0, .RO⟩, ⟨10, 1, 0, .RO⟩, ⟨11, 1, 0, .RO⟩, ⟨12, 1, 0, .RW1C⟩, ⟨13, 1, 0, .RO⟩]⟩,
  ⟨0x810008, [(16, 0x100000)], [⟨0, 16, 0, .RO⟩, ⟨16, 16, 0, .RC⟩]⟩,
  ⟨0x81000C, [(16, 0x100000)], [⟨0, 16, 0, .RC⟩, ⟨16, 16, 0, .RC⟩]⟩,
  ⟨0x810010, [(16, 0x100000)], [⟨0, 32, 0, .RC⟩]⟩,
  ⟨0x810014, [(16, 0x100000)], [⟨0, 25, 0, .RW1C⟩]⟩,
  ⟨0x810018, [(16, 0x100000)], [⟨0, 25, 0, .RO⟩]⟩,
  ⟨0x81001C, [(16, 0x100000)], [⟨0, 5, 0, .RO⟩, ⟨16, 16, 0, .RO⟩]⟩,
  ⟨0x810020, [(16, 0x100000)], [⟨0, 16, 0, .RO⟩]⟩,
  ⟨0x810024, [(16, 0x100000)], [⟨0, 16, 0, .RC⟩, ⟨16, 16, 0, .RC⟩]⟩,
  ⟨0x810030, [(16, 0x100000), (2, 0x4)], [⟨0, 2, 0, .RO⟩, ⟨8, 8, 255, .RO⟩, ⟨16, 16, 0, .RO⟩]⟩,
  ⟨0x810038, [(16, 0x100000)], [⟨0, 16, 0, .RC⟩, ⟨16, 16, 0, .RC⟩]⟩,
  ⟨0x810040, [(16, 0x100000), (2, 0x10), (4, 0x4)], [⟨0, 32, 0, .RC⟩]⟩,
  ⟨0x810060, [(16, 0x100000)], [⟨0, 16, 0, .RO⟩]⟩,
  ⟨0x810064, [(16, 0x100000)], [⟨0, 16, 0, .RO⟩, ⟨16, 16, 0, .RO⟩]⟩,
  ⟨0x810068, [(16, 0x100000)], [⟨0, 16, 0, .RO⟩]⟩,
  ⟨0x810100, [(16, 0x100000), (25, 0x40)], [⟨0, 2, 0, .RW⟩, ⟨2, 1, 0, .RW⟩, ⟨3, 1, 0, .RW⟩, ⟨4, 3, 0, .RW⟩]⟩,
  ⟨0x810104, [(16, 0x100000), (25, 0x40)], [⟨0, 3, 0, .RO⟩, ⟨3, 1, 0, .RO⟩, ⟨4, 3, 0, .RO⟩, ⟨7, 1, 0, .RW1C⟩, ⟨8, 1, 0, .RO⟩, ⟨9, 1, 0, .RW1C⟩, ⟨10, 1, 0, .RO⟩, ⟨11, 1, 0, .RO⟩, ⟨12, 1, 0, .RW1C⟩, ⟨16, 8, 0, .RO⟩]⟩,
  ⟨0x810108, [(16, 0x100000), (25, 0x40)], [⟨0, 32, 0, .RC⟩]⟩,
  ⟨0x81010C, [(16, 0x100000), (25, 0x40)], [⟨0, 16, 0, .RO⟩, ⟨16, 16, 0, .RC⟩]⟩]

/-- Registers of the SRV block. -/
def regsSRV_1 : List RegSpec := [
  ⟨0x810110, [(16, 0x100000), (25, 0x40)], [⟨0, 16, 0, .RW⟩]⟩,
  ⟨0x810114, [(16, 0x100000), (25, 0x40)], [⟨0, 16, 0, .RO⟩, ⟨16, 16, 0, .RW⟩]⟩,
  ⟨0x810118, [(16, 0x100000), (25, 0x40)], [⟨0, 16, 0, .RO⟩, ⟨16, 16, 0, .RO⟩]⟩,
  ⟨0x81011C, [(16, 0x100000), (25, 0x40)], [⟨0, 16, 0, .RWL⟩, ⟨16, 16, 0, .RWL⟩]⟩,
  ⟨0x810120, [(16, 0x100000), (25, 0x40)], [⟨0, 16, 0, .RWL⟩, ⟨16, 16, 0, .RWL⟩]⟩,
  ⟨0x810124, [(16, 0x100000), (25, 0x40)], [⟨0, 16, 0, .RWL⟩, ⟨16, 8, 0, .RWL⟩]⟩,
  ⟨0x810128, [(16, 0x100000), (25, 0x40)], [⟨0, 32, 0, .RC⟩]⟩,
  ⟨0x81012C, [(16, 0x100000), (25, 0x40)], [⟨0, 32, 0, .RC⟩]⟩,
  ⟨0x810130, [(16, 0x100000), (25, 0x40)], [⟨0, 16, 0, .RC⟩]⟩,
  ⟨0x812000, [(16, 0x100000)], [⟨0, 2, 0, .RO⟩, ⟨2, 1, 0, .RO⟩, ⟨3, 1, 0, .RO⟩, ⟨4, 4, 0, .RO⟩, ⟨8, 1, 0, .RO⟩, ⟨9, 3, 0, .RO⟩]⟩,
  ⟨0x812004, [(16, 0x100000)], [⟨0, 16, 4096, .RW⟩, ⟨16, 8, 20, .RW⟩, ⟨24, 8, 48, .RW⟩]⟩,
  ⟨0x812008, [(16, 0x100000)], [⟨0, 16, 4915, .RW⟩]⟩,
  ⟨0x81200C, [(16, 0x100000)], [⟨0, 16, 4096, .RW⟩, ⟨16, 8, 80, .RW⟩, ⟨24, 8, 80, .RW⟩]⟩,
  ⟨0x812010, [(16, 0x100000)], [⟨0, 16, 9830, .RW⟩, ⟨16, 16, 12288, .RW⟩]⟩,
  ⟨0x812014, [(16, 0x100000)], [⟨0, 16, 24576, .RW⟩, ⟨16, 8, 40, .RW⟩, ⟨24, 4, 1, .RW⟩, ⟨28, 4, 1, .RW⟩]⟩,
  ⟨0x812018, [(16, 0x100000)], [⟨0, 16, 14336, .RW⟩, ⟨16, 4, 4, .RW⟩, ⟨20, 4, 4, .RW⟩, ⟨24, 4, 8, .RW⟩]⟩,
  ⟨0x81201C, [(16, 0x100000)], [⟨0, 16, 4096, .RW⟩]⟩,
  ⟨0x812020, [(16, 0x100000)], [⟨0, 8, 64, .RW⟩, ⟨8, 4, 3, .RW⟩, ⟨12, 12, 500, .RW⟩]⟩,
  ⟨0x812024, [(16, 0x100000)], [⟨0, 14, 0, .RO⟩, ⟨14, 2, 0, .RO⟩, ⟨16, 1, 0, .RO⟩, ⟨17, 1, 0, .RO⟩, ⟨18, 4, 0, .RO⟩, ⟨22, 4, 0, .RO⟩]⟩,
  ⟨0x812028, [(16, 0x100000)], [⟨0, 16, 0, .RC⟩, ⟨16, 16, 0, .RC⟩]⟩]

/-- Registers of the SRV block. -/
def regsSRV_2 : List RegSpec := [
  ⟨0x81202C, [(16, 0x100000)], [⟨0, 16, 0, .RO⟩, ⟨16, 1, 0, .RO⟩]⟩,
  ⟨0x812100, [(16, 0x100000), (16, 0x4)], [⟨0, 16, 0, .RC⟩, ⟨16, 16, 0, .RC⟩]⟩,
  ⟨0x812200, [(16, 0x100000), (4, 0x100)], [⟨0, 16, 0, .RW⟩, ⟨16, 16, 16384, .RW⟩]⟩,
  ⟨0x812204, [(16, 0x100000), (4, 0x100)], [⟨0, 16, 0, .RW⟩, ⟨16, 16, 0, .RW⟩]⟩,
  ⟨0x812208, [(16, 0x100000), (4, 0x100)], [⟨0, 1, 0, .RO⟩, ⟨1, 1, 0, .RO⟩, ⟨8, 8, 0, .RO⟩]⟩,
  ⟨0x812240, [(16, 0x100000), (4, 0x100), (16, 0x4)], [⟨0, 16, 16384, .RW⟩, ⟨16, 16, 16384, .RW⟩]⟩,
  ⟨0x812280, [(16, 0x100000), (4, 0x100), (16, 0x4)], [⟨0, 16, 0, .RW⟩, ⟨16, 16, 0, .RO⟩]⟩]

/-- Registers of the SPN block. -/
def regsSPN_0 : List RegSpec := [
  ⟨0x820000, [(16, 0x100000)], [⟨0, 3, 0, .RO⟩, ⟨3, 3, 0, .RO⟩, ⟨6, 1, 0, .RO⟩, ⟨7, 1, 0, .RO⟩, ⟨8, 1, 0, .RO⟩, ⟨9, 1, 0, .RO⟩, ⟨10, 1, 0, .RO⟩, ⟨11, 1, 0, .RO⟩, ⟨12, 1, 0, .RO⟩]⟩,
  ⟨0x820004, [(16, 0x100000)], [⟨0, 1, 0, .WO⟩, ⟨1, 1, 0, .WO⟩]⟩,
  ⟨0x820008, [(16, 0x100000)], [⟨0, 16, 0, .RO⟩, ⟨16, 16, 0, .RO⟩]⟩,
  ⟨0x82000C, [(16, 0x100000)], [⟨0, 16, 0, .RO⟩, ⟨16, 16, 0, .RO⟩]⟩,
  ⟨0x820010, [(16, 0x100000)], [⟨0, 16, 0, .RW⟩]⟩,
  ⟨0x820014, [(16, 0x100000)], [⟨0, 16, 0, .RO⟩, ⟨16, 16, 0, .RO⟩]⟩,
  ⟨0x820018, [(16, 0x100000)], [⟨0, 16, 0, .RO⟩, ⟨16, 16, 0, .RO⟩]⟩,
  ⟨0x82001C, [(16, 0x100000)], [⟨0, 16, 0, .RO⟩, ⟨16, 16, 0, .RO⟩]⟩,
  ⟨0x820020, [(16, 0x100000)], [⟨0, 16, 0, .RO⟩, ⟨16, 8, 0, .RO⟩, ⟨24, 1, 0, .RO⟩]⟩,
  ⟨0x820024, [(16, 0x100000)], [⟨0, 16, 0, .RO⟩, ⟨16, 3, 0, .RO⟩]⟩,
  ⟨0x820028, [(16, 0x100000)], [⟨0, 5, 10, .RW⟩, ⟨8, 8, 20, .RW⟩, ⟨16, 8, 30, .RW⟩, ⟨24, 8, 130, .RW⟩]⟩,
  ⟨0x82002C, [(16, 0x100000)], [⟨0, 5, 15, .RW⟩, ⟨5, 1, 1, .RW⟩, ⟨8, 6, 0, .RW⟩, ⟨16, 8, 20, .RW⟩, ⟨24, 8, 5, .RW⟩]⟩,
  ⟨0x820030, [(16, 0x100000)], [⟨0, 8, 20, .RW⟩, ⟨8, 8, 50, .RW⟩, ⟨16, 8, 12, .RW⟩]⟩,
  ⟨0x820034, [(16, 0x100000)], [⟨0, 8, 10, .RW⟩, ⟨8, 8, 16, .RW⟩, ⟨16, 8, 32, .RW⟩, ⟨24, 8, 30, .RW⟩]⟩,
  ⟨0x820038, [(16, 0x100000)], [⟨0, 16, 200, .RW⟩, ⟨16, 8, 20, .RW⟩, ⟨24, 8, 80, .RW⟩]⟩,
  ⟨0x82003C, [(16, 0x100000)], [⟨0, 8, 20, .RW⟩, ⟨8, 8, 5, .RW⟩, ⟨16, 16, 1000, .RW⟩]⟩,
  ⟨0x820040, [(16, 0x100000)], [⟨0, 8, 20, .RW⟩, ⟨8, 8, 5, .RW⟩, ⟨16, 16, 2500, .RW⟩]⟩,
  ⟨0x820044, [(16, 0x100000)], [⟨0, 16, 300, .RW⟩, ⟨16, 8, 10, .RW⟩, ⟨24, 1, 1, .RW⟩]⟩,
  ⟨0x820048, [(16, 0x100000)], [⟨0, 16, 0, .RWL⟩, ⟨16, 16, 0, .RWL⟩]⟩,
  ⟨0x82004C, [(16, 0x100000)], [⟨0, 16, 0, .RWL⟩, ⟨16, 16, 0, .RWL⟩]⟩]

/-- Registers of the SPN block. -/
def regsSPN_1 : List RegSpec := [
  ⟨0x820050, [(16, 0x100000)], [⟨0, 16, 0, .RWL⟩, ⟨16, 16, 0, .RWL⟩]⟩,
  ⟨0x820054, [(16, 0x100000)], [⟨0, 16, 0, .RWL⟩, ⟨16, 16, 0, .RWL⟩]⟩,
  ⟨0x820058, [(16, 0x100000)], [⟨0, 16, 0, .RWL⟩, ⟨16, 16, 0, .RWL⟩]⟩,
  ⟨0x82005C, [(16, 0x100000)], [⟨0, 16, 0, .RWL⟩]⟩,
  ⟨0x820060, [(16, 0x100000)], [⟨0, 16, 0, .RC⟩, ⟨16, 16, 0, .RC⟩]⟩,
  ⟨0x820064, [(16, 0x100000)], [⟨0, 16, 0, .RC⟩, ⟨16, 16, 0, .RC⟩]⟩,
  ⟨0x820068, [(16, 0x100000)], [⟨0, 1, 0, .RW1C⟩, ⟨1, 1, 0, .RW1C⟩, ⟨2, 1, 0, .RW1C⟩, ⟨3, 1, 0, .RW1C⟩, ⟨4, 1, 0, .RW1C⟩, ⟨5, 1, 0, .RW1C⟩, ⟨6, 1, 0, .RW1C⟩, ⟨7, 1, 0, .RW1C⟩, ⟨8, 1, 0, .RW1C⟩, ⟨9, 1, 0, .RW1C⟩, ⟨10, 1, 0, .RW1C⟩, ⟨11, 1, 0, .RW1C⟩]⟩,
  ⟨0x82006C, [(16, 0x100000)], [⟨0, 12, 4092, .RW⟩]⟩,
  ⟨0x820070, [(16, 0x100000)], [⟨0, 3, 0, .RO⟩]⟩]

/-- Registers of the SLD block. -/
def regsSLD_0 : List RegSpec := [
  ⟨0x830000, [(16, 0x100000)], [⟨0, 3, 0, .RO⟩, ⟨3, 1, 0, .RO⟩, ⟨4, 1, 0, .RO⟩, ⟨5, 1, 0, .RO⟩, ⟨6, 1, 0, .RO⟩, ⟨7, 1, 0, .RO⟩, ⟨8, 1, 0, .RO⟩, ⟨9, 2, 0, .RO⟩]⟩,
  ⟨0x830004, [(16, 0x100000)], [⟨0, 4, 0, .WO⟩]⟩,
  ⟨0x830008, [(16, 0x100000)], [⟨0, 4, 0, .RO⟩, ⟨4, 4, 0, .RO⟩]⟩,
  ⟨0x83000C, [(16, 0x100000)], [⟨0, 24, 0, .RO⟩]⟩,
  ⟨0x830010, [(16, 0x100000)], [⟨0, 24, 0, .RO⟩]⟩,
  ⟨0x830014, [(16, 0x100000)], [⟨0, 24, 0, .RO⟩]⟩,
  ⟨0x830018, [(16, 0x100000)], [⟨0, 16, 0, .RO⟩, ⟨16, 16, 0, .RO⟩]⟩,
  ⟨0x83001C, [(16, 0x100000)], [⟨0, 16, 0, .RO⟩, ⟨16, 16, 0, .RO⟩]⟩,
  ⟨0x830020, [(16, 0x100000)], [⟨0, 16, 0, .RO⟩, ⟨16, 16, 0, .RO⟩]⟩,
  ⟨0x830024, [(16, 0x100000)], [⟨0, 16, 50, .RW⟩, ⟨16, 8, 16, .RW⟩, ⟨24, 8, 100, .RW⟩]⟩,
  ⟨0x830028, [(16, 0x100000)], [⟨0, 8, 20, .RW⟩, ⟨8, 16, 410, .RW⟩]⟩,
  ⟨0x83002C, [(16, 0x100000)], [⟨0, 16, 0, .RWL⟩, ⟨16, 16, 0, .RWL⟩]⟩,
  ⟨0x830030, [(16, 0x100000)], [⟨0, 16, 0, .RWL⟩, ⟨16, 16, 0, .RWL⟩]⟩,
  ⟨0x830034, [(16, 0x100000)], [⟨0, 24, 0, .RWL⟩, ⟨24, 1, 0, .RWL⟩, ⟨25, 1, 0, .RWL⟩]⟩,
  ⟨0x830038, [(16, 0x100000)], [⟨0, 24, 0, .RWL⟩]⟩,
  ⟨0x83003C, [(16, 0x100000)], [⟨0, 24, 0, .RWL⟩]⟩,
  ⟨0x830040, [(16, 0x100000)], [⟨0, 24, 0, .RWL⟩]⟩,
  ⟨0x830044, [(16, 0x100000)], [⟨0, 16, 0, .RC⟩, ⟨16, 16, 0, .RO⟩]⟩,
  ⟨0x830048, [(16, 0x100000)], [⟨0, 16, 0, .RC⟩, ⟨16, 16, 0, .RC⟩]⟩,
  ⟨0x83004C, [(16, 0x100000)], [⟨0, 1, 0, .RW1C⟩, ⟨1, 1, 0, .RW1C⟩, ⟨2, 1, 0, .RW1C⟩, ⟨3, 1, 0, .RW1C⟩, ⟨4, 1, 0, .RW1C⟩, ⟨5, 1, 0, .RW1C⟩, ⟨6, 1, 0, .RW1C⟩, ⟨7, 1, 0, .RW1C⟩, ⟨8, 1, 0, .RW1C⟩, ⟨9, 1, 0, .RW1C⟩]⟩]

/-- Registers of the SLD block. -/
def regsSLD_1 : List RegSpec := [
  ⟨0x830050, [(16, 0x100000)], [⟨0, 10, 108, .RW⟩]⟩]

/-- Registers of the HLK block. -/
def regsHLK : List RegSpec := [
  ⟨0x840000, [(16, 0x100000)], [⟨0, 3, 0, .RO⟩, ⟨3, 3, 0, .RO⟩, ⟨6, 1, 0, .RO⟩, ⟨7, 1, 0, .RO⟩, ⟨8, 1, 0, .RO⟩]⟩,
  ⟨0x840004, [(16, 0x100000)], [⟨0, 1, 0, .WO⟩, ⟨1, 1, 0, .WO⟩]⟩,
  ⟨0x840008, [(16, 0x100000)], [⟨0, 8, 16, .RW⟩, ⟨8, 4, 2, .RW⟩, ⟨12, 12, 100, .RW⟩]⟩,
  ⟨0x84000C, [(16, 0x100000)], [⟨0, 12, 0, .RO⟩, ⟨12, 16, 0, .RO⟩]⟩,
  ⟨0x840010, [(16, 0x100000)], [⟨0, 8, 0, .RO⟩, ⟨16, 16, 0, .RC⟩]⟩,
  ⟨0x840014, [(16, 0x100000)], [⟨0, 8, 0, .RO⟩, ⟨8, 8, 0, .RO⟩]⟩,
  ⟨0x840020, [(16, 0x100000), (4, 0x4)], [⟨0, 16, 0, .RC⟩, ⟨16, 16, 0, .RC⟩]⟩,
  ⟨0x840030, [(16, 0x100000), (4, 0x4)], [⟨0, 8, 0, .RO⟩, ⟨8, 8, 0, .RO⟩, ⟨16, 8, 0, .RO⟩, ⟨24, 8, 0, .RO⟩]⟩,
  ⟨0x840040, [(16, 0x100000)], [⟨0, 16, 0, .RC⟩, ⟨16, 16, 0, .RC⟩]⟩,
  ⟨0x840044, [(16, 0x100000)], [⟨0, 32, 0, .RC⟩]⟩,
  ⟨0x840048, [(16, 0x100000)], [⟨0, 16, 0, .RC⟩, ⟨16, 16, 0, .RC⟩]⟩,
  ⟨0x84004C, [(16, 0x100000)], [⟨0, 16, 0, .RC⟩, ⟨16, 16, 0, .RC⟩]⟩,
  ⟨0x840050, [(16, 0x100000)], [⟨0, 16, 0, .RO⟩, ⟨16, 16, 0, .RO⟩]⟩,
  ⟨0x840054, [(16, 0x100000)], [⟨0, 32, 0, .RO⟩]⟩,
  ⟨0x840058, [(16, 0x100000)], [⟨0, 16, 0, .RO⟩]⟩,
  ⟨0x840060, [(16, 0x100000)], [⟨0, 16, 0, .RW⟩, ⟨16, 1, 0, .RW⟩, ⟨31, 1, 0, .WO⟩]⟩,
  ⟨0x840064, [(16, 0x100000)], [⟨0, 16, 0, .RW⟩]⟩,
  ⟨0x840068, [(16, 0x100000)], [⟨0, 2, 0, .RO⟩, ⟨8, 8, 0, .RO⟩]⟩,
  ⟨0x840070, [(16, 0x100000)], [⟨0, 1, 0, .RW1C⟩, ⟨1, 1, 0, .RW1C⟩, ⟨2, 1, 0, .RW1C⟩, ⟨3, 1, 0, .RW1C⟩, ⟨4, 1, 0, .RW1C⟩, ⟨5, 1, 0, .RW1C⟩, ⟨6, 1, 0, .RW1C⟩, ⟨7, 1, 0, .RW1C⟩]⟩,
  ⟨0x840074, [(16, 0x100000)], [⟨0, 8, 52, .RW⟩]⟩]

/-- Registers of the WCH block. -/
def regsWCH : List RegSpec := [
  ⟨0x860000, [(16, 0x100000)], [⟨0, 5, 0, .RO⟩, ⟨5, 4, 0, .RO⟩, ⟨9, 1, 0, .RO⟩]⟩,
  ⟨0x860004, [(16, 0x100000)], [⟨0, 16, 0, .RO⟩, ⟨16, 16, 0, .RO⟩]⟩,
  ⟨0x860008, [(16, 0x100000)], [⟨0, 16, 0, .RO⟩, ⟨16, 16, 0, .RO⟩]⟩,
  ⟨0x86000C, [(16, 0x100000)], [⟨0, 16, 0, .RO⟩, ⟨16, 16, 0, .RO⟩]⟩,
  ⟨0x860010, [(16, 0x100000)], [⟨0, 32, 0, .RC⟩]⟩,
  ⟨0x860014, [(16, 0x100000)], [⟨0, 32, 0, .RC⟩]⟩,
  ⟨0x860040, [(16, 0x100000), (4, 0x4)], [⟨0, 7, 0, .RO⟩, ⟨7, 1, 0, .RO⟩, ⟨8, 1, 0, .RO⟩]⟩,
  ⟨0x860100, [(16, 0x100000), (4, 0x40), (16, 0x4)], [⟨0, 16, 0, .RO⟩, ⟨16, 16, 0, .RO⟩]⟩,
  ⟨0x860200, [(16, 0x100000)], [⟨0, 1, 0, .RW1C⟩, ⟨1, 1, 0, .RW1C⟩, ⟨2, 1, 0, .RW1C⟩, ⟨3, 1, 0, .RW1C⟩, ⟨4, 1, 0, .RW1C⟩]⟩,
  ⟨0x860204, [(16, 0x100000)], [⟨0, 5, 6, .RW⟩]⟩]

/-- Registers of the GPE block. -/
def regsGPE : List RegSpec := [
  ⟨0x8C0000, [(16, 0x100000)], [⟨0, 5, 0, .RWL⟩, ⟨8, 4, 0, .RWL⟩, ⟨24, 4, 0, .RWL⟩]⟩,
  ⟨0x8C0004, [(16, 0x100000)], [⟨0, 5, 0, .RWL⟩, ⟨8, 2, 0, .RWL⟩, ⟨16, 16, 0, .RWL⟩]⟩,
  ⟨0x8C0008, [(16, 0x100000)], [⟨0, 8, 0, .RW⟩, ⟨8, 8, 0, .RW⟩, ⟨16, 8, 0, .RW⟩, ⟨24, 8, 0, .RW⟩]⟩,
  ⟨0x8C000C, [(16, 0x100000)], [⟨0, 16, 0, .RO⟩, ⟨16, 16, 0, .RC⟩]⟩,
  ⟨0x8C0010, [(16, 0x100000)], [⟨0, 32, 0, .RC⟩]⟩,
  ⟨0x8C0014, [(16, 0x100000)], [⟨0, 32, 0, .RC⟩]⟩,
  ⟨0x8C0018, [(16, 0x100000)], [⟨0, 32, 0, .RC⟩]⟩,
  ⟨0x8C001C, [(16, 0x100000)], [⟨0, 16, 0, .RC⟩, ⟨16, 16, 0, .RC⟩]⟩,
  ⟨0x8C0020, [(16, 0x100000)], [⟨0, 2, 0, .RO⟩, ⟨2, 6, 0, .RO⟩, ⟨16, 16, 0, .RO⟩]⟩,
  ⟨0x8C0024, [(16, 0x100000)], [⟨0, 32, 0, .RO⟩]⟩,
  ⟨0x8C0028, [(16, 0x100000)], [⟨0, 32, 0, .RO⟩]⟩,
  ⟨0x8C0030, [(16, 0x100000)], [⟨0, 1, 0, .RW1C⟩, ⟨1, 1, 0, .RW1C⟩, ⟨2, 1, 0, .RW1C⟩, ⟨3, 1, 0, .RW1C⟩, ⟨4, 1, 0, .RW1C⟩, ⟨5, 1, 0, .RW1C⟩]⟩,
  ⟨0x8C0034, [(16, 0x100000)], [⟨0, 6, 28, .RW⟩]⟩]

/-- Registers of the RCH block. -/
def regsRCH : List RegSpec := [
  ⟨0x880000, [(16, 0x100000), (16, 0x1000)], [⟨0, 2, 2, .RW⟩, ⟨2, 2, 2, .RW⟩, ⟨4, 4, 10, .RW⟩, ⟨8, 4, 12, .RW⟩, ⟨12, 1, 0, .RW⟩]⟩,
  ⟨0x880004, [(16, 0x100000), (16, 0x1000)], [⟨0, 1, 0, .RO⟩, ⟨1, 1, 0, .RO⟩, ⟨2, 1, 0, .RO⟩, ⟨3, 1, 0, .RO⟩, ⟨4, 1, 0, .RO⟩, ⟨5, 1, 0, .RO⟩, ⟨6, 1, 0, .RO⟩]⟩,
  ⟨0x880008, [(16, 0x100000), (16, 0x1000)], [⟨0, 4, 4, .RW⟩, ⟨4, 4, 8, .RW⟩, ⟨8, 4, 7, .RW⟩, ⟨12, 4, 12, .RW⟩, ⟨16, 8, 24, .RW⟩]⟩,
  ⟨0x88000C, [(16, 0x100000), (16, 0x1000)], [⟨0, 8, 16, .RW⟩, ⟨8, 8, 32, .RW⟩, ⟨16, 8, 32, .RW⟩, ⟨24, 8, 16, .RW⟩]⟩,
  ⟨0x880010, [(16, 0x100000), (16, 0x1000)], [⟨0, 4, 6, .RW⟩, ⟨4, 8, 16, .RW⟩, ⟨16, 4, 3, .RW⟩]⟩,
  ⟨0x880014, [(16, 0x100000), (16, 0x1000)], [⟨0, 8, 128, .RW⟩, ⟨8, 8, 179, .RW⟩, ⟨16, 8, 32, .RW⟩, ⟨24, 8, 32, .RW⟩]⟩,
  ⟨0x880018, [(16, 0x100000), (16, 0x1000)], [⟨0, 14, 5461, .RW⟩, ⟨14, 3, 4, .RW⟩]⟩,
  ⟨0x88001C, [(16, 0x100000), (16, 0x1000)], [⟨0, 8, 0, .RW⟩, ⟨8, 8, 0, .RW⟩]⟩,
  ⟨0x880020, [(16, 0x100000), (16, 0x1000)], [⟨0, 16, 0, .RO⟩, ⟨16, 16, 0, .RO⟩]⟩,
  ⟨0x880024, [(16, 0x100000), (16, 0x1000)], [⟨0, 16, 0, .RC⟩, ⟨16, 16, 0, .RC⟩]⟩,
  ⟨0x880028, [(16, 0x100000), (16, 0x1000)], [⟨0, 32, 0, .RC⟩]⟩,
  ⟨0x88002C, [(16, 0x100000), (16, 0x1000)], [⟨0, 8, 0, .RC⟩, ⟨8, 8, 0, .RC⟩, ⟨16, 16, 0, .RC⟩]⟩,
  ⟨0x88011C, [(16, 0x100000), (16, 0x1000), (2, 0x40)], [⟨0, 12, 1024, .RW⟩]⟩,
  ⟨0x880100, [(16, 0x100000), (16, 0x1000), (2, 0x40), (15, 0x4)], [⟨0, 12, 0, .RW⟩]⟩,
  ⟨0x880200, [(16, 0x100000), (16, 0x1000), (2, 0x80), (28, 0x4)], [⟨0, 12, 0, .RW⟩]⟩]

/-- Registers of the DRT block. -/
def regsDRT_0 : List RegSpec := [
  ⟨0x8D0800, [(16, 0x100000)], [⟨0, 7, 0, .RWL⟩, ⟨8, 7, 8, .RW⟩, ⟨16, 4, 2, .RW⟩, ⟨20, 8, 40, .RW⟩]⟩,
  ⟨0x8D0804, [(16, 0x100000)], [⟨0, 7, 0, .RO⟩, ⟨8, 4, 0, .RO⟩]⟩,
  ⟨0x8D0808, [(16, 0x100000)], [⟨0, 32, 0, .RC⟩]⟩,
  ⟨0x8D080C, [(16, 0x100000)], [⟨0, 8, 0, .RC⟩, ⟨8, 8, 0, .RC⟩, ⟨16, 8, 0, .RC⟩, ⟨24, 8, 0, .RC⟩]⟩,
  ⟨0x8D0810, [(16, 0x100000), (8, 0x4)], [⟨0, 32, 0, .RC⟩]⟩,
  ⟨0x8D0830, [(16, 0x100000)], [⟨0, 32, 0, .RC⟩]⟩,
  ⟨0x8D0834, [(16, 0x100000)], [⟨0, 16, 0, .RC⟩, ⟨16, 16, 0, .RC⟩]⟩,
  ⟨0x8D0000, [(16, 0x100000)], [⟨0, 2, 2, .RW⟩, ⟨2, 2, 2, .RW⟩, ⟨4, 1, 1, .RW⟩, ⟨5, 3, 5, .RW⟩, ⟨8, 7, 40, .RW⟩, ⟨16, 8, 96, .RW⟩, ⟨24, 8, 16, .RW⟩]⟩,
  ⟨0x8D0004, [(16, 0x100000)], [⟨0, 16, 512, .RW⟩, ⟨16, 16, 3072, .RW⟩]⟩,
  ⟨0x8D0008, [(16, 0x100000)], [⟨0, 16, 2000, .RW⟩, ⟨16, 8, 30, .RW⟩]⟩,
  ⟨0x8D000C, [(16, 0x100000)], [⟨0, 4, 0, .RO⟩, ⟨4, 4, 0, .RO⟩, ⟨8, 1, 0, .RO⟩, ⟨16, 16, 0, .RO⟩]⟩,
  ⟨0x8D0010, [(16, 0x100000), (7, 0x4)], [⟨0, 32, 0, .RC⟩]⟩,
  ⟨0x8D0030, [(16, 0x100000)], [⟨0, 16, 0, .RC⟩, ⟨16, 16, 0, .RC⟩]⟩,
  ⟨0x8D0034, [(16, 0x100000)], [⟨0, 32, 0, .RO⟩]⟩,
  ⟨0x8D0038, [(16, 0x100000)], [⟨0, 3, 0, .RO⟩, ⟨3, 1, 0, .RO⟩, ⟨4, 1, 0, .RO⟩, ⟨16, 16, 0, .RO⟩]⟩,
  ⟨0x8D003C, [(16, 0x100000)], [⟨0, 16, 0, .RC⟩, ⟨16, 16, 0, .RC⟩]⟩,
  ⟨0x8D0040, [(16, 0x100000)], [⟨0, 8, 1, .RW⟩, ⟨8, 8, 4, .RW⟩, ⟨16, 8, 16, .RW⟩, ⟨24, 8, 64, .RW⟩]⟩,
  ⟨0x8D0044, [(16, 0x100000)], [⟨0, 8, 1, .RW⟩, ⟨8, 8, 8, .RW⟩]⟩,
  ⟨0x8D0048, [(16, 0x100000)], [⟨0, 16, 1000, .RW⟩, ⟨16, 16, 100, .RW⟩]⟩,
  ⟨0x8D004C, [(16, 0x100000)], [⟨0, 16, 0, .RO⟩, ⟨16, 1, 1, .RO⟩]⟩]

/-- Registers of the DRT block. -/
def regsDRT_1 : List RegSpec := [
  ⟨0x8D0050, [(16, 0x100000)], [⟨0, 16, 0, .RC⟩]⟩,
  ⟨0x8D0060, [(16, 0x100000)], [⟨0, 1, 0, .RW1C⟩, ⟨1, 1, 0, .RW1C⟩, ⟨2, 1, 0, .RW1C⟩, ⟨3, 1, 0, .RW1C⟩, ⟨4, 1, 0, .RW1C⟩]⟩,
  ⟨0x8D0064, [(16, 0x100000)], [⟨0, 5, 3, .RW⟩]⟩,
  ⟨0x8D4000, [(16, 0x100000)], [⟨0, 12, 0, .RO⟩, ⟨12, 1, 0, .RO⟩, ⟨13, 1, 0, .RO⟩, ⟨16, 12, 0, .RO⟩]⟩,
  ⟨0x8D4004, [(16, 0x100000)], [⟨0, 32, 0, .WO⟩]⟩,
  ⟨0x8D4008, [(16, 0x100000)], [⟨0, 1, 0, .RO⟩, ⟨1, 1, 0, .RO⟩, ⟨2, 11, 0, .RO⟩]⟩,
  ⟨0x8D400C, [(16, 0x100000)], [⟨0, 32, 0, .RO⟩]⟩,
  ⟨0x8D4010, [(16, 0x100000)], [⟨0, 32, 0, .RC⟩]⟩,
  ⟨0x8D4014, [(16, 0x100000)], [⟨0, 16, 0, .RC⟩, ⟨16, 16, 0, .RC⟩]⟩]

/-- Registers of the BUF block. -/
def regsBUF_0 : List RegSpec := [
  ⟨0x400000, [], [⟨0, 5, 0, .RO⟩, ⟨5, 1, 0, .RO⟩, ⟨6, 1, 0, .RO⟩, ⟨7, 1, 0, .RO⟩]⟩,
  ⟨0x400004, [], [⟨0, 24, 0, .RO⟩]⟩,
  ⟨0x400008, [], [⟨0, 1, 1, .RW⟩, ⟨1, 1, 1, .RW⟩, ⟨2, 1, 0, .RW⟩]⟩,
  ⟨0x40000C, [], [⟨0, 5, 0, .RW⟩, ⟨31, 1, 0, .WO⟩]⟩,
  ⟨0x400010, [], [⟨0, 8, 24, .RW⟩, ⟨8, 8, 2, .RW⟩, ⟨16, 16, 1000, .RW⟩]⟩,
  ⟨0x400014, [], [⟨0, 16, 200, .RW⟩, ⟨16, 16, 80, .RW⟩]⟩,
  ⟨0x400020, [(5, 0x4)], [⟨0, 32, 0, .RO⟩]⟩,
  ⟨0x400034, [], [⟨0, 8, 0, .RWL⟩, ⟨8, 8, 0, .RWL⟩, ⟨16, 8, 0, .RWL⟩]⟩,
  ⟨0x400038, [], [⟨0, 16, 0, .RWL⟩, ⟨16, 16, 0, .RWL⟩]⟩,
  ⟨0x400040, [(5, 0x4)], [⟨0, 32, 0, .RO⟩]⟩,
  ⟨0x400054, [], [⟨0, 32, 0, .RO⟩]⟩,
  ⟨0x400058, [], [⟨0, 32, 0, .RO⟩]⟩,
  ⟨0x40005C, [], [⟨0, 16, 65535, .RO⟩]⟩,
  ⟨0x400060, [], [⟨0, 32, 0, .RO⟩]⟩,
  ⟨0x400064, [], [⟨0, 32, 0, .RO⟩]⟩,
  ⟨0x400068, [], [⟨0, 32, 0, .RO⟩]⟩,
  ⟨0x40006C, [], [⟨0, 32, 0, .RO⟩]⟩,
  ⟨0x400070, [], [⟨0, 32, 0, .RC⟩]⟩,
  ⟨0x400074, [], [⟨0, 32, 0, .RC⟩]⟩,
  ⟨0x400078, [], [⟨0, 32, 0, .RC⟩]⟩]

/-- Registers of the BUF block. -/
def regsBUF_1 : List RegSpec := [
  ⟨0x40007C, [], [⟨0, 32, 0, .RC⟩]⟩,
  ⟨0x400080, [], [⟨0, 32, 0, .RC⟩]⟩,
  ⟨0x400084, [], [⟨0, 1, 0, .RW1C⟩, ⟨1, 1, 0, .RW1C⟩, ⟨2, 1, 0, .RW1C⟩, ⟨3, 1, 0, .RW1C⟩, ⟨4, 1, 0, .RW1C⟩, ⟨5, 1, 0, .RW1C⟩, ⟨6, 1, 0, .RW1C⟩, ⟨7, 1, 0, .RW1C⟩, ⟨8, 1, 0, .RW1C⟩, ⟨9, 1, 0, .RW1C⟩, ⟨10, 1, 0, .RW1C⟩, ⟨11, 1, 0, .RW1C⟩]⟩,
  ⟨0x400088, [], [⟨0, 12, 948, .RW⟩]⟩,
  ⟨0x400100, [(2, 0x20)], [⟨0, 12, 0, .RO⟩, ⟨16, 12, 2048, .RW⟩]⟩,
  ⟨0x400104, [(2, 0x20), (4, 0x4)], [⟨0, 32, 0, .RO⟩]⟩,
  ⟨0x400114, [(2, 0x20)], [⟨0, 32, 0, .RC⟩]⟩,
  ⟨0x401000, [(24, 0x40)], [⟨0, 3, 0, .RO⟩, ⟨3, 1, 0, .RO⟩, ⟨4, 3, 0, .RO⟩, ⟨7, 1, 0, .RO⟩, ⟨8, 8, 0, .RO⟩, ⟨16, 6, 0, .RO⟩]⟩,
  ⟨0x401004, [(24, 0x40)], [⟨0, 32, 0, .RC⟩]⟩,
  ⟨0x401008, [(24, 0x40)], [⟨0, 16, 0, .RC⟩]⟩,
  ⟨0x40100C, [(24, 0x40)], [⟨0, 32, 0, .RO⟩]⟩,
  ⟨0x401010, [(24, 0x40)], [⟨0, 32, 0, .RO⟩]⟩]

/-- Registers of the QE block. -/
def regsQE : List RegSpec := [
  ⟨0x101000, [(2, 0x1000), (128, 0x20)], [⟨0, 32, 0, .RW⟩]⟩,
  ⟨0x101004, [(2, 0x1000), (128, 0x20)], [⟨0, 32, 0, .RW⟩]⟩,
  ⟨0x101008, [(2, 0x1000), (128, 0x20)], [⟨0, 32, 0, .RW⟩]⟩,
  ⟨0x10100C, [(2, 0x1000), (128, 0x20)], [⟨0, 32, 0, .RW⟩]⟩,
  ⟨0x101010, [(2, 0x1000), (128, 0x20)], [⟨0, 12, 0, .RW⟩, ⟨12, 7, 0, .RW⟩, ⟨19, 1, 1, .RW⟩, ⟨20, 2, 1, .RW⟩, ⟨24, 4, 0, .RW⟩, ⟨28, 4, 0, .RW⟩]⟩,
  ⟨0x101014, [(2, 0x1000), (128, 0x20)], [⟨0, 1, 0, .RW⟩, ⟨1, 3, 0, .RO⟩]⟩,
  ⟨0x101018, [(2, 0x1000), (128, 0x20)], [⟨0, 12, 0, .RO⟩, ⟨16, 12, 0, .RO⟩, ⟨28, 1, 0, .RO⟩]⟩,
  ⟨0x10101C, [(2, 0x1000), (128, 0x20)], [⟨0, 16, 0, .RC⟩, ⟨16, 16, 0, .RC⟩]⟩,
  ⟨0x100000, [], [⟨0, 13, 0, .RO⟩]⟩,
  ⟨0x100004, [], [⟨0, 1, 0, .RO⟩, ⟨8, 7, 1, .RO⟩, ⟨16, 7, 1, .RO⟩, ⟨24, 1, 0, .RO⟩, ⟨25, 1, 0, .RO⟩]⟩,
  ⟨0x100008, [], [⟨0, 16, 0, .RC⟩, ⟨16, 16, 0, .RC⟩]⟩,
  ⟨0x10000C, [], [⟨0, 16, 0, .RC⟩, ⟨16, 16, 0, .RC⟩]⟩,
  ⟨0x100010, [], [⟨0, 16, 0, .RC⟩, ⟨16, 16, 0, .RC⟩]⟩,
  ⟨0x100014, [], [⟨0, 16, 0, .RC⟩]⟩]

/-- Registers of the HQ block. -/
def regsHQ : List RegSpec := [
  ⟨0x40000, [(128, 0x10)], [⟨0, 12, 0, .WO⟩]⟩,
  ⟨0x40004, [(128, 0x10)], [⟨0, 12, 0, .WO⟩]⟩,
  ⟨0x40008, [(128, 0x10)], [⟨0, 12, 0, .WO⟩, ⟨31, 1, 0, .WO⟩]⟩]

/-- Registers of the ARC block. -/
def regsARC : List RegSpec := [
  ⟨0x700000, [], [⟨0, 2, 0, .RO⟩, ⟨16, 14, 0, .RO⟩]⟩,
  ⟨0x700004, [], [⟨0, 1, 1, .RW⟩]⟩,
  ⟨0x700008, [], [⟨0, 8, 0, .WO⟩, ⟨8, 4, 0, .WO⟩]⟩,
  ⟨0x70000C, [], [⟨0, 2, 0, .RO⟩, ⟨8, 8, 0, .RO⟩, ⟨16, 8, 0, .RO⟩]⟩,
  ⟨0x700010, [], [⟨0, 32, 0, .RO⟩]⟩,
  ⟨0x700014, [], [⟨0, 32, 0, .RO⟩]⟩,
  ⟨0x700018, [], [⟨0, 14, 0, .RO⟩, ⟨16, 14, 0, .RC⟩]⟩,
  ⟨0x700100, [(16, 0x4)], [⟨0, 3, 0, .RO⟩, ⟨3, 1, 0, .RO⟩, ⟨8, 8, 0, .RO⟩, ⟨16, 16, 0, .RO⟩]⟩]

/-- Registers of the DMA block. -/
def regsDMA_0 : List RegSpec := [
  ⟨0x300000, [], [⟨0, 32, 0, .RO⟩]⟩,
  ⟨0x300004, [], [⟨0, 32, 0, .RO⟩]⟩,
  ⟨0x300008, [], [⟨0, 32, 0, .RO⟩]⟩,
  ⟨0x30000C, [], [⟨0, 32, 0, .RO⟩]⟩,
  ⟨0x300010, [], [⟨0, 32, 0, .RO⟩]⟩,
  ⟨0x300014, [], [⟨0, 32, 0, .RO⟩]⟩,
  ⟨0x300018, [], [⟨0, 32, 0, .RO⟩]⟩,
  ⟨0x300100, [(64, 0x4)], [⟨0, 32, 0, .RW⟩]⟩,
  ⟨0x301000, [(64, 0x40)], [⟨0, 1, 0, .WO⟩, ⟨1, 1, 0, .WO⟩, ⟨2, 1, 0, .WO⟩]⟩,
  ⟨0x301004, [(48, 0x40)], [⟨0, 2, 0, .RO⟩, ⟨2, 4, 3, .RW⟩, ⟨6, 1, 0, .RW⟩]⟩,
  ⟨0x301C04, [(12, 0x40)], [⟨0, 2, 1, .RO⟩, ⟨2, 4, 3, .RW⟩, ⟨6, 1, 0, .RW⟩]⟩,
  ⟨0x301F04, [(4, 0x40)], [⟨0, 2, 2, .RO⟩, ⟨2, 4, 3, .RW⟩, ⟨6, 1, 0, .RW⟩]⟩,
  ⟨0x301008, [(64, 0x40)], [⟨0, 3, 0, .RO⟩, ⟨3, 1, 0, .RO⟩, ⟨4, 4, 0, .RO⟩]⟩,
  ⟨0x30100C, [(64, 0x40)], [⟨0, 32, 0, .RW⟩]⟩,
  ⟨0x301010, [(64, 0x40)], [⟨0, 32, 0, .RW⟩]⟩,
  ⟨0x301014, [(64, 0x40)], [⟨0, 32, 0, .RO⟩]⟩,
  ⟨0x301018, [(64, 0x40)], [⟨0, 32, 0, .RO⟩]⟩,
  ⟨0x30101C, [(64, 0x40)], [⟨0, 2, 0, .RO⟩]⟩,
  ⟨0x301020, [(64, 0x40), (4, 0x4)], [⟨0, 24, 0, .RO⟩]⟩,
  ⟨0x301030, [(64, 0x40)], [⟨0, 32, 0, .RC⟩]⟩]

/-- Registers of the DMA block. -/
def regsDMA_1 : List RegSpec := [
  ⟨0x301034, [(64, 0x40)], [⟨0, 16, 0, .RC⟩, ⟨16, 16, 0, .RC⟩]⟩]

/-- Registers of the MDC block. -/
def regsMDC : List RegSpec := [
  ⟨0x200000, [], [⟨0, 1, 1, .RW⟩, ⟨1, 1, 1, .RW⟩]⟩,
  ⟨0x200004, [], [⟨0, 3, 0, .RO⟩, ⟨3, 1, 0, .RW1C⟩, ⟨4, 1, 0, .RO⟩, ⟨6, 7, 0, .RO⟩]⟩,
  ⟨0x200008, [], [⟨0, 32, 0, .RW⟩]⟩,
  ⟨0x20000C, [], [⟨0, 32, 0, .RW⟩]⟩,
  ⟨0x200010, [], [⟨0, 24, 0, .RW⟩]⟩,
  ⟨0x200014, [], [⟨0, 3, 0, .RW⟩, ⟨3, 1, 0, .RW⟩, ⟨4, 1, 0, .RW⟩, ⟨31, 1, 0, .WO⟩]⟩,
  ⟨0x200018, [], [⟨0, 2, 0, .RO⟩]⟩,
  ⟨0x20001C, [], [⟨0, 32, 0, .RO⟩]⟩,
  ⟨0x200020, [], [⟨0, 32, 0, .RO⟩]⟩,
  ⟨0x200040, [], [⟨0, 32, 0, .RC⟩]⟩,
  ⟨0x200044, [], [⟨0, 32, 0, .RC⟩]⟩,
  ⟨0x200048, [], [⟨0, 32, 0, .RC⟩]⟩,
  ⟨0x20004C, [], [⟨0, 32, 0, .RC⟩]⟩,
  ⟨0x200050, [], [⟨0, 16, 0, .RC⟩, ⟨16, 16, 0, .RC⟩]⟩,
  ⟨0x200054, [], [⟨0, 32, 0, .RC⟩]⟩,
  ⟨0x200058, [], [⟨0, 32, 0, .RC⟩]⟩,
  ⟨0x20005C, [], [⟨0, 32, 0, .RC⟩]⟩,
  ⟨0x200060, [], [⟨0, 16, 0, .RO⟩]⟩]

/-- Registers of the FSQ block. -/
def regsFSQ : List RegSpec := [
  ⟨0x850000, [(16, 0x100000)], [⟨0, 1, 0, .RO⟩, ⟨1, 4, 0, .RO⟩, ⟨5, 12, 0, .RO⟩, ⟨17, 1, 0, .RO⟩, ⟨18, 1, 0, .RO⟩, ⟨19, 1, 0, .RO⟩]⟩,
  ⟨0x850004, [(16, 0x100000)], [⟨0, 1, 0, .WO⟩, ⟨1, 1, 0, .WO⟩, ⟨2, 4, 0, .WO⟩]⟩,
  ⟨0x850008, [(16, 0x100000)], [⟨0, 16, 100, .RW⟩, ⟨16, 4, 4, .RW⟩]⟩,
  ⟨0x85000C, [(16, 0x100000)], [⟨0, 32, 0, .RO⟩]⟩,
  ⟨0x850010, [(16, 0x100000)], [⟨0, 1, 0, .RO⟩, ⟨1, 1, 0, .RO⟩, ⟨2, 1, 0, .RO⟩, ⟨8, 8, 0, .RO⟩, ⟨16, 12, 0, .RO⟩]⟩,
  ⟨0x850014, [(16, 0x100000)], [⟨0, 32, 0, .RO⟩]⟩,
  ⟨0x850018, [(16, 0x100000)], [⟨0, 16, 0, .RW⟩]⟩,
  ⟨0x85001C, [(16, 0x100000)], [⟨0, 4, 0, .RO⟩]⟩,
  ⟨0x850020, [(16, 0x100000)], [⟨0, 1, 0, .RW1C⟩, ⟨1, 1, 0, .RW1C⟩, ⟨2, 1, 0, .RW1C⟩, ⟨16, 12, 0, .RO⟩]⟩,
  ⟨0x850024, [(16, 0x100000)], [⟨0, 16, 0, .RC⟩, ⟨16, 16, 0, .RC⟩]⟩,
  ⟨0x850028, [(16, 0x100000)], [⟨0, 16, 0, .RC⟩, ⟨16, 16, 0, .RC⟩]⟩,
  ⟨0x850030, [(16, 0x100000)], [⟨0, 1, 0, .RW1C⟩, ⟨1, 1, 0, .RW1C⟩, ⟨2, 1, 0, .RW1C⟩, ⟨3, 1, 0, .RW1C⟩]⟩,
  ⟨0x850034, [(16, 0x100000)], [⟨0, 32, 0, .RO⟩]⟩,
  ⟨0x850040, [(16, 0x100000)], [⟨0, 12, 0, .RW⟩, ⟨12, 1, 0, .RW⟩]⟩,
  ⟨0x850044, [(16, 0x100000), (4, 0x4)], [⟨0, 32, 0, .RO⟩]⟩,
  ⟨0x850080, [(16, 0x100000), (16, 0x4)], [⟨0, 32, 0, .RO⟩]⟩]

/-- Registers of the SEC block. -/
def regsSEC : List RegSpec := [
  ⟨0x600000, [], [⟨0, 1, 0, .RO⟩, ⟨1, 1, 0, .RO⟩, ⟨2, 1, 0, .RO⟩, ⟨3, 1, 0, .RO⟩, ⟨4, 1, 0, .RO⟩, ⟨5, 1, 0, .RO⟩, ⟨6, 3, 0, .RO⟩, ⟨9, 1, 0, .RO⟩, ⟨10, 1, 0, .RW1C⟩, ⟨11, 1, 0, .RO⟩]⟩,
  ⟨0x600004, [], [⟨0, 8, 0, .RO⟩, ⟨8, 8, 0, .RO⟩, ⟨16, 8, 0, .RO⟩]⟩,
  ⟨0x600008, [], [⟨0, 2, 0, .WO⟩, ⟨31, 1, 0, .WO⟩]⟩,
  ⟨0x60000C, [], [⟨0, 2, 0, .RO⟩, ⟨8, 8, 0, .RO⟩]⟩,
  ⟨0x600040, [(16, 0x4)], [⟨0, 32, 0, .RO⟩]⟩,
  ⟨0x600080, [(16, 0x4)], [⟨0, 32, 0, .RO⟩]⟩,
  ⟨0x6000C0, [(16, 0x4)], [⟨0, 32, 0, .RO⟩]⟩,
  ⟨0x601000, [(1024, 0x4)], [⟨0, 32, 0, .RW⟩]⟩]

/-- Registers of the ID block. -/
def regsID : List RegSpec := [
  ⟨0x0, [], [⟨0, 16, gornodomVendorId, .RO⟩, ⟨16, 16, 5654, .RO⟩]⟩,
  ⟨0x4, [], [⟨0, 8, 176, .RO⟩, ⟨8, 8, 1, .RO⟩]⟩,
  ⟨0x8, [], [⟨0, 32, 256, .RO⟩]⟩,
  ⟨0xC, [], [⟨0, 32, 0, .RO⟩]⟩,
  ⟨0x10, [], [⟨0, 32, 0, .RO⟩]⟩,
  ⟨0x14, [], [⟨0, 32, 0, .RO⟩]⟩,
  ⟨0x18, [], [⟨0, 16, 0, .RO⟩, ⟨16, 5, 0, .RO⟩]⟩,
  ⟨0x40, [(16, 0x4)], [⟨0, 32, 0, .RO⟩]⟩]

/-- Every register of the GCTL block. -/
def blockGCTL : List RegSpec := regsGCTL

/-- Every register of the OXA block. -/
def blockOXA : List RegSpec := regsOXA

/-- Every register of the MCH block. -/
def blockMCH : List RegSpec := regsMCH

/-- Every register of the SRV block. -/
def blockSRV : List RegSpec := regsSRV_0 ++ regsSRV_1 ++ regsSRV_2

/-- Every register of the SPN block. -/
def blockSPN : List RegSpec := regsSPN_0 ++ regsSPN_1

/-- Every register of the SLD block. -/
def blockSLD : List RegSpec := regsSLD_0 ++ regsSLD_1

/-- Every register of the HLK block. -/
def blockHLK : List RegSpec := regsHLK

/-- Every register of the WCH block. -/
def blockWCH : List RegSpec := regsWCH

/-- Every register of the GPE block. -/
def blockGPE : List RegSpec := regsGPE

/-- Every register of the RCH block. -/
def blockRCH : List RegSpec := regsRCH

/-- Every register of the DRT block. -/
def blockDRT : List RegSpec := regsDRT_0 ++ regsDRT_1

/-- Every register of the BUF block. -/
def blockBUF : List RegSpec := regsBUF_0 ++ regsBUF_1

/-- Every register of the QE block. -/
def blockQE : List RegSpec := regsQE

/-- Every register of the HQ block. -/
def blockHQ : List RegSpec := regsHQ

/-- Every register of the ARC block. -/
def blockARC : List RegSpec := regsARC

/-- Every register of the DMA block. -/
def blockDMA : List RegSpec := regsDMA_0 ++ regsDMA_1

/-- Every register of the MDC block. -/
def blockMDC : List RegSpec := regsMDC

/-- Every register of the FSQ block. -/
def blockFSQ : List RegSpec := regsFSQ

/-- Every register of the SEC block. -/
def blockSEC : List RegSpec := regsSEC

/-- Every register of the ID block. -/
def blockID : List RegSpec := regsID

end Sys2Proof.Machine
end

