-- ==== Sys2Proof/Machine/ServiceTypes.lean ====
section
/-! DEFINITION. State of the buffer (R324–R349), the Archive Service (R390–R414), the DMA engine (R415–R431), the metadata cache
(R432–R444), security (R467–R482), firmware and reloads (R49, R79, R460) and self-tests (R379–R381). -/
namespace Sys2Proof.Machine

/-! ### Recording blocks in the buffer -/

/-- The capacity pool that a block's space is charged to (R336, R337). -/
inductive Pool where
  | staging | retained | cache | catalogue | spare
deriving DecidableEq, Repr

/-- Where a recording block stands between the host and the disc. -/
inductive BlkPhase where
  | filling      -- partial, staged
  | staged       -- to be handed off for placement
  | placed       -- has its PBA, waits for its slot
  | written      -- its slot has passed; Gander's class is awaited
  | copying      -- FAILED: a relocated copy is queued (R281)
  | cached       -- in the read cache
deriving DecidableEq, Repr

/-- What a block belongs to: a volume, the handle of the stream that wrote object data (if any) and the block index. -/
structure LKey where
  vol : Nat
  strm : Option Nat
  index : Nat
deriving DecidableEq, Repr

/-- A recording block held in the buffer (R337). Its 64 KiB of data stand in the buffer memory at `addr`. -/
structure Blk where
  key : LKey
  addr : Nat
  pool : Pool
  phase : BlkPhase
  kind : Nat              -- KIND of R258
  valid : Nat             -- mask of the sectors that hold user data
  lost : Nat              -- mask of the sectors lost (R329)
  first : Nat             -- device time at which its first sector was staged
  reserved : List (Nat × Nat)   -- reserved-class bytes by stream context, counted in its quota while in staging (R341)
  strm : Option Nat       -- stream context that wrote it
  p : Nat                 -- code settings asked for, 0 for the volume's
  q : Nat
  mech : Option Nat
  pba : Nat
  orig : Nat              -- ORIG_PBA
  copies : Nat            -- copies written
  copyFlag : Bool         -- FLAGS[0]
  replaced : Bool         -- FLAGS[1]
  group : Nat             -- GROUP_ID
  member : Nat
  planned : Nat           -- GROUP_N
  use : Nat               -- order of last use, for the read cache
  refresh : Bool          -- held for a refresh (R314)
  order : Nat             -- order of hand-off; handed-back blocks come first (R403)
deriving DecidableEq, Repr

/-- The PHY of a buffer channel (R69, R325): the codes in force and those that wait for a refresh window. -/
structure PhyX where
  zq : Nat
  zqNext : Option Nat
  taps : Nat
  tapsNext : Option Nat
  refNext : Option Nat
deriving DecidableEq, Repr

/-- What the buffer holds beside its registers and its memory. -/
structure BufX where
  blocks : List (Nat × Blk)
  losses : List (Nat × Nat)         -- sectors lost that no Flush has reported yet, by volume (R329, R370)
  nextBlk : Nat
  useClock : Nat
  poison : List Nat                 -- addresses of poisoned bursts
  rowCe : List (Nat × Nat × Nat)    -- row, corrected errors, start of its scrub period
  soft : List Nat                   -- rows repaired softly
  candidates : List Nat             -- rows recorded in flash for hard repair (R330)
  ceTimes : Vector (List Nat) 24    -- corrected errors of the last hour
  ueTimes : Vector (List Nat) 24
  retiring : List (Nat × Nat)       -- channels in steps 1 and 2 of R333, and the cause of each
  phy : Vector PhyX 24
  pprLeft : Vector Nat 24           -- PPR_LEFT of each channel, kept through a reset of its group (R74, R331)
  fixes : List Nat                  -- bursts corrected and queued for the scrubber to write back (R327, R328)
  meter : Int                       -- credit of the U_RATE meter, 1/1,000 byte (R344)
  meterAt : Nat
  portBytes : Vector Nat 2          -- what is taken against each port's ingress limit, 1/1,000 byte (R343)
  portAt : Vector Nat 2
deriving DecidableEq, Repr

/-! ### Archive Service -/

/-- A bound volume (R382). -/
structure Vol where
  kind : Nat
  mechMask : Nat
  stripe : Nat
  capacity : Nat
  p : Nat
  q : Nat
  disc : Nat
  lastMech : Nat          -- mechanism that took the previous unit (R397)
  unitLeft : Nat          -- blocks of the present unit still to be handed off
  skipped : Nat           -- mechanisms whose last turn was skipped
  starved : Bool          -- NO_PLACEMENT has been posted for the present period
deriving DecidableEq, Repr

/-- A stream context (R340, R341, R391). -/
structure Stream where
  gen : Nat
  opened : Bool
  draining : Bool
  vol : Nat
  port : Port
  rsv : Nat               -- MB/s
  p : Nat
  q : Nat
  credit : Int            -- 1/1,000 byte
  creditAt : Nat          -- device time of the last refill
  seq : Nat               -- next sector of its block sequence (R394)
deriving DecidableEq, Repr

/-- An object version (R394): sectors are those of the stream's block sequence. -/
structure Obj where
  vol : Nat
  ident : Nat
  version : Nat
  size : Nat
  isSealed : Bool
  strm : Nat              -- handle of the stream that wrote it
  extents : List (Nat × Nat)     -- first sector of the stream's sequence, bytes
deriving DecidableEq, Repr

/-- The geometry of a swath that holds blocks (SWATH, R285, R405): its layer, beam mask and slot length. -/
structure SwathGeom where
  layer : Nat
  swath : Nat
  mask : Nat
  len : Nat
deriving DecidableEq, Repr

/-- A disc of which the device holds the catalogue (R405, R407). -/
structure Disc where
  ident : Nat
  p : Nat
  q : Nat
  layers : Nat
  layer : Nat             -- layer of the write cursor
  swath : Nat
  dslot : Nat             -- data slot of the write cursor
  placed : Nat
  full : Bool
  blank : Bool
  mech : Option Nat
  ckptSeq : Nat
  ckptAt : Nat
  catNext : Nat           -- next slot of the catalogue log
  parityUsed : List Nat   -- PBAs taken by parity blocks, copies and test writes
  swaths : List SwathGeom -- the swath map (R285)
deriving DecidableEq, Repr

/-- Where a block lies on media: its handle when it was written (later data has a higher one), its key, disc, PBA and the sectors of
it that hold user data. -/
structure Loc where
  age : Nat
  key : LKey
  disc : Nat
  pba : Nat
  mask : Nat
deriving DecidableEq, Repr

/-- A parity group (R274–R277, R401). -/
structure Group where
  ident : Nat
  disc : Nat
  mech : Nat
  layer : Nat
  res : Nat                -- swath modulo SPACING of its key
  dslot : Nat              -- data slot of its key
  q : Nat
  planned : Nat
  members : List (Nat × Nat)    -- member index and PBA
  parityPba : List Nat
  written : Nat            -- mask of the members written
  missing : Nat            -- mask of missing members
  closed : Bool
  opened : Option Nat      -- device time at which its first member was written
  lastSwath : Nat
  strm : Option Nat
  parity : List (List Byte)     -- running parity, q blocks
deriving DecidableEq, Repr

/-- A checkpoint in progress on a mechanism (R406): FROM and TO of the DRT entries it records, whether the mailbox waits for it, and
whether an EXCHANGE follows. -/
structure Ckpt where
  entries : List (Nat × Nat)
  mbox : Bool
  thenExchange : Bool
deriving DecidableEq, Repr

/-- An event of R412. -/
structure ArcEvt where
  seq : Nat
  bytes : List Byte
deriving DecidableEq, Repr

/-- The Archive Service beside the ARC registers. -/
structure ArcX where
  vols : List (Nat × Vol)
  streams : List (Nat × Stream)     -- by context index
  objs : List Obj
  discs : List Disc                 -- newest first, at most 64
  groups : List Group
  gander : List GanderRec
  map : List Loc                    -- blocks on media
  events : List ArcEvt              -- newest first, at most 256
  nextGid : Nat
  nextOrder : Nat
  held : Nat                        -- mechanisms held by HOLD
  joinAt : Vector (Option Nat) 16   -- join time in device time (R408)
  joined : Nat                      -- mechanisms that have joined
  firstEligible : Option Nat        -- device time at which the first blank disc of the present run became eligible
  ckpts : Vector (Option Ckpt) 16
  exch : Nat                        -- mechanisms in an exchange that the service issued (R409)
  discInAt : Vector (Option Nat) 16
deriving DecidableEq, Repr

/-! ### DMA engine -/

/-- A DMA channel beside its registers (R420, R421, R426). -/
structure DmaX where
  ofsS : Nat
  ofsD : Nat
  saved : List (Nat × Nat)        -- one pair per counter
  line : Option (Nat × List Byte) -- the rest of the line held: the address it starts at and its bytes
  tries : Nat                     -- bus retries of the present access
  reissues : Nat                  -- epoch re-issues of the present access
  pcWritten : Bool                -- a PC has been written since the last START
  pc : Nat                        -- the PC last written
deriving DecidableEq, Repr

/-! ### Metadata cache -/

/-- A valid line of the metadata cache (R433, R437). -/
structure Line where
  addr : Nat
  way : Nat
  data : List Byte
  dirty : Bool
  lock : Bool
  prefetched : Bool
deriving DecidableEq, Repr

/-- A metadata-class request: its address and, for a write, its data. -/
structure MdcReq where
  addr : Nat
  data : Option (List Byte)
deriving DecidableEq, Repr

/-- A miss register (R434): the line, its waiters oldest first, those that wait for the fill to complete, and whether it is a
prefetch. -/
structure Miss where
  line : Nat
  waiters : List MdcReq
  later : List MdcReq
  prefetch : Bool
deriving DecidableEq, Repr

/-- A maintenance operation in progress (R438–R440). -/
structure Maint where
  op : Nat
  force : Bool
  deferred : List Nat      -- lines whose fill was held when the operation reached them
deriving DecidableEq, Repr

/-- The metadata cache beside its registers. -/
structure MdcX where
  lines : List Line
  ptr : List (Nat × Nat)       -- round-robin pointers, by set; unlisted sets read 0
  misses : List Miss
  waiting : List MdcReq        -- misses that wait for a register, oldest first
  fullSince : Option Nat       -- device time up to which MDC_MISS_FULL has counted, while a miss waits
  maint : Option Maint
  disabledValid : Bool         -- a valid unlocked line existed when the cache was disabled, and no INV_ALL has completed since
deriving DecidableEq, Repr

/-! ### Security and firmware -/

/-- Fuses written after manufacture and the SEC's own memory (R467–R481). -/
structure SecX where
  gk0Revoked : Bool
  arb : Vector Nat 3                    -- ARB_BOOT, ARB_SVC, ARB_UCODE
  owners : List (BitVec 512)            -- OWNER_HASH0 upward, as enrolled
  ownerKey : Option (List Byte)         -- key record of the active slot in flash
  boot : Option (Nat × SignedImage)     -- boot firmware that booted: flash slot and image
  svc : Option SignedImage              -- service firmware running
  svcStaged : Option SignedImage
  svcAtStart : Bool                     -- its ARB burn is due at step 9
  ucodeRollback : Option Nat            -- ROLLBACK of the flash microcode image, due at step 9
  containers : List (Nat × BitVec 512 × List Byte)   -- decrypted containers: flash index, M of the trailer, plain text
  applied : List Nat                    -- flash indices of the containers applied at start
  ownerOp : Nat                         -- owner operation in progress, 0 none
deriving DecidableEq, Repr

/-- A firmware activation of type 0 (R79): its slot, and whether the previous firmware is being started again (R80). -/
structure SvcAct where
  slot : Nat
  fallback : Bool
  record : List Byte        -- the hand-over record in the catalogue partition of the buffer
  digest : BitVec 512       -- its SHAKE256 digest
deriving DecidableEq, Repr

/-- A microcode activation (R461): its slot, the sequencers armed and those that have swapped. -/
structure UcodeAct where
  slot : Nat
  armed : Nat
  swapped : Nat
deriving DecidableEq, Repr

/-- A Structure Reload (R47–R50): its slot, the mechanism of a partial one, SAVE, DLEN and GCTL_IMG_STAT.STATE before it; then the
partial image admitted, and whether rest has been reached and the reset of step 3 runs. -/
structure Reload where
  slot : Nat
  mech : Option Nat
  save : Bool
  dlen : Nat
  stat : Nat
  image : Option Image
  resetting : Bool
deriving DecidableEq, Repr

/-- The running self-test (R379, R380). -/
structure SelfTest where
  kind : Nat
  mask : Nat
  start : Nat
  paused : Nat          -- mechanisms whose part is paused
  marchPaused : Bool
deriving DecidableEq, Repr

/-- A self-test result entry (R381). -/
structure TestResult where
  start : Nat
  stop : Nat
  kind : Nat
  result : Nat
  step : Nat
  mech : Nat
  mask : Nat
  rung4 : Nat
  first : Nat
deriving DecidableEq, Repr

/-- Firmware, reload and self-test activity. -/
structure FwX where
  svcAct : Option SvcAct
  ucodeAct : Option UcodeAct
  reload : Option Reload
  test : Option SelfTest
  results : List TestResult       -- newest first, at most 16
deriving DecidableEq, Repr

/-- Counts of the health page since power-up (R378), and the command queue beside its slots. -/
structure QeX where
  unrecovered : Nat
  failedBlocks : Nat
  refused : Nat
  nextOrder : Nat                 -- submission order of the next fetch
  aborts : List (Nat × Nat)       -- Aborts of entries not yet fetched: abort slot and target, as port·2^32 + pair·2^16 + index
  arb : Vector ArbX 2             -- arbitration, by port (R358)
  turn : Option Port              -- port whose turn ran last (R358)
  cqHead : List (Nat × Nat)       -- last CQ head written by the host, by pair of both ports
  sqTail : List (Nat × Nat)       -- SQ tails
  agg : List (Nat × Nat)          -- entries posted and not yet signalled
  lost : List Port                -- ports lost with failover in force, whose marker is still to be posted
deriving DecidableEq, Repr

def PhyX.reset : PhyX := ⟨0, none, 0, none, none⟩

def BufX.reset : BufX :=
  ⟨[], [], 0, 0, [], [], [], [], Vector.replicate 24 [], Vector.replicate 24 [], [], Vector.replicate 24 PhyX.reset, Vector.replicate 24 0, [], 0, 0, Vector.replicate 2 0,
    Vector.replicate 2 0⟩

def ArcX.reset : ArcX where
  vols := []
  streams := []
  objs := []
  discs := []
  groups := []
  gander := []
  map := []
  events := []
  nextGid := 1
  nextOrder := 0
  held := 0
  joinAt := Vector.replicate 16 none
  joined := 0
  firstEligible := none
  ckpts := Vector.replicate 16 none
  exch := 0
  discInAt := Vector.replicate 16 none

def DmaX.reset : DmaX := ⟨0, 0, List.replicate 4 (0, 0), none, 0, 0, false, 0⟩

def MdcX.reset : MdcX := ⟨[], [], [], [], none, none, false⟩

/-- Fuses as they leave manufacture: nothing revoked, no counter burnt, no owner (log entry 6). -/
def SecX.reset : SecX := ⟨false, Vector.replicate 3 0, [], none, none, none, none, false, none, [], [], 0⟩

def FwX.reset : FwX := ⟨none, none, none, none, []⟩

def QeX.reset : QeX := ⟨0, 0, 0, 0, [], Vector.replicate 2 ⟨2, 0, [0, 0, 0], none, 0⟩, none, [], [], [], []⟩

end Sys2Proof.Machine
end

