-- ==== Sys2Proof/Machine/State.lean ====
section
/-! DEFINITION. The state of the machine, its faults and refusals, and the state after reset. -/
namespace Sys2Proof.Machine

/-- Everything of one mechanism that no register table holds. -/
structure MechX where
  pins : MechPins
  mch : MchX
  srv : SrvX
  opt : OptX
  spn : SpnX
  sld : SldX
  hlk : HlkX
  gate : GateX
  fsq : FsqX
  wch : WchX
  rch : RchX
  goat : GoatX
  clk : MechClk
deriving DecidableEq, Repr

/-- The image in force (R46): its global records, the section of each mechanism, SERIAL and DIGEST of the whole image. -/
structure ImgX where
  globals : List Rec
  sections : Vector (Option Section) 16
  serial : Nat
  digest : Nat
deriving DecidableEq, Repr

/-- Everything but the buffer's memory and the waiting commands. `regs` holds every register field that is not at its reset
value, by bit address. -/
structure Dev where
  regs : List (Nat × Nat)
  latches : List (Nat × Nat)
  free : Nat
  out : List Out
  ox : Ox
  vlog : VLog
  elog : ELog
  health : List Byte
  pest : Nat                    -- device power estimate, mW (R129)
  feats : List (Nat × Nat)      -- device features by identifier (R384)
  parts : Vector PartX 27
  ports : Vector PortX 2
  img : ImgX
  mech : Vector MechX 16
  slots : List (Nat × Slot)
  bufx : BufX
  arc : ArcX
  dma : Vector DmaX 64
  mdc : MdcX
  sec : SecX
  fw : FwX
  qe : QeX
  jtag : JtagInstr              -- boundary-scan instruction in force (R509)
  boundary : Nat                -- boundary register
deriving DecidableEq, Repr

/-- The state of the block: the commands that wait, first in first out; the buffer memory; everything else. -/
structure State where
  pending : List Instr
  buf : Memory
  dev : Dev
deriving DecidableEq, Repr

/-- The reasons for which a step can stop with a fault: the block has none, since the spec gives every command an effect. -/
inductive Fault where
deriving DecidableEq, Repr

/-- The reasons for which a step can be refused. -/
inductive Refusal where
  /-- A command that has no meaning yet; safe. -/
  | notModelled (mnemonic : String)
deriving DecidableEq, Repr

/-- Output pins of a mechanism that Ox holds safe (R66). -/
def MechPins.reset : MechPins := ⟨false, false, false, .off, false, false⟩

/-- The thresholds of the bus comparators before an image names others (R83, R170): those of the reference section. -/
def refThresholds : List Nat := [2800, 3100, 3400, 1800]

/-- Ox before VAON comes up: T_OX and device time at 0 (R57). -/
def Ox.reset : Ox :=
  ⟨.off, 0, 0, 0, false, false, false, false, Vector.replicate 80 0, Vector.replicate 80 none, true, 0, false,
    Vector.replicate 16 true, Vector.replicate 16 0, Vector.replicate 16 0, none, 0, Vector.replicate 8 0, Vector.replicate 8 none,
    Vector.replicate 16 refThresholds, ⟨false, false, false, false⟩, Vector.replicate 16 ([], [])⟩

def MchX.reset : MchX := ⟨.none, .none, .none, false, none, false, false, false, false, [], [], false, false, 0, 0, 0⟩

def LoopX.reset : LoopX := ⟨0, 0, 0, 0, 0, [], [], none, 0, 0, false, false, 0, false⟩

def GovX.reset : GovX := ⟨none, Vector.replicate 4 0⟩

def SrvX.reset : SrvX :=
  ⟨Vector.replicate 25 LoopX.reset, 0, [], Vector.replicate 2 GovX.reset, 0, Vector.replicate 16 0, []⟩

def OptX.reset : OptX :=
  ⟨.none, 0, 0, .none, 0, .none, 0, false, .none, 0, [], 0, [], [], [], [], 0, 0, DetX.reset, MeasX.empty false, []⟩

def SpnX.reset : SpnX where
  waitLink := false
  fluxBuild := false
  psiA := 0
  psiB := 0
  dpsi := false
  dtau := 0
  vector := 0
  iAl := 0
  iBe := 0
  speed := 0
  ang := 0
  elecRevs := 0
  sampleAng := 0
  sampleNs := 0
  lossSum := 0
  loss := 0
  comFail := false
  wasBraking := false
  coast := false
  releasing := false
  released := false
  tstar := 0
  bemfSkips := 0
  handbackDue := none
  busBad := false
  voltBad := false
  curBad := false
  profile := 0
  conduct := 0
  crossAt := 0
  integ := 0
  duties := []
  window := .none
  emf := EmfX.reset
  sinceEdge := 0
  curSkips := 0
  trips := []
  fluxBad := 0
  start0 := none
  bandRun := 0
  satRun := 0
  chopLow := 0
  indexDue := false
  sectorEdge := false

def SldX.reset : SldX :=
  ⟨0, 0, 0, 0, 0, none, false, false, false, 0, false, false, 0, 0, false, Vector.replicate 2 false, none, none⟩

def HlkX.reset : HlkX :=
  ⟨0, [], [], Vector.replicate 16 none, [], 0, none, false, none, Vector.replicate 3 0, 0, 0, Vector.replicate 16 none,
    Vector.replicate 3 [], Vector.replicate 16 none, [], [], []⟩

def GateX.reset : GateX := ⟨0, 0, [], 0, 0, 0, 0, false, false, 0, []⟩

/-- Every domain of a mechanism gated. -/
def MechClk.reset : MechClk := ⟨false, false, 0, 0⟩

def MechX.reset : MechX :=
  ⟨MechPins.reset, MchX.reset, SrvX.reset, OptX.reset, SpnX.reset, SldX.reset, HlkX.reset, GateX.reset,
    FsqX.reset, WchX.reset, RchX.reset, GoatX.reset, MechClk.reset⟩

def PartX.reset : PartX := ⟨none, false, none, .ordinary⟩

def PortX.reset : PortX := ⟨false, false, true, false, .l0, [], [], 0, 0⟩

/-- The device before power: every register at its reset value, every log empty. -/
def Dev.reset : Dev where
  regs := []
  latches := []
  free := 0
  out := []
  ox := Ox.reset
  vlog := ⟨[], 0⟩
  elog := ⟨[], 0⟩
  health := List.replicate 512 0
  pest := 0
  feats := []
  parts := Vector.replicate 27 PartX.reset
  ports := Vector.replicate 2 PortX.reset
  img := ⟨[], Vector.replicate 16 none, 0, 0⟩
  mech := Vector.replicate 16 MechX.reset
  slots := []
  bufx := BufX.reset
  arc := ArcX.reset
  dma := Vector.replicate 64 DmaX.reset
  mdc := MdcX.reset
  sec := SecX.reset
  fw := FwX.reset
  qe := QeX.reset
  jtag := .idcode
  boundary := 0

/-- The machine right after reset: VAON not yet up, no command waiting, the buffer cleared (R22, R66). -/
def State.reset : State := ⟨[], [], Dev.reset⟩

end Sys2Proof.Machine
end

