-- ==== Sys2Proof/Machine/Ops.lean ====
section
/-! DEFINITION. Named operations over the device: registers by field, free values, device time, the two logs (R77, R78, R377),
interrupts (R353) and what an access by its address finds. -/
namespace Sys2Proof.Machine

/-- A device command's outcome: always a next state, with the queue and the buffer memory as they are. -/
def liftDev (f : Dev → Dev) (s : State) : Host.Outcome State Fault Refusal := .next { s with dev := f s.dev }

/-- The outcome of a command that also acts on the buffer memory. -/
def liftBuf (f : Dev → Memory → Dev × Memory) (s : State) : Host.Outcome State Fault Refusal :=
  .next { s with dev := (f s.dev s.buf).1, buf := (f s.dev s.buf).2 }

namespace Dev

/-- The present value of a register field. -/
def get (d : Dev) (f : Field) : Nat := Sparse.get f.reset d.regs f.key

/-- Whether a field is not 0. -/
def on (d : Dev) (f : Field) : Bool := d.get f != 0

/-- Writes a field, keeping its width. -/
def set (d : Dev) (f : Field) (v : Nat) : Dev := { d with regs := Sparse.put f.reset d.regs f.key (v % 2 ^ f.width) }

/-- Sets a field to a Bool. -/
def setB (d : Dev) (f : Field) (b : Bool) : Dev := d.set f (b2n b)

/-- Adds `n` to a counter field, which saturates at its all-ones value (R9). -/
def count (d : Dev) (f : Field) (n : Nat := 1) : Dev := d.set f (min (2 ^ f.width - 1) (d.get f + n))

/-- Adds `n` to a counter that wraps. -/
def countWrap (d : Dev) (f : Field) (n : Nat := 1) : Dev := d.set f (d.get f + n)

/-- Sets bit `i` of a field. -/
def setBit (d : Dev) (f : Field) (i : Nat) (b : Bool) : Dev := d.set f (putb (d.get f) i b)

/-- Bit `i` of a field. -/
def bit (d : Dev) (f : Field) (i : Nat) : Bool := tbit (d.get f) i

/-- A field read as a two's-complement value. -/
def getS (d : Dev) (f : Field) : Int := toSigned f.width (d.get f)

/-- Writes a signed value into a field. -/
def setS (d : Dev) (f : Field) (v : Int) : Dev := d.set f (ofSigned f.width v)

/-- Writes several fields. -/
def setAll (d : Dev) : List (Field × Nat) → Dev
  | [] => d
  | (f, v) :: t => Dev.setAll (d.set f v) t

/-- The next free value, for a value that the spec leaves open. -/
def freeVal (d : Dev) : Nat := Config.freeNat d.free

/-- Advances the counter of free values. -/
def useFree (d : Dev) : Dev := { d with free := d.free + 1 }

/-- Device time; T_OX while the system PLL is stopped, and no less than device time reached before (R3, R56, R57, R60). -/
def now (d : Dev) : Nat := if d.ox.pllOn then d.ox.devTime else max d.ox.devTime d.ox.tox

/-- What one mechanism holds beside its registers. -/
def mx (d : Dev) (m : Mech) : MechX := d.mech[m.val]

/-- Changes what one mechanism holds. -/
def modMech (d : Dev) (m : Mech) (f : MechX → MechX) : Dev := { d with mech := d.mech.set m.val (f d.mech[m.val]) }

def modMch (d : Dev) (m : Mech) (f : MchX → MchX) : Dev := d.modMech m fun x => { x with mch := f x.mch }
def modSrv (d : Dev) (m : Mech) (f : SrvX → SrvX) : Dev := d.modMech m fun x => { x with srv := f x.srv }
def modOpt (d : Dev) (m : Mech) (f : OptX → OptX) : Dev := d.modMech m fun x => { x with opt := f x.opt }
def modSpn (d : Dev) (m : Mech) (f : SpnX → SpnX) : Dev := d.modMech m fun x => { x with spn := f x.spn }
def modSld (d : Dev) (m : Mech) (f : SldX → SldX) : Dev := d.modMech m fun x => { x with sld := f x.sld }
def modHlk (d : Dev) (m : Mech) (f : HlkX → HlkX) : Dev := d.modMech m fun x => { x with hlk := f x.hlk }
def modRch (d : Dev) (m : Mech) (f : RchX → RchX) : Dev := d.modMech m fun x => { x with rch := f x.rch }
def modGate (d : Dev) (m : Mech) (f : GateX → GateX) : Dev := d.modMech m fun x => { x with gate := f x.gate }
def modPins (d : Dev) (m : Mech) (f : MechPins → MechPins) : Dev := d.modMech m fun x => { x with pins := f x.pins }
def modClk (d : Dev) (m : Mech) (f : MechClk → MechClk) : Dev := d.modMech m fun x => { x with clk := f x.clk }
def modOx (d : Dev) (f : Ox → Ox) : Dev := { d with ox := f d.ox }
def modCore (d : Dev) (f : CoreClk → CoreClk) : Dev := d.modOx fun o => { o with clk := f o.clk }

/-- Records something that the device sends out. -/
def emit (d : Dev) (o : Out) : Dev := { d with out := o :: d.out }

/-- Whether partition `n` is IN_RESET (R71). -/
def inReset (d : Dev) (n : Part) : Bool := d.on (Reg.GCTL_EPOCH_IN_RESET n)

/-- Whether the partition of mechanism `m` is IN_RESET. -/
def mechInReset (d : Dev) (m : Mech) : Bool := d.inReset ⟨m.val, by omega⟩

/-- Whether the main domains run: power-up step 9 has been reached (R66, R81). -/
def up (d : Dev) : Bool := d.ox.step == .up

/-! ### Violation log -/

/-- Adds an event to the violation log (R78): one with the SOURCE and CODE of the newest entry, within 1 ms of its TIME, is
merged into it. -/
def vlogAdd (d : Dev) (source code answer : Nat) (detail : List (Nat × Nat × Nat) := []) : Dev :=
  let fresh : VEntry := ⟨d.now, d.vlog.next, source, answer, code, 1, fieldBytes 14 detail⟩
  match d.vlog.entries with
  | [] => { d with vlog := ⟨[fresh], (d.vlog.next + 1) % 2 ^ 32⟩ }
  | e :: t =>
    if e.source = source ∧ e.code = code ∧ d.now ≤ e.time + 1000000 then
      { d with vlog := { d.vlog with entries := { e with count := min 65535 (e.count + 1) } :: t } }
    else { d with vlog := ⟨(fresh :: e :: t).take 256, (d.vlog.next + 1) % 2 ^ 32⟩ }

/-- The 32 bytes of a violation-log entry (R77). -/
def vbytes (e : VEntry) : List Byte :=
  leBytes 8 e.time ++ leBytes 4 e.seq ++ leBytes 1 e.source ++ leBytes 1 e.answer ++ leBytes 2 e.code ++ leBytes 2 e.count
    ++ e.detail

/-! ### Interrupts -/

/-- The port that receives the event vectors 128 to 145 (R353, R387). -/
def evtPort (d : Dev) : Port := if d.on Reg.QE_FO_EVT_ACTIVE then .B else .A

/-- What port `p` holds beside its registers. -/
def px (d : Dev) (p : Port) : PortX := match p with
  | .A => d.ports[0]
  | .B => d.ports[1]

/-- Changes what port `p` holds. -/
def modPort (d : Dev) (p : Port) (f : PortX → PortX) : Dev := match p with
  | .A => { d with ports := d.ports.set 0 (f d.ports[0]) }
  | .B => { d with ports := d.ports.set 1 (f d.ports[1]) }

/-- Message control of MSI-X in the port's configuration space: bit 15 enable, bit 14 function mask (PCIe). -/
def msixCtl (x : PortX) : Nat := Sparse.get 0 x.cfg 0xB0 / 65536

/-- Fires an MSI-X vector on a port (R350, R353): the message goes out, or the vector stays pending while it is masked. No port
serves before power-up step 9 or in the Ox-only state (R67, R81). -/
def fire (d : Dev) (p : Port) (v : Nat) : Dev :=
  let x := d.px p
  if ¬ d.up then d
  else if tbit (msixCtl x) 15 ∧ ¬ tbit (msixCtl x) 14 ∧ Sparse.get 1 x.msixTab (16 * v + 12) % 2 = 0
  then d.emit (.msix p v) else d.modPort p fun x => { x with msixPend := setb x.msixPend v }

/-- Fires an event vector on the port that EVT_ACTIVE names (R353). -/
def fireEvt (d : Dev) (v : Nat) : Dev := d.fire d.evtPort v

/-- Sets bit `i` of an event field and fires `vector` when its enable field has the bit (R353). -/
def raiseEvt (d : Dev) (ev en : Field) (i vector : Nat) : Dev :=
  let d := d.setBit ev i true
  if d.bit en i then d.fireEvt vector else d

/-- Sets a one-bit event field and fires `vector` when its enable field has the bit at the same place (R353). -/
def evt (d : Dev) (ev en : Field) (vector : Nat) : Dev :=
  let d := d.set ev 1
  if d.bit en ev.lo then d.fireEvt vector else d

/-! ### Error log -/

/-- Feature ERROR_EVENT (R384): vector 145 fires on each error-log entry. -/
def elogInt (d : Dev) : Bool := Sparse.get 0 d.feats 4 == 1

/-- Adds an entry to the error log (R377, R511); `detail` places values at entry bytes 16 upward. -/
def elogAdd (d : Dev) (source kind code : Nat) (detail : List (Nat × Nat × Nat) := []) : Dev :=
  let e : EEntry := ⟨d.now, d.elog.next, source, kind, code, fieldBytes 48 (detail.map fun x => (x.1 - 16, x.2))⟩
  let d := { d with elog := ⟨(e :: d.elog.entries).take 256, (d.elog.next + 1) % 2 ^ 32⟩ }
  if d.elogInt then d.fireEvt 145 else d

/-- The 64 bytes of an error-log entry (R377). -/
def ebytes (e : EEntry) : List Byte :=
  leBytes 8 e.time ++ leBytes 4 e.seq ++ leBytes 1 e.source ++ leBytes 1 e.kind ++ leBytes 2 e.code ++ e.detail

end Dev

/-- The bytes that a ring position of a log holds; zeros for a position never written (R63). -/
def ringBytes (n pos : Nat) (entries : List (Nat × List Byte)) : List Byte :=
  match entries.find? (fun e => decide (e.1 % 256 = pos)) with
  | some e => e.2
  | none => List.replicate n 0

end Sys2Proof.Machine
end

