-- ==== Sys2Proof/Machine/Trig.lean ====
section
/-! DEFINITION. Angles, sines and arctangents in whole numbers (log entry 12): 2^32 to a turn, sines × 2^30. -/
namespace Sys2Proof.Machine

/-- The angles whose tangents are 2^-i, i from 0, 2^32 to a turn, with the shifts. -/
def arcTable : List (Nat × Int) :=
  [(0, 536870912), (1, 316933406), (2, 167458907), (3, 85004756), (4, 42667331), (5, 21354465), (6, 10679838), (7, 5340245),
    (8, 2670163), (9, 1335087), (10, 667544), (11, 333772), (12, 166886), (13, 83443), (14, 41722), (15, 20861), (16, 10430),
    (17, 5215), (18, 2608), (19, 1304), (20, 652), (21, 326), (22, 163), (23, 81), (24, 41), (25, 20), (26, 10), (27, 5)]

/-- Turns the vector (x, y) onto the positive x axis; the angle turned, from `z`. -/
def vectoring : (x y z : Int) → List (Nat × Int) → Int
  | _, _, z, [] => z
  | x, y, z, (i, a) :: t =>
    if y < 0 then vectoring (x - y / 2 ^ i) (y + x / 2 ^ i) (z - a) t else vectoring (x + y / 2 ^ i) (y - x / 2 ^ i) (z + a) t

/-- Turns the vector (x, y) by the angle `z`. -/
def rotating : (x y z : Int) → List (Nat × Int) → Int × Int
  | x, y, _, [] => (x, y)
  | x, y, z, (i, a) :: t =>
    if z < 0 then rotating (x + y / 2 ^ i) (y - x / 2 ^ i) (z + a) t else rotating (x - y / 2 ^ i) (y + x / 2 ^ i) (z - a) t

/-- The angle of a vector, 0 to 2^32 − 1; 0 for the zero vector. -/
def angleOf (x y : Int) : Nat :=
  if x = 0 ∧ y = 0 then 0
  else
    let s : Int := 2 ^ 32
    let z := if x < 0 then vectoring (-x * s) (-y * s) (2 ^ 31) arcTable else vectoring (x * s) (y * s) 0 arcTable
    (z % 2 ^ 32).toNat

/-- Cosine and sine of an angle, × 2^30. -/
def cosSin (a : Nat) : Int × Int :=
  let b : Int := toSigned 32 a
  if 1073741824 < b then let r := rotating 652032874 0 (b - 2147483648) arcTable; (-r.1, -r.2)
  else if b < -1073741824 then let r := rotating 652032874 0 (b + 2147483648) arcTable; (-r.1, -r.2)
  else rotating 652032874 0 b arcTable

end Sys2Proof.Machine
end

