-- ==== Sys2Proof/Machine/MechOps.lean ====
section
/-! DEFINITION. Operations of one mechanism that several chapters share: its state (R86), the loops that each state enables
(R119, R143, R176), gates (R16), the spindle's class changes (R175), sled moves (R208), the end of an MCH command (R91), and
raising a fault (R100–R102). -/
namespace Sys2Proof.Machine
namespace Dev

/-! ### Images and geometry -/

/-- The section of a mechanism in force. -/
def msec (d : Dev) (m : Mech) : List Rec := match d.img.sections[m.val] with
  | some s => s.recs
  | none => []

/-- A global record in force. -/
def grec (d : Dev) (ty : Nat) : Rec := Img.glob d.img.globals ty

/-- The first record of a type in a mechanism's section. -/
def srec (d : Dev) (m : Mech) (ty : Nat) : Rec := Img.glob (d.msec m) ty

/-- The LOOP record of a loop. -/
def loopRec (d : Dev) (m : Mech) (n : LoopId) : Option Rec := Img.loop (d.msec m) n.val

/-- KIND of a loop, 8 where the section has none. -/
def loopKind (d : Dev) (m : Mech) (n : LoopId) : Nat := match d.loopRec m n with
  | some r => Img.loopKind r
  | none => 8

/-- The zone of a swath (R252). -/
def zoneOf (d : Dev) (m : Mech) (swath : Nat) : Nat :=
  let z := d.srec m 0x60
  (((List.range (z.f 0 0 5)).filter (fun i => decide (z.f (1 + 2 * i) 0 14 ≤ swath))).length) - 1

/-- Layer of a PBA (R257). -/
def pbaLayer (pba : Nat) : Nat := bits pba 30 2

/-- Swath of a PBA (R257). -/
def pbaSwath (pba : Nat) : Nat := bits pba 16 14

/-- The highest junction reading among sensors not marked BAD, in 1/16 °C (R62); `none` with every sensor excluded. -/
def hottest (d : Dev) : Option Int :=
  (List.finRange 8).foldl (fun acc k =>
    if d.on (Reg.OXA_TEMP_BAD k) then acc
    else match acc with
      | none => some (d.getS (Reg.OXA_TEMP_TEMP k))
      | some t => some (max t (d.getS (Reg.OXA_TEMP_TEMP k)))) none

/-- The highest reading in signed °C, as STATUS and the logs carry it. The spec does not say how 1/16 °C become whole degrees, nor what
reads with every sensor BAD: rounded toward minus infinity, and 0 (DESIGN CHOICE, log entry 182). -/
def hottestC (d : Dev) : Nat := match d.hottest with
  | some t => ofSigned 8 (t / 16)
  | none => 0

/-! ### Mechanism state -/

/-- The state of mechanism `m` (R86). -/
def mstate (d : Dev) (m : Mech) : MState := MState.ofCode (d.get (Reg.MCH_STATE_STATE m))

/-- Writes the state code. -/
def setMstate (d : Dev) (m : Mech) (s : MState) : Dev := d.set (Reg.MCH_STATE_STATE m) s.code

/-- The running states. -/
def running (d : Dev) (m : Mech) : Bool :=
  d.mstate m ∈ [.spun, .focused, .tracking, .seeking, .reading, .writing]

/-- Whether the mechanism tracks: TRACKING, READING or WRITING. -/
def following (d : Dev) (m : Mech) : Bool := d.mstate m ∈ [.tracking, .reading, .writing]

/-- Beams in use: enabled, not retired, and not waiting for the calibration that follows RESTORE_BEAM (R103, R104). -/
def beamsInUse (d : Dev) (m : Mech) : Nat :=
  andNot (andNot (d.get (Reg.MCH_BEAM_ENABLE m)) (d.get (Reg.MCH_BEAM_RETIRED m))) (d.mx m).mch.restored

/-- The lowest-numbered beam in use. -/
def lowBeam (d : Dev) (m : Mech) : Nat := ((List.range 16).find? (fun b => tbit (d.beamsInUse m) b)).getD 0

/-- The Mule, motor PWM and Head Link lane clocks of a mechanism run (R59). -/
def clkWake (d : Dev) (m : Mech) : Dev := d.modClk m fun c => { c with mule := true, motor := true, lanes := 15 }

/-- The motor PWM clock of a mechanism runs (R55, R59). -/
def clkMotor (d : Dev) (m : Mech) : Dev := d.modClk m fun c => { c with motor := true }

/-- A beam's timing domain runs, from the first opening of its gates (R59). -/
def clkBeam (d : Dev) (m : Mech) (b : Beam) : Dev := d.modClk m fun c => { c with beams := setb c.beams b.val }

/-- Every domain of a mechanism at rest is gated (R59, R86). -/
def clkGate (d : Dev) (m : Mech) : Dev := d.modClk m fun _ => MechClk.reset

/-- Records an MCH event (R106). -/
def mchEvent (d : Dev) (m : Mech) (ev : Mech → Field) : Dev := d.evt (ev m) (Reg.MCH_EVENT_EN_EN m) (128 + m.val)

/-- Changes the optical control of a mechanism. -/
def modDet (d : Dev) (m : Mech) (f : DetX → DetX) : Dev := d.modOpt m fun x => { x with det := f x.det }

/-! ### The place of the head -/

/-- One microstep in the units of `SldX.pos`. -/
def ustep : Int := 4294967296

/-- Commanded position in whole microsteps. -/
def sledPos (d : Dev) (m : Mech) : Int := (d.mx m).sld.pos / ustep

/-- The swath estimate at the present position (R203). -/
def sledSwath (d : Dev) (m : Mech) : Nat :=
  let r := d.srec m 0x51
  let n := (d.sledPos m - (d.get (Reg.SLD_SWATH0_SWATH0_POS m) : Int)) * (r.f 2 0 16 * 1000 : Nat)
  (clampInt 0 6874 (n / (max 1 (4800 * r.f 2 16 16 * 256) : Nat))).toNat

/-! ### Loops -/

/-- The band of a value among ascending lower bounds with hysteresis, from the band held now (R123). -/
def bandOf (bounds : List Int) (hys v : Int) (now : Nat) : Nat :=
  let up := ((List.range bounds.length).filter (fun i => decide (now ≤ i ∧ bounds.getD i 0 + hys ≤ v))).length
  if 0 < up then now + up
  else ((List.range bounds.length).filter (fun i => decide (i < now ∧ bounds.getD i 0 - hys ≤ v))).length

/-- The address of the line that holds a buffer address (R433). -/
def lineOf (a : Nat) : Nat := a / 128 * 128

/-- The metadata cache's line of an address, if it is valid. -/
def findLine (d : Dev) (line : Nat) : Option Line := d.mdc.lines.find? (fun x => decide (x.addr = line))

/-- Buffer address of a bank: the banks lie from address 0, one 32-byte slot each (R437, log entry 15). -/
def bankAddr (m : Mech) (n : LoopId) (bank : Nat) : Nat := 32 * ((m.val * 25 + n.val) * 8 + bank)

/-- Buffer address of a region table (log entry 15). -/
def tableAddr (m : Mech) (n : LoopId) : Nat := 0x119000 + 160 * (m.val * 25 + n.val)

/-- `n` words from a 4-byte-aligned address, when locked lines hold them. -/
def lockedWords (d : Dev) (a n : Nat) : Option (List Nat) :=
  (List.range n).mapM fun i => match d.findLine (lineOf (a + 4 * i)) with
    | some x => if x.lock then some (byteField x.data ((a + 4 * i) % 128) 4) else none
    | none => none

/-- The region table of a loop: that of the locked lines, or else the image's (R46, R122). -/
def tableRec (d : Dev) (m : Mech) (n : LoopId) : Option Rec :=
  ((Img.ofType (d.msec m) 0x42).find? (fun r => decide (r.f 0 0 8 = n.val))).map fun r =>
    { r with ws := (d.lockedWords (tableAddr m n) r.ws.length).getD r.ws }

/-- The temperature in use, 1/16 °C (R123). -/
def regionTemp (d : Dev) (m : Mech) : Int :=
  if d.on (Reg.SRV_CFG_TSRC m) then d.hottest.getD (d.getS (Reg.SRV_TEMP_TEMP m))
  else
    let h := (d.mx m).srv.headTemp
    if h = [] then d.getS (Reg.SRV_TEMP_TEMP m) else h.foldl (· + ·) 0 / h.length

/-- The zone in use (R123): that of the track under the head; during a seek, that of the sled's present position. -/
def regionZone (d : Dev) (m : Mech) : Nat :=
  d.zoneOf m (if d.mstate m = .seeking then d.sledSwath m else (d.mx m).opt.swath)

/-- The bank that the region table selects for a loop at the present zone, speed and temperature, with the bands (R122–R124). -/
def regionBank (d : Dev) (m : Mech) (n : LoopId) : Nat × Nat × Nat :=
  let x := (d.mx m).srv.loops[n.val]
  match d.tableRec m n with
  | none => (0, x.speedBand, x.tempBand)
  | some r =>
    let nz := r.f 0 8 4
    let ns := r.f 0 12 4
    let nt := r.f 0 16 4
    let zr := (((Img.zStarts r).take (nz - 1)).filter (fun z => decide (z ≤ d.regionZone m))).length
    let sb := bandOf (((Img.speeds r).take (ns - 1)).map Int.ofNat) (r.f 3 0 16) ((d.mx m).spn.speed.natAbs / 2 : Nat)
      (min x.speedBand (ns - 1))
    let tb := bandOf (((Img.temps r).take (nt - 1)).map (fun t => toSigned 8 t)) (r.f 7 24 8)
      (d.regionTemp m / 16) (min x.tempBand (nt - 1))
    (Img.regionCell r ((zr * ns + sb) * nt + tb) % 8, sb, tb)

/-- The coefficients of a bank, in the order of R121: those of the locked lines, or else the image's. -/
def bankCoefs (d : Dev) (m : Mech) (n : LoopId) (b : Nat) : List Nat := match Img.bankRec (d.msec m) n.val b with
  | some r => (d.lockedWords (bankAddr m n b) (r.ws.length - 1)).getD (r.ws.drop 1)
  | none => []

/-- Whether FORCE_BANK replaces the region table: FORCE_EN with a bank below NBANKS (R125). -/
def forced (d : Dev) (m : Mech) (n : LoopId) : Bool :=
  d.on (Reg.SRV_LCTL_FORCE_EN m n) && (match d.loopRec m n with
    | some r => decide (d.get (Reg.SRV_LCTL_FORCE_BANK m n) < Img.loopBanks r)
    | none => false)

/-- Changes one loop. -/
def modLoop (d : Dev) (m : Mech) (n : LoopId) (f : LoopX → LoopX) : Dev :=
  d.modSrv m fun x => { x with loops := x.loops.set n.val (f x.loops[n.val]) }

/-- Whether a loop is enabled. -/
def loopOn (d : Dev) (m : Mech) (n : LoopId) : Bool := d.bit (Reg.SRV_ENABLE_EN m) n.val

/-- The minimum-select groups that a loop heads have no winner (R132). When a group is enabled, the spec does not say: here with its
head (DESIGN CHOICE, log entry 186). -/
def freshGroup (d : Dev) (m : Mech) (r : Rec) : Dev := match Img.loopKind r with
  | 5 => d.modSrv m fun x => { x with govs := x.govs.set 1 { x.govs[1] with winner := none } }
  | 6 => d.modSrv m fun x => { x with govs := x.govs.set 0 { x.govs[0] with winner := none } }
  | _ => d

/-- Enables a loop (R119): bank selected and loaded, s1 at the present output (or at `preset`), the other states 0. -/
def enableLoop (d : Dev) (m : Mech) (n : LoopId) (preset : Option Int := none) : Dev :=
  if d.loopOn m n then d
  else match d.loopRec m n with
    | none => d
    | some r =>
      let (bank, sb, tb) := d.regionBank m n
      let bank := if d.forced m n then d.get (Reg.SRV_LCTL_FORCE_BANK m n) else bank
      let out := preset.getD (d.getS (Reg.SRV_LOUT_OUT m n))
      let d := d.setBit (Reg.SRV_ENABLE_EN m) n.val true
      let d := d.set (Reg.SRV_LSTAT_ENABLED m n) 1
      let d := d.set (Reg.SRV_LSTAT_BANK m n) bank
      let d := d.set (Reg.SRV_LSTAT_SWITCH_PENDING m n) 0
      let cs := d.bankCoefs m n bank
      (d.freshGroup m r).modLoop m n fun x =>
        { x with s1 := out * 65536, s2 := 0, s3 := 0, e1 := 0, e2 := 0, hist := [], coef := cs, shadow := none, speedBand := sb, tempBand := tb, reenable := false, defHold := false, clampRun := 0 }

/-- Disables a loop; its last output stays on the actuator (R119). -/
def disableLoop (d : Dev) (m : Mech) (n : LoopId) : Dev :=
  let d := d.setBit (Reg.SRV_ENABLE_EN m) n.val false
  let d := d.set (Reg.SRV_LSTAT_ENABLED m n) 0
  d.modLoop m n fun x => { x with reenable := false, defHold := false, hist := [] }

/-- The loops of given kinds. -/
def loopsOf (d : Dev) (m : Mech) (kinds : List Nat) : List LoopId :=
  (List.finRange 25).filter (fun n => kinds.contains (d.loopKind m n))

/-- Disables every loop of the given kinds. -/
def disableKinds (d : Dev) (m : Mech) (kinds : List Nat) : Dev :=
  (d.loopsOf m kinds).foldl (fun d n => d.disableLoop m n) d

/-- Whether a loop may be enabled: a fine-tracking loop only for a beam in use (R103, R143). -/
def mayEnable (d : Dev) (m : Mech) (n : LoopId) : Bool := match d.loopRec m n with
  | some r => Img.loopKind r != 1 || tbit (d.beamsInUse m) (Img.loopBeam r)
  | none => false

/-- Enables every loop of the given kinds that may be enabled. -/
def enableKinds (d : Dev) (m : Mech) (kinds : List Nat) : Dev :=
  ((d.loopsOf m kinds).filter (d.mayEnable m)).foldl (fun d n => d.enableLoop m n) d

/-- Mean output of the enabled fine loops other than `b`'s (R150). -/
def fineMean (d : Dev) (m : Mech) (b : Nat) : Int :=
  let os := ((d.loopsOf m [1]).filter (fun n => d.loopOn m n && (match d.loopRec m n with
    | some r => Img.loopBeam r != b
    | none => false))).map (fun n => d.getS (Reg.SRV_LOUT_OUT m n))
  if os = [] then 0 else os.foldl (· + ·) 0 / os.length

/-- Enables the fine, coarse and sled loops at the settle step of a seek (R152 step 5), fine loops with R150's preset. -/
def enableTracking (d : Dev) (m : Mech) : Dev :=
  let d := ((d.loopsOf m [1]).filter (d.mayEnable m)).foldl (fun d n => d.enableLoop m n (some (d.fineMean m 16))) d
  (d.enableKinds m [2, 5]).set (Reg.SRV_OPT_STAT_TRACK_ON m) 1

/-- Enables or disables the optical loops as the state says (R143). -/
def applyLoops (d : Dev) (m : Mech) (s : MState) : Dev :=
  match s with
  | .focused => ((d.disableKinds m [1, 2, 5]).enableKinds m [0, 3, 4]).set (Reg.SRV_OPT_STAT_TRACK_ON m) 0
  | .tracking | .reading | .writing => (d.enableKinds m [0, 1, 2, 3, 4, 5]).set (Reg.SRV_OPT_STAT_TRACK_ON m) 1
  | .seeking => (d.disableKinds m [1, 2, 5]).set (Reg.SRV_OPT_STAT_TRACK_ON m) 0
  | _ =>
    let d := d.disableKinds m [0, 1, 2, 3, 4, 5]
    (d.set (Reg.SRV_OPT_STAT_TRACK_ON m) 0).set (Reg.SRV_OPT_STAT_FOCUS_ON m) 0

/-! ### Gates -/

/-- Whether a block is in progress (R89): from the word that arms its gates until they close. -/
def inBlock (d : Dev) (m : Mech) : Bool := (d.mx m).gate.inBlock || (d.mx m).fsq.armedOpen.toList.any Option.isSome

/-- The beams of `mask` whose write gate is open. -/
def openWrites (g : GateX) (mask : Nat) : List Nat := (List.range 16).filter (fun b => tbit mask b && tbit g.wopen b)

/-- Drops the write gates of the beams of `mask` that are open: each leaves a fragment from channel bit `first b` of its frame to the
end of the block, and its symbols of that block are not sent any more (R16 steps 2, 3 and 5). -/
def dropFrom (d : Dev) (m : Mech) (mask : Nat) (first : Nat → Nat) : Dev :=
  let g := (d.mx m).gate
  let hit := openWrites g mask
  (d.modGate m fun g =>
    { g with
      wopen := andNot g.wopen mask
      reopen := g.reopen ||| (g.wopen &&& mask)
      frags := g.frags ++ hit.map (fun b => ⟨b, first b, none⟩) }).modHlk m fun x =>
    { x with txq := x.txq.filter (fun c => !(hit.contains c.beam && c.pba == g.pba)) }

/-- Drops write gates at the present channel bit. -/
def dropGates (d : Dev) (m : Mech) (mask : Nat) : Dev :=
  d.dropFrom m mask fun _ => (d.mx m).gate.cb - (d.mx m).gate.start

/-- The block in progress ends: what was not written of it waits for Gander (R16 step 5, R280). -/
def endBlock (d : Dev) (m : Mech) : Dev :=
  d.modGate m fun g =>
    { g with
      ended := if g.inBlock ∧ g.writing then g.ended ++ [(g.pba, g.frags)] else g.ended
      frags := [], inBlock := false, writing := false }

/-- Closes every gate at once: an open write gate is a gate drop (R16, R458); a frame that it cuts off is not read. -/
def closeGates (d : Dev) (m : Mech) : Dev :=
  ((((d.dropGates m 0xFFFF).endBlock m).modGate m fun g => { g with ropen := 0 }).modHlk m fun x => { x with txq := [] }).modRch m fun x =>
    { x with frames := x.frames.filter (fun f => f.len.isSome) }

/-! ### Spindle -/

/-- Codes of SPN_STATE.CLASS (R175). -/
def spnClass (d : Dev) (m : Mech) : Nat := d.get (Reg.SPN_STATE_CLASS m)

/-- Records an SPN event. -/
def spnEvent (d : Dev) (m : Mech) (ev : Mech → Field) : Dev := d.evt (ev m) (Reg.SPN_EVENT_EN_EN m) (128 + m.val)

/-- Enables or disables the spindle and governor loops (R176). -/
def spnLoops (d : Dev) (m : Mech) (on : Bool) : Dev :=
  if on then d.enableKinds m [6, 7] else d.disableKinds m [6, 7]

/-- Flux of the magnet, λ_m (R178 step 2), in pV·s: KE ÷ (√3 × POLE_PAIRS × 2π × 1,000 ÷ 60). -/
def fluxRef (d : Dev) (m : Mech) : Int :=
  (d.get (Reg.SPN_LIM1_KE m) * 5513288954 / (1000 * max 1 ((d.srec m 0x50).f 0 16 4)) : Nat)

/-- Hands back from RECORDING (R183): the observer goes on from the angle estimate. -/
def handback (d : Dev) (m : Mech) (cause : Nat) : Dev :=
  let lam := d.fluxRef m
  if d.spnClass m = 3 then
    let d := d.set (Reg.SPN_STATE_CLASS m) 2
    let d := d.set (Reg.SPN_LAST_CAUSE m) cause
    let d := d.set (Reg.MCH_STATE_RECORDING_CLASS m) 0
    let d := d.count (Reg.SPN_FAULT_CNT_HANDBACK m)
    (d.spnEvent m Reg.SPN_EVENT_HANDBACK).modSpn m fun x => { x with handbackDue := none, bandRun := 0, sinceEdge := 0, psiA := lam * (cosSin x.ang).1 / 1073741824, psiB := lam * (cosSin x.ang).2 / 1073741824 }
  else d

/-- Speed reference of the profile source, in rpm (R130): the last target, or the record's profile, at most half of MAX_RPM
while MOTOR_KE holds. -/
def profileRpm (d : Dev) (m : Mech) : Nat :=
  let r := d.srec m 0x50
  let mx := r.f 0 0 16
  let t := if (d.mx m).spn.profile ≠ 0 then (d.mx m).spn.profile else if r.f 1 0 16 ≠ 0 then r.f 1 0 16 else mx
  if d.on (Reg.SPN_STATE_KE_BAD m) then min t (mx / 2) else t

/-- A hand-back cause that asks for one (R183): 1 the speed more than EXIT_ERR % from r, 2 the torque at its limit for SAT_T × 10 ms, 3 back-EMF
skips, 4 a target more than EXIT_ERR % from the present speed, 6 undervoltage; cause 5 comes with a change of class. -/
def handbackHolds (d : Dev) (m : Mech) (cause : Nat) : Bool :=
  let x := (d.mx m).spn
  let pct := d.get (Reg.SPN_REC_EXIT_EXIT_ERR m)
  let r := d.getS (Reg.SPN_SPEED_REF m)
  match cause with
  | 1 => decide (pct * r.natAbs < 100 * (x.speed - r).natAbs)
  | 2 => decide (0 < x.satRun ∧ 100 * d.get (Reg.SPN_REC_EXIT_SAT_T m) ≤ x.satRun)
  | 3 => decide (d.get (Reg.SPN_REC_EXIT_BEMF_SKIP_MAX m) ≤ x.bemfSkips)
  | 4 =>
    let t : Int := 2 * (d.profileRpm m : Int)
    decide (pct * x.speed.natAbs < 100 * (t - x.speed).natAbs)
  | 5 => true
  | 6 => d.on (Reg.SPN_STATE_UV m)
  | _ => false

/-- A hand-back cause (R183): causes 1, 2 and 4 wait for the end of the block in progress of a write run. -/
def handbackCause (d : Dev) (m : Mech) (cause : Nat) : Dev :=
  let x := (d.mx m).spn
  if d.spnClass m ≠ 3 ∨ ¬ d.handbackHolds m cause then d
  else if (cause = 1 ∨ cause = 2 ∨ cause = 4) ∧ d.on (Reg.FSQ_STAT_RUN m) ∧ d.on (Reg.FSQ_STAT_WRITE m) then
    if x.handbackDue = none then d.modSpn m fun y => { y with handbackDue := some cause } else d
  else d.handback m cause

/-- A deferred hand-back takes effect: the block in progress has ended, or the write run is over (R183). -/
def handbackNow (d : Dev) (m : Mech) : Dev := match (d.mx m).spn.handbackDue with
  | some c => d.handback m c
  | none => d

/-- Enters a spindle class other than RECORDING (R175): gates, power-stage enable and loops follow the class; only a spindle under the
speed loop absorbs (R192); SPN keeps no estimate in classes 0 and 7 (R174). What the class before it had under way is over. -/
def spnEnter (d : Dev) (m : Mech) (c : Nat) : Dev :=
  let d := d.handback m 5
  let d := if c = 0 ∨ c = 7 then d else d.clkMotor m
  let d := (d.set (Reg.SPN_STATE_CLASS m) c).setB (Reg.SPN_STATE_SHORT m) (decide (c = 5))
  let d := if c = 2 then d.spnLoops m true else if c = 1 then d else d.spnLoops m false
  let d := if c = 2 then d else d.set (Reg.SPN_STATE_ABSORB m) 0
  let d := if c = 0 ∨ c = 7 then
      (d.setAll [(Reg.SPN_STATE_DIR m, 0), (Reg.SPN_SPEED_SPEED m, 0), (Reg.SPN_TORQUE_TREF m, 0)]).modSpn m fun x =>
        { x with waitLink := false, comFail := false, wasBraking := false, handbackDue := none, speed := 0, curSkips := 0, trips := [], indexDue := false }
    else d.modSpn m fun x => { x with waitLink := false }
  let d := d.modSpn m fun x =>
    { x with fluxBuild := false, coast := false, releasing := false, released := false, vector := 0, window := .none, emf := EmfX.reset,
             sinceEdge := 0, fluxBad := 0, start0 := none, bandRun := 0, satRun := 0, sectorEdge := false }
  d.modPins m fun p => { p with
    psen := decide (1 ≤ c ∧ c ≤ 6)
    gates := if c = 0 ∨ c = 1 ∨ c = 7 then .off else if c = 5 then .lowSides else .driven }

/-- Catch measurement starts (R185). -/
def spnCatch (d : Dev) (m : Mech) : Dev := d.spnEnter m 1

/-- Sets the speed estimate and its register (R174). -/
def setSpeed (d : Dev) (m : Mech) (n : Int) : Dev :=
  ((d.modSpn m fun x => { x with speed := n }).setS (Reg.SPN_SPEED_SPEED m) (sat16 n)).setB (Reg.SPN_STATE_DIR m) (decide (n < 0))

/-- MECH of a count of electrical revolutions and an electrical angle (R174). -/
def mechAngle (d : Dev) (m : Mech) (revs ang : Nat) : Nat := (revs * 65536 + ang / 65536) / max 1 ((d.srec m 0x50).f 0 16 4) % 65536

/-- The observer starts with magnitude λ_m at an angle (R186). -/
def startObserver (d : Dev) (m : Mech) (ang : Nat) : Dev :=
  let lam := d.fluxRef m
  let cs := cosSin ang
  (d.setAll [(Reg.SPN_POS_ELEC m, ang / 65536), (Reg.SPN_POS_MECH m, d.mechAngle m (d.mx m).spn.elecRevs ang)]).modSpn m fun x =>
    { x with ang := ang, sampleAng := ang, sampleNs := 0, lossSum := 0, psiA := lam * cs.1 / 1073741824, psiB := lam * cs.2 / 1073741824, dpsi := false, dtau := 0 }

/-- The magnet's angle under a back-EMF angle: 90° behind it forward, 90° ahead of it backward (R186). -/
def rotorAngle (forward : Bool) (a : Nat) : Nat := (if forward then a + 3221225472 else a + 1073741824) % 4294967296

/-- Speed over a window (R185), 0.5 rpm, from the turning of the back-EMF vector; a mean peak below 50 mV line to line is standstill. -/
def emfSpeed (d : Dev) (m : Mech) : Int :=
  let e := (d.mx m).spn.emf
  if e.ns = 0 ∨ e.peaks < 5000 * e.n then 0
  else e.turned * 120000000000 / (4294967296 * (max 1 ((d.srec m 0x50).f 0 16 4) * e.ns : Nat))

/-- The catch decision of R186 for speed `n` (0.5 rpm), with the target of the spin-up; `fresh` when a window measured it, so that
the observer starts anew, at the back-EMF angle `ang`. In case 0 the flux build comes first. -/
def spnAfterCatch (d : Dev) (m : Mech) (n : Int) (fresh : Bool) (ang : Nat) : Dev :=
  let back : Int := 2 * (d.get (Reg.SPN_LIM0_BACK_THR m) : Int)
  let go (c k : Nat) : Dev :=
    let d := (d.spnEnter m k).setSpeed m n
    let d := ((d.set (Reg.SPN_STATE_CASE m) c).set (Reg.SPN_CATCH_CASE m) c).setS (Reg.SPN_CATCH_SPEED m) (sat16 n)
    if c = 0 then d.modSpn m fun x => { x with fluxBuild := true, vector := 1 }
    else if fresh then d.startObserver m (rotorAngle (decide (0 < n)) ang) else d
  if n.natAbs < 60 then go 0 2
  else if 0 < n then go (if n ≤ 2 * (d.profileRpm m : Int) then 1 else 2) 2
  else if -back < n then go 3 4
  else go 4 5

/-- The decision of R187 for a spin-down catch. -/
def spnAfterDownCatch (d : Dev) (m : Mech) (n : Int) (ang : Nat) : Dev :=
  let back : Int := 2 * (d.get (Reg.SPN_LIM0_BACK_THR m) : Int)
  let d := d.setS (Reg.SPN_CATCH_SPEED m) (sat16 n)
  if n.natAbs < 60 then d.spnEnter m 0
  else (((d.spnEnter m (if -back < n then 4 else 5)).setSpeed m n).startObserver m (rotorAngle (decide (0 < n)) ang))

/-- A coast window opens (R194), the gates off, when the speed is one that is measured. -/
def openWindow (d : Dev) (m : Mech) (w : CoastWin) : Dev :=
  (d.modSpn m fun x => { x with window := w, emf := EmfX.reset }).modPins m fun p => { p with gates := .off }

/-- Whether a coast window is taken at the present speed: at or above KE_MIN (R194). -/
def windowDue (d : Dev) (m : Mech) : Bool := decide (2 * d.get (Reg.SPN_CATCH_CFG_KE_MIN m) ≤ (d.mx m).spn.speed.natAbs)

/-- SPN when MCH enters SPINNING_UP (R175, R187). -/
def spnSpinUp (d : Dev) (m : Mech) : Dev :=
  let c := d.spnClass m
  if c = 0 then
    if d.get (Reg.HLK_STATE_LINK m) = 3 then d.spnCatch m else d.modSpn m fun x => { x with waitLink := true }
  else if c = 4 ∨ (c = 5 ∧ ¬ (d.mx m).spn.comFail) then d.spnAfterCatch m (d.mx m).spn.speed false 0
  else if c = 2 ∧ (d.mx m).spn.window = .down then
    (d.modSpn m fun x => { x with window := .none }).modPins m fun p => { p with gates := .driven }
  else d

/-- SPN when MCH enters SPINNING_DOWN (`measure`) or FAULT (R175, R187, R194): a driven spindle brakes, in SPINNING_DOWN after a coast window. -/
def spnBrake (d : Dev) (m : Mech) (measure : Bool) : Dev :=
  let c := d.spnClass m
  if c = 0 then if measure then d.spnCatch m else d.modSpn m fun x => { x with waitLink := false }
  else if c = 2 ∨ c = 3 then
    if measure ∧ d.windowDue m then (d.handback m 5).openWindow m .down else d.spnEnter m 4
  else if c = 6 then d.modSpn m fun x => { x with wasBraking := true }
  else d

/-! ### Sled -/

/-- Records an SLD event. -/
def sldEvent (d : Dev) (m : Mech) (ev : Mech → Field) : Dev := d.evt (ev m) (Reg.SLD_EVENT_EN_EN m) (128 + m.val)

/-- Publishes position, target and remaining distance (R224). -/
def sldPublish (d : Dev) (m : Mech) : Dev :=
  let x := (d.mx m).sld
  let p := x.pos / ustep
  let d := d.setS (Reg.SLD_POS_POS m) p
  let d := d.setS (Reg.SLD_TGT_TARGET m) x.target
  let d := d.setS (Reg.SLD_REMAIN_REMAIN m) (x.target - p)
  let d := d.setS (Reg.SLD_VEL_VEL m) (sat16 (x.vel / 10000))
  let d := d.setS (Reg.SLD_VEL_ACC m) (sat16 (x.acc / 2000000))
  let mode := d.get (Reg.SLD_STATE_MODE m)
  d.setB (Reg.SLD_STATE_AT_PARK m)
    (d.on (Reg.SLD_STATE_HOMED m) && decide ((p - (d.get (Reg.SLD_PARK_PARK_POS m) : Int)).natAbs ≤ 1 ∧ mode ≤ 1))

/-- Enters a sled mode; bridge outputs are on in every mode but OFF (R208), and the clock of a sled that moves runs. -/
def sldMode (d : Dev) (m : Mech) (mode : Nat) : Dev :=
  let d := if mode = 2 ∨ mode = 3 ∨ mode = 5 then d.clkMotor m else d
  (((d.set (Reg.SLD_STATE_MODE m) mode).modPins m fun p => { p with sled := decide (mode ≠ 0) }).modSld m fun x =>
    { x with hardHold := false, dutyA := if mode = 0 then none else x.dutyA, dutyB := if mode = 0 then none else x.dutyB }).sldPublish m

/-- Starts homing (R214); with the inner switch asserted, at step 3. -/
def sldHome (d : Dev) (m : Mech) (after : Option Int) : Dev :=
  let step := if tbit (d.get (Reg.SLD_STATE_LIM m)) 0 then 3 else 1
  let d := d.modSld m fun x =>
    { x with homeStep := step, homeFrom := x.pos, after := after, vel := 0, acc := 0, stopping := false, limStop := false, limMove := false }
  let d := (d.set (Reg.SLD_STATE_HOMED m) 0).set (Reg.SLD_STATE_KEPT m) 0
  (d.set (Reg.SLD_STATE_UV_WAIT m) 0).sldMode m 5

/-- Speed once the acceleration is ramped to zero (R209), nm/s. -/
def sldVc (d : Dev) (m : Mech) : Int :=
  let x := (d.mx m).sld
  x.vel + Int.tdiv (x.acc * x.acc.natAbs) (2 * 1000000000 * (max 1 (d.get (Reg.SLD_LIM1_JERK m)) : Nat))

/-- Starts a move to a position (R208–R211, R219): a retarget when one is running; homing first when HOMED is 0 (R215, R221). A ramp stop
on a switch that is braking goes on to zero speed first (R217). -/
def sldMove (d : Dev) (m : Mech) (target : Int) (seekMove : Bool) : Dev :=
  if ¬ d.on (Reg.SLD_STATE_HOMED m) then
    let d := if d.get (Reg.SLD_STATE_MODE m) = 5 ∧ ¬ (d.mx m).sld.stopping then d.modSld m fun x => { x with after := some target } else d.sldHome m (some target)
    d.modSld m fun x => { x with seekMove := seekMove }
  else
    let x := (d.mx m).sld
    let rev := decide (d.get (Reg.SLD_STATE_MODE m) = 2 ∧ d.sldVc m * (target * ustep - x.pos) < 0)
    let d := d.modSld m fun x =>
      { x with target := target, stopping := false, seekMove := seekMove, limMove := x.limStop, homeStep := 0, after := none, stopOp := false }
    let d := ((d.set (Reg.SLD_STATE_KEPT m) 0).set (Reg.SLD_STATE_UV_WAIT m) 0)
    let d := if rev then ((d.set (Reg.SLD_STATE_REVERSING m) 1).count (Reg.SLD_MOVE_CNT_REVERSALS m)).sldEvent m Reg.SLD_EVENT_REVERSING else d
    d.sldMode m 2

/-- A park move (R215). -/
def sldPark (d : Dev) (m : Mech) : Dev := d.sldMove m (d.get (Reg.SLD_PARK_PARK_POS m)) false

/-- Stops a move as STOP does: braking at AMAX and JERK; the move is kept (R219). Homing is abandoned instead, braking likewise (R214). -/
def sldStop (d : Dev) (m : Mech) : Dev :=
  let mode := d.get (Reg.SLD_STATE_MODE m)
  if mode = 2 then
    let st := d.get (Reg.MCH_STATE_STATE m)
    (d.modSld m fun x => { x with stopping := true, keptState := st }).set (Reg.SLD_STATE_KEPT m) 1
  else if mode = 5 then
    ((d.modSld m fun x => { x with homeStep := 0, after := none, stopping := true }).set (Reg.SLD_STATE_HOMED m) 0).set
      (Reg.SLD_STATE_KEPT m) 0
  else d

/-- SPN_STATE.UV sets (R219): a move stops and waits for the voltage. -/
def sldUndervolt (d : Dev) (m : Mech) : Dev :=
  let mode := d.get (Reg.SLD_STATE_MODE m)
  if mode = 2 then ((d.sldStop m).set (Reg.SLD_STATE_UV_WAIT m) 1).sldEvent m Reg.SLD_EVENT_UV_STOP
  else if mode = 5 then (d.sldStop m).sldEvent m Reg.SLD_EVENT_UV_STOP
  else d

/-- The position is lost by an abrupt stop above STALL_V (R217, R221). -/
def sldLose (d : Dev) (m : Mech) : Dev :=
  if (d.srec m 0x51).f 11 0 16 * 10000 < (d.mx m).sld.vel.natAbs then
    (d.set (Reg.SLD_STATE_HOMED m) 0).sldEvent m Reg.SLD_EVENT_POS_LOST
  else d

/-- Cuts the bridges (R219, R221): the move stays as a record, and the position is lost above STALL_V. -/
def sldCut (d : Dev) (m : Mech) : Dev :=
  let d := if d.get (Reg.SLD_STATE_MODE m) = 2 then d.set (Reg.SLD_STATE_KEPT m) 1 else d
  let d := (d.sldLose m).modSld m fun x => { x with vel := 0, acc := 0, homeStep := 0, after := none, stopping := false, limStop := false, limMove := false }
  (d.set (Reg.SLD_STATE_REVERSING m) 0).sldMode m 0

/-- The sled target of a swath (R203). -/
def sledTarget (d : Dev) (m : Mech) (swath : Nat) : Int :=
  (d.get (Reg.SLD_SWATH0_SWATH0_POS m) + Img.swathSteps (d.srec m 0x51) swath : Nat)

/-! ### Commands and slots -/

/-- Whether an MCH command is in progress (R88). -/
def cmdBusy (d : Dev) (m : Mech) : Bool := d.get (Reg.MCH_CMDSTAT_RESULT m) == 1

/-- OP of the command in progress, 0 when none is. -/
def cmdOp (d : Dev) (m : Mech) : Nat := if d.cmdBusy m then d.get (Reg.MCH_CMDSTAT_OP m) else 0

/-- Ends the command in progress with a result. -/
def endCmd (d : Dev) (m : Mech) (result : Nat) : Dev :=
  if d.cmdBusy m then (d.set (Reg.MCH_CMDSTAT_RESULT m) result).modMch m fun x => { x with init := .none } else d

/-- The slot `i`. -/
def slot (d : Dev) (i : Nat) : Option Slot := Sparse.lookup d.slots i

/-- Writes slot `i`. -/
def setSlot (d : Dev) (i : Nat) (s : Slot) : Dev := { d with slots := Sparse.insert (Sparse.erase d.slots i) i s }

/-- Gives the command of slot `i` its status; it then waits to be posted (R365). A finished command keeps its status. The
outcome is Delayed when service delay of at least 1 µs has been counted (R366). -/
def finishSlot (d : Dev) (i status : Nat) (result : Nat := 0) : Dev :=
  match d.slot i with
  | some s => if s.phase = .finished then d
      else d.setSlot i { s with phase := .finished, status := status, result := result, outcome := if s.delay = 0 then .served else .delayed }
  | none => d

/-- Refuses the command of slot `i` (R366): outcome Refused, the reason and the delay since the fetch. -/
def refuseSlot (d : Dev) (i status reason : Nat) (result : Nat := 0) : Dev :=
  match d.slot i with
  | some s => if s.phase = .finished then d
      else d.setSlot i { s with phase := .finished, status := status, result := result, outcome := .refused, reason := reason, delay := (d.now - s.arrived) / 1000 }
  | none => d

/-- Answers media requests with MECHANISM_FAULT, Refused (R94). -/
def failMedia (d : Dev) : List HeldReq → Dev
  | [] => d
  | h :: t => match h.req.slot with
    | some i => failMedia (d.refuseSlot i 0x15 5) t
    | none => failMedia d t

/-- Publishes GOAT_STAT (R322). -/
def goatSync (d : Dev) (m : Mech) : Dev :=
  let g := (d.mx m).goat
  d.setAll [(Reg.GOAT_STAT_CTX m, g.ctxs.length), (Reg.GOAT_STAT_WAIT m, min 15 g.waiting.length),
    (Reg.GOAT_STAT_REFRESH_Q m, g.refreshes.length),
    (Reg.GOAT_STAT_SUSPENDED m, b2n (decide (g.ctxs ≠ []) && !d.following m))]

/-- Ends every recovery context (R311): counted ABANDONED, their reads leave the sequencer. -/
def endContexts (d : Dev) (m : Mech) : Dev :=
  let n := (d.mx m).goat.ctxs.length
  let d := if n = 0 then d
    else (d.count (Reg.GOAT_UNREC_ABANDONED m) n).evt (Reg.GOAT_EVENT_ABANDON m) (Reg.GOAT_EVENT_EN_EN m) (128 + m.val)
  let d := d.modMech m fun x =>
    { x with
      goat := { x.goat with ctxs := [], waiting := [] }
      rch := { x.rch with reads := [] }
      fsq := { x.fsq with items := x.fsq.items.filter (fun w => decide (w.entry ≠ 6)) } }
  d.goatSync m

/-- Whether a partial reload holds this mechanism's requests (R49). -/
def reloadHolds (d : Dev) (m : Mech) : Bool := match d.fw.reload with
  | some r => r.mech == some m.val && r.image.isSome
  | none => false

/-- Fails every media request held or served at a mechanism, unless a partial reload holds them (R94). -/
def failHeld (d : Dev) (m : Mech) : Dev :=
  let d := d.endContexts m
  if d.reloadHolds m then d
  else (d.failMedia (d.mx m).mch.held).modMech m fun x =>
    { x with mch := { x.mch with held := [] }, fsq := { x.fsq with items := x.fsq.items.filter (fun w => decide (w.entry ≠ 2)) } }

/-- Ends automatic sequencing. -/
def endAuto (d : Dev) (m : Mech) : Dev := d.set (Reg.MCH_STATE_AUTO_ACTIVE m) 0

/-- Abandons focus acquisition, seek, jump and calibration in progress (R91, R154, R164). -/
def abandonOptics (d : Dev) (m : Mech) : Dev :=
  let d := if (d.mx m).opt.jump = .none then d else (d.loopsOf m [3, 4]).foldl (fun d n => d.set (Reg.SRV_LCTL_MODE m n) 0) d
  let d := d.modOpt m fun x => { x with focus := .none, seek := .none, jump := .none, cal := .none, retreat := false, defects := [] }
  let d := (d.set (Reg.SRV_OPT_STAT_CAL_STEP m) 0).set (Reg.SRV_OPT_STAT_JUMP m) 0
  ((d.set (Reg.SRV_SEEK_STAT_ACTIVE m) 0).set (Reg.SRV_DEF_ACTIVE_BEAM m) 0).set (Reg.SRV_DEF_ACTIVE_FOCUS m) 0

/-- Drives HLKm_LDEN. -/
def lden (d : Dev) (m : Mech) (b : Bool) : Dev := d.modPins m fun p => { p with lden := b }

/-- Drives MOTm_XPERMIT. -/
def xpermit (d : Dev) (m : Mech) (b : Bool) : Dev := d.modPins m fun p => { p with xpermit := b }

/-! ### Faults -/

/-- Fault code of a bit of R100. -/
def faultCode (bit : Nat) : Nat := if bit < 16 then bit + 1 else bit

/-- Enters FAULT (R86): gates closed, LDEN low, spindle braked, the sled's move stopped, sequencing and requests ended. -/
def enterFault (d : Dev) (m : Mech) : Dev :=
  let d := ((d.closeGates m).lden m false).abandonOptics m
  let d := (d.sldStop m).spnBrake m false
  let d := if d.spnClass m = 0 then d.sldPark m else d
  let d := (d.setMstate m .fault).applyLoops m .fault
  let d := (d.set (Reg.MCH_STATE_AT_REST m) 0).endAuto m
  (d.failHeld m).modMch m fun x => { x with init := .none, goal := .none, deferred := .none, relock := false, stopReq := false }

/-- Enters SAFE (R86, R175 class 7, R219): LDEN low, bridges and chopper off, spindle gates by the motor safe rule. -/
def enterSafe (d : Dev) (m : Mech) : Dev :=
  let d := (((d.closeGates m).lden m false).xpermit m false).abandonOptics m
  let d := (d.sldCut m).spnEnter m 7
  let d := d.modPins m fun p => { p with chop := false, psen := false }
  let d := (d.setMstate m .safe).applyLoops m .safe
  let d := (d.set (Reg.MCH_STATE_AT_REST m) 0).endAuto m
  (d.failHeld m).modMch m fun x => { x with init := .none, goal := .none, deferred := .none, relock := false, stopReq := false, exchEnding := false, exchFault := false }

/-- Faults of the last 600 s (R102). -/
def recentFaults (d : Dev) (m : Mech) : List Nat := (d.mx m).mch.faultTimes.filter (fun t => decide (d.now < t + 600000000000))

/-- Whether a fault becomes MCH_FAULT_FIRST (R101): none is recorded, or the one recorded was raised in the same Mule frame
(1.25 µs) and ranks behind it, SAFE actions first, then the lowest code. -/
def becomesFirst (d : Dev) (m : Mech) (bit : Nat) : Bool :=
  let c := d.get (Reg.MCH_FAULT_FIRST_CODE m)
  let x := (d.mx m).mch
  let same := decide (x.firstFrame = (d.mx m).opt.frameCount ∧ d.now < x.firstAt + 1250)
  let rank (code : Nat) : Nat := if 16 ≤ code then code - 16 else code + 16
  c == 0 || (same && decide (rank (faultCode bit) < rank c))

/-- The record-keeping of a fault (R100–R102): its bit and interrupt, MCH_FAULT_FIRST, the error log, the counters, and
whether an escalation falls due. -/
def noteFault (d : Dev) (m : Mech) (bit : Nat) : Dev :=
  let st := d.get (Reg.MCH_STATE_STATE m)
  let first := d.becomesFirst m bit
  let d := d.raiseEvt (Reg.MCH_FAULT_FAULT m) (Reg.MCH_FAULT_EN_EN m) bit (128 + m.val)
  let d := if first then
      ((d.set (Reg.MCH_FAULT_FIRST_CODE m) (faultCode bit)).set (Reg.MCH_FAULT_FIRST_STATE m) st).modMch m fun x =>
        { x with firstAt := d.now, firstFrame := (d.mx m).opt.frameCount }
    else d
  let d := d.elogAdd (0x40 + m.val) 3 (faultCode bit) [(16, 1, st), (17, 1, b2n first)]
  let ts := d.now :: d.recentFaults m
  let d := (d.modMch m fun x => { x with faultTimes := ts }).set (Reg.MCH_FAULT_CNT_WINDOW m) (min 255 ts.length)
  let d := d.count (Reg.MCH_FAULT_CNT_TOTAL m)
  let lim := d.get (Reg.MCH_CFG_ESC_LIMIT m)
  if lim ≠ 0 ∧ lim ≤ ts.length then d.modMch m fun x => { x with escalate := true } else d

/-- Raises a fault of R100 on mechanism `m`: SAFE faults act in every state, FAULT faults in every state but FAULT and SAFE;
in EXCHANGE a FAULT fault is latched (R99). The command in progress ends FAILED (R91). -/
def raiseFault (d : Dev) (m : Mech) (bit : Nat) : Dev :=
  let st := d.mstate m
  let d := d.noteFault m bit
  if 16 ≤ bit then
    if st = .safe then d else (d.endCmd m 5).enterSafe m
  else if st = .exchange then d.modMch m fun x => { x with exchFault := true }
  else if st = .fault ∨ st = .safe then d
  else (d.endCmd m 5).enterFault m

end Dev
end Sys2Proof.Machine
end

