-- ==== Sys2Proof/Machine/BlockOps.lean ====
section
/-! DEFINITION. Operations on recording blocks and what waits on them: buffer pools and pressure (R336–R345), flushes (R370),
Archive Service events (R412), the defect remap table (R317, R318), the leaky bucket (R316), slot geometry (R252–R257),
parity groups (R276, R402) and the release of a block (R14). -/
namespace Sys2Proof.Machine
namespace Dev

def modBufx (d : Dev) (f : BufX → BufX) : Dev := { d with bufx := f d.bufx }
def modArc (d : Dev) (f : ArcX → ArcX) : Dev := { d with arc := f d.arc }
def modQe (d : Dev) (f : QeX → QeX) : Dev := { d with qe := f d.qe }
def modFw (d : Dev) (f : FwX → FwX) : Dev := { d with fw := f d.fw }
def modSec (d : Dev) (f : SecX → SecX) : Dev := { d with sec := f d.sec }
def modFsq (d : Dev) (m : Mech) (f : FsqX → FsqX) : Dev := d.modMech m fun x => { x with fsq := f x.fsq }
def modWch (d : Dev) (m : Mech) (f : WchX → WchX) : Dev := d.modMech m fun x => { x with wch := f x.wch }
def modGoat (d : Dev) (m : Mech) (f : GoatX → GoatX) : Dev := d.modMech m fun x => { x with goat := f x.goat }

/-! ### Discs -/

/-- The disc in mechanism `m`. -/
def discIn (d : Dev) (m : Mech) : Option Disc := d.arc.discs.find? (fun x => decide (x.mech = some m.val))

/-- Changes the record of a disc. -/
def modDisc (d : Dev) (ident : Nat) (f : Disc → Disc) : Dev :=
  d.modArc fun a => { a with discs := a.discs.map (fun x => if x.ident = ident then f x else x) }

/-! ### Slots -/

/-- Bytes of a submission entry as a number (R360). -/
def ent (s : Slot) (o n : Nat) : Nat := byteField s.entry o n

/-- OPCODE of a slot's command. -/
def opcode (s : Slot) : Nat := byteField s.entry 0 1

/-- CDWk of a slot's command. -/
def cdw (s : Slot) (k : Nat) : Nat := byteField s.entry (32 + 4 * k) 4

/-- VOL of a slot's command. -/
def volOf (s : Slot) : Nat := byteField s.entry 4 2

/-- Whether a slot holds an admin command. -/
def isAdmin (s : Slot) : Bool := s.pair == 0

/-- Changes a slot. -/
def modSlot (d : Dev) (i : Nat) (f : Slot → Slot) : Dev := match d.slot i with
  | some s => d.setSlot i (f s)
  | none => d

/-- Adds service delay to a slot, in ns (R366): it counts in µs. -/
def addDelay (d : Dev) (i ns : Nat) : Dev := d.modSlot i fun s => { s with delay := s.delay + ns / 1000 }

/-! ### Buffer pools -/

/-- A block in the buffer. -/
def blk (d : Dev) (i : Nat) : Option Blk := Sparse.lookup d.bufx.blocks i

/-- Bytes of a recording block's user data. -/
def blkBytes : Nat := 65536

/-- First sector of the range of a command. -/
def slba (s : Slot) : Nat := byteField s.entry 32 8

/-- Sectors of the range of a command. -/
def nsect (s : Slot) : Nat := cdw s 2

/-- Bytes of data of a command: DLEN, or the lengths of its data list (R363). -/
def dataLen (s : Slot) : Nat :=
  if tbit (ent s 1 1) 0 then ((List.range (s.dlist.length / 16)).map (fun k => byteField s.dlist (16 * k + 8) 4)).foldl (· + ·) 0
  else ent s 24 4

/-- Blocks that an admitted write is charged for until its data is staged (R337). -/
def slotBlocks (s : Slot) : Nat :=
  if s.phase ≠ .running ∨ isAdmin s then 0
  else if opcode s = 1 then (slba s + nsect s + 15) / 16 - slba s / 16
  else if opcode s = 0x20 then (dataLen s + 65535) / 65536
  else 0

/-- Blocks charged to a pool; admitted writes are charged to staging (R337). -/
def poolCount (d : Dev) (p : Pool) : Nat :=
  (d.bufx.blocks.filter (fun b => b.2.pool = p)).length +
    (if p = .staging then (d.slots.map (fun s => slotBlocks s.2)).foldl (· + ·) 0 else 0)

/-- Size of a pool in blocks: 16 to the MiB. -/
def poolSize (d : Dev) (p : Pool) : Nat := 16 * d.get (match p with
  | .staging => Reg.BUF_SZ_MIB 0
  | .retained => Reg.BUF_SZ_MIB 1
  | .cache => Reg.BUF_SZ_MIB 2
  | .catalogue => Reg.BUF_SZ_MIB 3
  | .spare => Reg.BUF_SZ_MIB 4)

/-- Records a BUF event (R348, R353: vector 144). -/
def bufEvent (d : Dev) (ev : Field) : Dev := d.evt ev Reg.BUF_EVENT_EN_EN 144

/-- QUOTA of a stream in bytes (R340): RSV × HORIZON_MS ÷ 1,000 MB. -/
def quota (d : Dev) (s : Stream) : Nat := s.rsv * d.get Reg.BUF_RES_CFG_HORIZON_MS * 1000

/-- Stream context of a Write or Object Put, if it names one (R391). -/
def streamCtx (s : Slot) : Option Nat :=
  if isAdmin s then none
  else if opcode s = 0x20 then some (cdw s 0 % 16384)
  else if opcode s = 1 ∧ cdw s 3 ≠ 0 then some (cdw s 3 % 16384)
  else none

/-- Reserved-class bytes of a stream context in staging: those of admitted writes and those of blocks not yet handed to the FSQ
(R341). -/
def stagedBytes (d : Dev) (c : Nat) : Nat :=
  (d.slots.map (fun s => if s.2.phase = .running ∧ s.2.cls = .reserved ∧ streamCtx s.2 = some c then dataLen s.2 else 0)).foldl (· + ·) 0 +
    (d.bufx.blocks.map (fun b => if b.2.pool = .staging then ((b.2.reserved.filter (fun r => decide (r.1 = c))).map Prod.snd).foldl (· + ·) 0 else 0)).foldl (· + ·) 0

/-- HELD in bytes (R343). -/
def heldBytes (d : Dev) : Nat :=
  (d.arc.streams.map (fun s => if s.2.opened ∧ 0 < s.2.rsv then d.quota s.2 - d.stagedBytes s.1 else 0)).foldl (· + ·) 0

/-- Refuses the unreserved writes that have waited for admission longer than the hold limit (R345). -/
def refuseWaiting (d : Dev) : List (Nat × Slot) → Dev
  | [] => d
  | (i, s) :: t =>
    let late := decide (s.phase = .admitWait ∧ s.cls = .unreserved ∧ (opcode s = 1 ∨ opcode s = 0x20) ∧
      s.grantedAt + (d.grec 0x90).f 3 0 16 * 1000000 < d.now)
    refuseWaiting (if late then (d.refuseSlot i 0x13 1).count Reg.BUF_OUT_REFUSED_COUNT else d) t

/-- Publishes occupancy and HELD, and begins or ends buffer pressure (R345). -/
def syncBuf (d : Dev) : Dev :=
  let o := d.poolCount .staging
  let d := d.setAll [(Reg.BUF_OCC_MIB 0, o / 16), (Reg.BUF_OCC_MIB 1, d.poolCount .retained / 16),
    (Reg.BUF_OCC_MIB 2, d.poolCount .cache / 16), (Reg.BUF_OCC_MIB 3, d.poolCount .catalogue / 16),
    (Reg.BUF_OCC_MIB 4, d.poolCount .spare / 16), (Reg.BUF_HELD_MIB, d.heldBytes / 1048576)]
  let size := d.poolSize .staging
  if size = 0 then d
  else if ¬ d.on Reg.BUF_STAT_PRESSURE ∧ d.get Reg.BUF_WM_HIGH_WM * size ≤ 100 * o then
    let d := (d.set Reg.BUF_STAT_PRESSURE 1).bufEvent Reg.BUF_EVENT_PRESSURE_ON
    d.refuseWaiting d.slots
  else if d.on Reg.BUF_STAT_PRESSURE ∧ 100 * o < d.get Reg.BUF_WM_LOW_WM * size then
    (d.set Reg.BUF_STAT_PRESSURE 0).bufEvent Reg.BUF_EVENT_PRESSURE_OFF
  else d

/-- Writes block `i`. -/
def setBlk (d : Dev) (i : Nat) (b : Blk) : Dev :=
  (d.modBufx fun x => { x with blocks := Sparse.insert (Sparse.erase x.blocks i) i b }).syncBuf

/-- Changes block `i`. -/
def modBlk (d : Dev) (i : Nat) (f : Blk → Blk) : Dev := match d.blk i with
  | some b => d.setBlk i (f b)
  | none => d

/-- Drops block `i` from the buffer. -/
def dropBlk (d : Dev) (i : Nat) : Dev := (d.modBufx fun x => { x with blocks := Sparse.erase x.blocks i }).syncBuf

/-- The buffer group of an address (log entry 24). -/
def groupOf (d : Dev) (a : Nat) : Nat := Config.bufChannel (d.get Reg.BUF_CH_ACTIVE_MASK) a % 24 / 4

/-- A request to an address takes its group out of self-refresh (R325). -/
def touch (d : Dev) (a : Nat) : Dev :=
  let k : Fin 6 := ⟨d.groupOf a % 6, Nat.mod_lt _ (by decide)⟩
  if d.inReset ⟨20 + k.val, by omega⟩ then d
  else (List.finRange 4).foldl (fun d i => d.set (Reg.BUF_CH_STAT_SR ⟨4 * k.val + i.val, by omega⟩) 0) d

/-- Bursts of `n` bytes from `a` are written: they hold no poison (R326). -/
def unpoison (d : Dev) (a n : Nat) : Dev :=
  d.modBufx fun x => { x with poison := x.poison.filter (fun p => !(decide (a ≤ p + 31 ∧ p < a + n))) }

/-- Whether `n` bytes from `a` hold a poisoned burst. -/
def poisoned (d : Dev) (a n : Nat) : Bool := d.bufx.poison.any (fun p => decide (a < p + 32 ∧ p < a + n))

/-- The first unit of 64 KiB from `u` on that no block holds and whose group is not IN_RESET (R337). -/
def freeUnit (d : Dev) (used : List Nat) : (fuel : Nat) → (u : Nat) → Nat
  | 0, u => u
  | n + 1, u =>
    if used.contains (u * blkBytes) ∨ d.inReset ⟨20 + d.groupOf (u * blkBytes) % 6, by omega⟩ then freeUnit d used n (u + 1)
    else u

/-- An address for a new block, above the Mule banks and the DMA host window (log entry 15). -/
def newAddr (d : Dev) : Nat :=
  let used := d.bufx.blocks.map (fun b => b.2.addr)
  d.freeUnit used (used.length + 4096) 48 * blkBytes

/-- Adds a block to the buffer. -/
def addBlk (d : Dev) (b : Blk) : Dev :=
  let i := d.bufx.nextBlk
  ((d.modBufx fun x => { x with nextBlk := i + 1, poison := x.poison.filter (fun p => !(decide (b.addr ≤ p ∧ p < b.addr + blkBytes))) }).setBlk i b).touch b.addr

/-- A new block with nothing in it. -/
def emptyBlk (key : LKey) (addr now : Nat) : Blk where
  key := key
  addr := addr
  pool := .staging
  phase := .filling
  kind := 0
  valid := 0
  lost := 0
  first := now
  reserved := []
  strm := none
  p := 0
  q := 0
  mech := none
  pba := 0
  orig := 0
  copies := 0
  copyFlag := false
  replaced := false
  group := 0
  member := 0
  planned := 0
  use := 0
  refresh := false
  order := 0

/-- The cached block used least recently. -/
def oldestCached (d : Dev) : Option Nat :=
  ((d.bufx.blocks.filter (fun b => b.2.pool = .cache ∧ ¬ b.2.refresh)).foldl
    (fun acc b => match acc with
      | none => some (b.1, b.2.use)
      | some a => if b.2.use < a.2 then some (b.1, b.2.use) else some a) none).map Prod.fst

/-- Evicts cached blocks until the read cache holds fewer than its size (R337). -/
def evictCache (d : Dev) : (fuel : Nat) → Dev
  | 0 => d
  | n + 1 => if d.poolCount .cache < d.poolSize .cache then d
    else match d.oldestCached with
      | some i => (d.dropBlk i).evictCache n
      | none => d

/-- The blocks of the buffer that hold sector `k` of a block of a volume, newest first. -/
def holders (d : Dev) (key : LKey) (k : Nat) : List (Nat × Blk) :=
  (d.bufx.blocks.filter (fun b => b.2.key = key ∧ b.2.kind = 0 ∧ ¬ b.2.refresh ∧ tbit b.2.valid k ∧ ¬ tbit b.2.lost k)).reverse

/-- The newest of the blocks on media that hold sector `k` of a block. -/
def located (d : Dev) (key : LKey) (k : Nat) : Option Loc :=
  (d.arc.map.filter (fun l => decide (l.key = key) && tbit l.mask k)).foldl (fun acc l => match acc with
    | some a => if a.age < l.age then some l else some a
    | none => some l) none

/-- The blocks recorded at a PBA of the disc in `m`, newest last. -/
def atPba (d : Dev) (m : Mech) (pba : Nat) : Option Loc := match d.discIn m with
  | none => none
  | some x => d.arc.map.find? (fun l => decide (l.disc = x.ident ∧ l.pba = pba))

/-- The sectors of a block on media that nothing newer has replaced. -/
def current (d : Dev) (l : Loc) : Nat :=
  (List.range 16).foldl (fun a k => if tbit l.mask k ∧ d.located l.key k = some l ∧ d.holders l.key k = [] then setb a k else a) 0

/-- Puts a decoded block in the read cache (R305, R337), with the sectors that are current; the address of its 64 KiB. -/
def cacheBlk (d : Dev) (l : Loc) (mech : Nat) : Dev × Option Nat :=
  if d.poolSize .cache = 0 then (d, none)
  else
    let v := d.current l
    let d := d.evictCache (d.bufx.blocks.length + 1)
    let a := d.newAddr
    let u := d.bufx.useClock + 1
    let b := { emptyBlk l.key a d.now with pool := .cache, phase := .cached, valid := v, mech := some mech, pba := l.pba, orig := l.pba, use := u }
    ((d.modBufx fun x => { x with useClock := u }).addBlk b, some a)

/-! ### Archive Service events -/

/-- Posts an event to the ring (R412). -/
def arcEvent (d : Dev) (ty : Nat) (mech : Option Nat) (detail : List (Nat × Nat × Nat)) : Dev :=
  let s := d.get Reg.ARC_EVT_PROD_SEQ
  let bytes := leBytes 8 d.now ++ leBytes 4 s ++ leBytes 1 ty ++ leBytes 1 (mech.getD 0xFF) ++ leBytes 2 0 ++ fieldBytes 16 detail
  let d := (d.modArc fun a => { a with events := (⟨s, bytes⟩ :: a.events).take 256 }).countWrap Reg.ARC_EVT_PROD_SEQ
  if d.on Reg.ARC_CTL_EVT_IEN then d.fireEvt 145 else d

/-- Posts DISC_NEEDED (R395, R412). -/
def arcNeeded (d : Dev) (disc vol : Nat) : Dev := d.arcEvent 5 none [(0, 8, disc), (8, 2, vol)]

/-! ### Flush and Verify waits -/

/-- Where the data of a sector is found (R17, R18). -/
inductive Src where
  | buffer (addr : Nat)
  | media (mech pba : Nat)
  | zeros
  | absent (disc : Nat)
deriving DecidableEq

/-- Where sector `k` of a block is found; a Verify bypasses the buffer (R17, R371). -/
def sectorSrc (d : Dev) (bypass : Bool) (key : LKey) (k : Nat) : Src :=
  match (if bypass then none else (d.holders key k).head?), d.located key k with
  | some b, _ => .buffer (b.2.addr + 4096 * k)
  | none, none => .zeros
  | none, some l => match d.arc.discs.find? (fun x => decide (x.ident = l.disc)) with
    | none => .absent l.disc
    | some x => match x.mech with
      | some m => .media m l.pba
      | none => .absent l.disc

/-- A piece of a command's data within one sector: block, sector of the block, first byte in the sector, bytes, and place in the
host data. -/
structure Piece where
  key : LKey
  sector : Nat
  off : Nat
  len : Nat
  dest : Nat
deriving DecidableEq, Repr

/-- The pieces of a sector command (R361). -/
def sectorPieces (s : Slot) : List Piece :=
  (List.range (nsect s)).map (fun i => ⟨⟨volOf s, none, (slba s + i) / 16⟩, (slba s + i) % 16, 0, 4096, 4096 * i⟩)

/-- The pieces of `len` bytes from byte `at_` of the extents of an object version (R394, R395). Extents are (first sector of the
stream's sequence, bytes). -/
def extentPieces (vol strm : Nat) : List (Nat × Nat) → (at_ len dest : Nat) → List Piece
  | [], _, _, _ => []
  | (f, n) :: t, at_, len, dest =>
    if len = 0 then []
    else if n ≤ at_ then extentPieces vol strm t (at_ - n) len dest
    else
      let m := min len (n - at_)
      let ps := (List.range ((at_ + m + 4095) / 4096 - at_ / 4096)).map (fun i =>
        let sec := at_ / 4096 + i
        let b0 := max at_ (4096 * sec)
        let b1 := min (at_ + m) (4096 * sec + 4096)
        (⟨⟨vol, some strm, (f + sec) / 16⟩, (f + sec) % 16, b0 - 4096 * sec, b1 - b0, dest + (b0 - at_)⟩ : Piece))
      ps ++ extentPieces vol strm t 0 (len - m) (dest + m)

/-- Adds a media piece to a list of wants, newest first, extending the last one where it goes on. -/
def addWant (l : List Want) (m pba first count dest : Nat) : List Want := match l with
  | w :: t => if w.mech = m ∧ w.pba = pba ∧ w.first + w.count = first ∧ w.dest + w.count = dest then { w with count := w.count + count } :: t
      else ⟨m, pba, first, count, dest, false, 0⟩ :: l
  | [] => [⟨m, pba, first, count, dest, false, 0⟩]

/-- The media reads of a list of pieces. -/
def wantsOf (d : Dev) (bypass : Bool) (ps : List Piece) : List Want :=
  (ps.foldl (fun l p => match d.sectorSrc bypass p.key p.sector with
    | .media m a => addWant l m a (4096 * p.sector + p.off) p.len p.dest
    | _ => l) []).reverse

/-- The disc, if any, that holds a piece and is in no mechanism. -/
def absentDisc (d : Dev) (bypass : Bool) (ps : List Piece) : Option Nat :=
  ps.findSome? (fun p => match d.sectorSrc bypass p.key p.sector with
    | .absent x => some x
    | _ => none)

/-- The version that an Object Get reads: the newest sealed one (R395). -/
def newestSealed (d : Dev) (vol ident : Nat) : Option Obj :=
  (d.arc.objs.filter (fun o => o.vol = vol ∧ o.ident = ident ∧ o.isSealed)).foldl (fun acc o => match acc with
    | some a => if a.version < o.version then some o else some a
    | none => some o) none

/-- Object identifier of an object command, CDW1 to CDW4. -/
def objId (s : Slot) : Nat := byteField s.entry 36 16

/-- The pieces that a Verify, or an Object Get, reads. -/
def piecesOf (d : Dev) (s : Slot) : List Piece :=
  if opcode s = 0x21 then match d.newestSealed (volOf s) (objId s) with
    | some o => extentPieces o.vol o.strm o.extents (byteField s.entry 52 8) (min (dataLen s) (o.size - byteField s.entry 52 8)) 0
    | none => []
  else sectorPieces s

/-- Completes a command whose media reads are all done: UNRECOVERED_DATA with the count and the first of the sectors lost (R372), or
SUCCESS with `result`. -/
def finishWants (d : Dev) (i : Nat) : Dev := match d.slot i with
  | none => d
  | some s =>
    if s.phase ≠ .running ∨ ¬ s.wants.all Want.done then d
    else
      let n := (s.wants.map (fun w => popcount 16 w.unrec)).foldl (· + ·) 0
      if n = 0 then d.finishSlot i 0 s.result
      else
        let first := (s.wants.filterMap (fun w => ((List.range 16).find? (tbit w.unrec)).map (fun k => (w.dest + (4096 * k - w.first)) / 4096))).foldl min 65535
        d.finishSlot i 0x10 (n + 65536 * first)

/-- A Verify, or an Object Get with VERIFY, whose waits have ended reads its blocks from the media (R371, R395). -/
def startVerify (d : Dev) (i : Nat) : Dev := match d.slot i with
  | none => d
  | some s =>
    let ps := d.piecesOf s
    match d.absentDisc true ps with
    | some x =>
      let d := d.refuseSlot i 0x13 7
      if opcode s = 0x21 then d.arcNeeded x (volOf s) else d
    | none => (d.setSlot i { s with wants := d.wantsOf true ps }).finishWants i

/-- A command in progress that waits for blocks, with none left to wait for. -/
def waitOver (s : Slot) : Bool :=
  decide (¬ isAdmin s ∧ s.phase = .running ∧ s.covers = [] ∧ s.earlier = [] ∧ s.wants = [] ∧ (opcode s = 0 ∨ opcode s = 4 ∨ opcode s = 0x21))

/-- The lost sectors of a volume (0: of every volume) that no Flush has reported: the Flush that ends takes them over. -/
def takeLosses (d : Dev) (vol : Nat) : Dev × Nat :=
  let mine (l : Nat × Nat) : Bool := decide (vol = 0 ∨ l.1 = vol)
  (d.modBufx fun x => { x with losses := x.losses.filter (fun l => !mine l) }, ((d.bufx.losses.filter mine).map Prod.snd).foldl (· + ·) 0)

/-- Ends the waits that are over: a Flush completes (R370), a Verify begins its reads (R371). -/
def finishFlushes (d : Dev) : List (Nat × Slot) → Dev
  | [] => d
  | (i, s) :: t =>
    finishFlushes (if ¬ waitOver s then d
      else if opcode s = 0 then
        let (d, n) := d.takeLosses (volOf s)
        d.finishSlot i (if s.lost + n = 0 then 0 else 0x11) (s.lost + n)
      else d.startVerify i) t

/-- Block `i` no longer has to be waited for; `lost` of its sectors were lost (R329, R370). -/
def uncover (d : Dev) (i lost : Nat) : Dev :=
  let d := { d with slots := d.slots.map (fun (x : Nat × Slot) =>
    if x.2.covers.contains i ∧ (opcode x.2 = 0 ∨ opcode x.2 = 4 ∨ opcode x.2 = 0x21) then
      (x.1, { x.2 with covers := x.2.covers.erase i, lost := x.2.lost + lost }) else x) }
  d.finishFlushes d.slots

/-! ### Defect remap table -/

/-- Publishes DRT_STAT (R323). -/
def drtSync (d : Dev) (m : Mech) : Dev :=
  let l := (d.mx m).goat.drt
  d.setAll [(Reg.DRT_STAT_USED m, l.length), (Reg.DRT_STAT_FULL m, b2n (decide (2048 ≤ l.length))),
    (Reg.DRT_STAT_UNPERSISTED m, (l.filter (fun e => ¬ e.persisted)).length)]

/-- The entry that maps a PBA, with its index (R318). -/
def drtFind (d : Dev) (m : Mech) (pba : Nat) : Option (DrtEntry × Nat) :=
  (d.mx m).goat.drt.zipIdx.find? (fun e => decide (e.1.src = pba))

/-- The PBA that a media access of `pba` reads (R18). -/
def remap (d : Dev) (m : Mech) (pba : Nat) : Nat := match d.drtFind m pba with
  | some e => e.1.dst
  | none => pba

/-- Whether a new entry would find no room: the slice is full, and it neither retargets nor replaces an entry (R318). -/
def drtNoRoom (d : Dev) (m : Mech) (src : Nat) : Bool :=
  let l := (d.mx m).goat.drt
  decide (2048 ≤ l.length) && !(l.any (fun e => decide (e.dst = src ∨ e.src = src)))

/-- Writes a remap entry (R318): it retargets the entry whose TO, or rewrites the one whose FROM, is the new FROM. -/
def drtWrite (d : Dev) (m : Mech) (e : DrtEntry) : Dev :=
  let l := (d.mx m).goat.drt
  if l.any (fun x => decide (x.dst = e.src)) then
    ((d.modGoat m fun g => { g with drt := g.drt.map (fun x =>
        if x.dst = e.src then { x with dst := e.dst, persisted := false } else x) }).count (Reg.DRT_CNT_NEW_RETARGET m)).drtSync m
  else if l.any (fun x => decide (x.src = e.src)) then
    ((d.modGoat m fun g => { g with drt := g.drt.map (fun x => if x.src = e.src then e else x) }).count
      (Reg.DRT_CNT_NEW_RETARGET m)).drtSync m
  else if 2048 ≤ l.length then d
  else ((d.modGoat m fun g => { g with drt := g.drt ++ [e] }).count (Reg.DRT_CNT_NEW_CREATED m)).drtSync m

/-! ### Leaky bucket -/

/-- Records a Goat event. -/
def goatEvent (d : Dev) (m : Mech) (ev : Mech → Field) : Dev := d.evt (ev m) (Reg.GOAT_EVENT_EN_EN m) (128 + m.val)

/-- Adds to the bucket (R316). -/
def bucketAdd (d : Dev) (m : Mech) (inc : Nat) : Dev :=
  let depth := d.get (Reg.GOAT_BKT_CFG_DEPTH m)
  let d := d.set (Reg.GOAT_BKT_LVL_LEVEL m) (min depth (d.get (Reg.GOAT_BKT_LVL_LEVEL m) + inc))
  if d.get (Reg.GOAT_BKT_LVL_LEVEL m) = depth ∧ d.on (Reg.GOAT_BKT_LVL_ARMED m) then
    ((d.goatEvent m Reg.GOAT_EVENT_BUCKET).count (Reg.GOAT_BKT_OVF_OVF m)).set (Reg.GOAT_BKT_LVL_ARMED m) 0
  else d

/-! ### Slot geometry -/

/-- N of a zone of the zone table (R252). -/
def zoneN (d : Dev) (m : Mech) (z : Nat) : Nat := (d.srec m 0x60).ws.getD (2 + 2 * z) 0

/-- N of the swath. -/
def swathN (d : Dev) (m : Mech) (s : Nat) : Nat := d.zoneN m (d.zoneOf m s)

/-- Code strength and parity count for the disc in `m`: the disc's, or the CODE defaults for a blank one (R273). -/
def codeOf (d : Dev) (m : Mech) : Nat × Nat := match d.discIn m with
  | some x => if x.blank then (d.get (Reg.GPE_CODE_P_DEFAULT m), d.get (Reg.GPE_CODE_Q_DEFAULT m)) else (x.p, x.q)
  | none => (d.get (Reg.GPE_CODE_P_DEFAULT m), d.get (Reg.GPE_CODE_Q_DEFAULT m))

/-- Physical slots of a swath written with `n` beams at strength `p` (R255). -/
def slotsIn (d : Dev) (m : Mech) (s n p : Nat) : Nat := d.swathN m s / max 1 (Codec.slotLen n p)

/-- Publishes the geometry of the present swath for the mask in use (R255, R256, R286). -/
def setGeom (d : Dev) (m : Mech) (swath mask : Nat) : Dev :=
  let (p, q) := d.codeOf m
  let n := max 1 (popcount 16 mask)
  let slots := d.slotsIn m swath n p
  let ds := Codec.dataSlots slots q
  d.setAll [(Reg.WCH_STAT_P m, p), (Reg.WCH_STAT_Q m, q), (Reg.WCH_MASK_MASK m, mask), (Reg.WCH_MASK_NEXT m, mask),
    (Reg.WCH_GEOM_SLOT_LEN m, Codec.slotLen n p), (Reg.WCH_GEOM_SLOTS m, slots), (Reg.WCH_DSLOTS_DATA m, ds),
    (Reg.WCH_DSLOTS_RESERVE m, if 208 ≤ swath then Codec.reserveSlots ds (d.get (Reg.GPE_CODE_RELOC_PCT m)) else 0)]

/-! ### Work for the sequencer -/

/-- Queues a work item (R454). -/
def queueItem (d : Dev) (m : Mech) (w : WorkItem) : Dev := d.modFsq m fun x => { x with items := x.items ++ [w] }

/-- The geometry that the swath map holds for the swath of a PBA (R285). -/
def geomAt (d : Dev) (m : Mech) (pba : Nat) : Option SwathGeom := (d.discIn m).bind (fun x =>
  x.swaths.find? (fun g => decide (g.layer = pbaLayer pba ∧ g.swath = pbaSwath pba)))

/-- Enters a swath in the map, unless the map holds it (R285, R405). -/
def noteSwath (d : Dev) (m : Mech) (pba mask len : Nat) : Dev := match d.discIn m with
  | none => d
  | some x =>
    if (d.geomAt m pba).isSome then d
    else d.modDisc x.ident fun y => { y with swaths := ⟨pbaLayer pba, pbaSwath pba, mask, len⟩ :: y.swaths }

/-- The slot length at a PBA: for a read that of the swath map, if it holds the swath (R285); otherwise that of the beams in use. -/
def lenAt (d : Dev) (m : Mech) (entry pba : Nat) : Nat :=
  let own := Codec.slotLen (max 1 (popcount 16 (d.beamsInUse m))) (d.codeOf m).1
  if entry = 2 ∨ entry = 6 then ((d.geomAt m pba).map SwathGeom.len).getD own else own

/-- The work item of a block at a PBA, for an entry of the sequencer. -/
def itemOf (d : Dev) (m : Mech) (entry pba blk : Nat) : WorkItem :=
  ⟨entry, pba, Codec.physSlot (d.codeOf m).2 pba, d.lenAt m entry pba, blk⟩

/-! ### Parity groups -/

/-- Publishes GPE_OPEN (R277). -/
def gpeSync (d : Dev) (m : Mech) : Dev :=
  let n := (d.arc.groups.filter (fun g => g.mech = m.val ∧ ¬ g.closed)).length
  d.setAll [(Reg.GPE_OPEN_OPEN m, n), (Reg.GPE_OPEN_MAX m, max n (d.get (Reg.GPE_OPEN_MAX m)))]

/-- Changes a group. -/
def modGroup (d : Dev) (gid : Nat) (f : Group → Group) : Dev :=
  d.modArc fun a => { a with groups := a.groups.map (fun g => if g.ident = gid then f g else g) }

/-- The first of `n` candidates from `k` on that satisfies a test. -/
def firstFrom (ok : Nat → Bool) : (n k : Nat) → Option Nat
  | 0, _ => none
  | n + 1, k => if ok k then some k else firstFrom ok n (k + 1)

/-- The PBA for a parity block in swath `s` (R402): the first free parity slot, failing that the first free data slot that is
not a reserve slot. -/
def paritySpot (d : Dev) (m : Mech) (layer s : Nat) (used : List Nat) : Option Nat :=
  let (p, q) := d.codeOf m
  let slots := d.slotsIn m s (max 1 (popcount 16 (d.beamsInUse m))) p
  let ds := Codec.dataSlots slots q
  let rs := Codec.reserveSlots ds (d.get (Reg.GPE_CODE_RELOC_PCT m))
  match firstFrom (fun t => !used.contains (Codec.pba layer s 1 t)) (slots - ds) 0 with
  | some t => some (Codec.pba layer s 1 t)
  | none => (firstFrom (fun t => !used.contains (Codec.pba layer s 0 t)) (ds - rs) 0).map (Codec.pba layer s 0)

/-- Creates parity block `j` of a closed group: charged to retained, placed under R402, handed to the FSQ (R277). The block's
bytes stand in the group's running parity. -/
def addParity (d : Dev) (m : Mech) (g : Group) (j cur : Nat) : Dev :=
  let sp := d.get (Reg.GPE_GROUP_SPACING m)
  let s := max (g.lastSwath + sp * (j + 1)) (cur + 1 + sp * j)
  match d.discIn m with
  | none => d
  | some x => match d.paritySpot m g.layer s x.parityUsed with
    | none => d
    | some pba =>
      let i := d.bufx.nextBlk
      let b := { emptyBlk ⟨0, none, 0⟩ d.newAddr d.now with pool := .retained, phase := .placed, kind := 1, valid := 0xFFFF, mech := some m.val, pba := pba, orig := pba, group := g.ident, member := 32 + j, planned := popcount 32 g.written }
      let d := d.addBlk b
      let d := d.modDisc x.ident fun y => { y with parityUsed := pba :: y.parityUsed }
      let d := d.modGroup g.ident fun y => { y with parityPba := y.parityPba ++ [pba] }
      d.queueItem m (d.itemOf m 1 pba i)

/-- Closes a group (R276): the count reached is the members written; its parity blocks go to the FSQ unless `bare`
(R410). -/
def closeGroup (d : Dev) (gid : Nat) (bare : Bool := false) : Dev :=
  match d.arc.groups.find? (fun g => decide (g.ident = gid)) with
  | none => d
  | some g =>
    if g.closed then d
    else
      let d := d.modGroup gid fun y => { y with closed := true, planned := popcount 32 y.written }
      if h : g.mech < 16 then
        let m : Mech := ⟨g.mech, h⟩
        let cur := match d.discIn m with
          | some x => x.swath
          | none => g.lastSwath
        let d := if bare ∨ g.written = 0 then d else (List.range g.q).foldl (fun d j => d.addParity m g j cur) d
        d.gpeSync m
      else d

/-- Closes every open group of a mechanism's disc. -/
def closeGroups (d : Dev) (m : Mech) (bare : Bool := false) : Dev :=
  (d.arc.groups.filter (fun g => g.mech = m.val ∧ ¬ g.closed)).foldl (fun d g => d.closeGroup g.ident bare) d

/-! ### Hand-back and release -/

/-- Records a GPE event. -/
def gpeEvent (d : Dev) (m : Mech) (ev : Mech → Field) : Dev := d.evt (ev m) (Reg.GPE_EVENT_EN_EN m) (128 + m.val)

/-- Hands a block back for re-placement with its data retained (R282, R284, R338): its work item leaves the sequencer. A block
whose copies failed or were pending carries FLAGS bit 1 (R282, R283). -/
def handBack (d : Dev) (m : Mech) (i : Nat) : Dev :=
  let d := (d.modFsq m fun x => { x with items := x.items.filter (fun w => w.blk ≠ i) }).count (Reg.GANDER_RELOC_HANDBACK m)
  d.modBlk i fun b => { b with phase := .staged, replaced := b.replaced || b.phase == .copying, copyFlag := false, order := 0 }

/-- Whether a released block goes to the read cache (R337, R390). -/
def cacheOnRelease (d : Dev) : Bool := (d.grec 0xA0).f 1 3 1 == 1

/-- Releases a verified block (R14): it leaves the retained pool, for the read cache where POLICY says so, and nothing waits
for it any more. -/
def releaseBlk (d : Dev) (i : Nat) : Dev :=
  match d.blk i with
  | none => d
  | some b =>
    let d := if b.kind = 0 ∧ d.cacheOnRelease then
        let d := d.evictCache (d.bufx.blocks.length + 1)
        let u := d.bufx.useClock + 1
        (d.modBufx fun x => { x with useClock := u }).modBlk i fun b => { b with pool := .cache, phase := .cached, use := u }
      else d.dropBlk i
    d.uncover i 0

/-- The pool that takes a block handed to the FSQ: retained, spilling into spare (R337). `none`: hand-off waits. -/
def retainPool (d : Dev) : Option Pool :=
  if d.poolCount .retained < d.poolSize .retained then some .retained
  else if d.poolCount .spare < d.poolSize .spare then some .spare
  else none

end Dev
end Sys2Proof.Machine
end

