-- ==== Sys2Proof/Machine/Ldpc.lean ====
section
/-! DEFINITION. The LDPC decoder (R302, R303) and the syndrome weights of verify readback (R278), over the parity checks of R261. -/
namespace Sys2Proof.Machine
namespace Ldpc

/-- The circulants of block row `r`: column and shift (R261). -/
def edges (p r : Nat) : List (Nat × Nat) :=
  ((List.range 64).filter (fun k => Codec.inRow p r k)).map (fun k => (k, Codec.shift r k)) ++
    (if r = 0 then [] else [(64 + r - 1, 0)]) ++ [(64 + r, 0)]

/-- A message of 6 bits. -/
def sat6 (v : Int) : Int := max (-31) (min 31 v)

/-- What a check sends back along each of its edges: the product of the other signs times the least other magnitude less the offset. -/
def checkNode (ofs : Nat) (qs : List Int) : List Int :=
  qs.zipIdx.map (fun q =>
    let others := qs.eraseIdx q.2
    let neg := (others.filter (fun v => decide (v < 0))).length % 2 = 1
    let m := (others.map Int.natAbs).foldl min 31 - ofs
    if neg then -(m : Int) else m)

/-- Rows of a list of columns. -/
def rows (cols : List (List Int)) : List (List Int) := (List.range 512).map (fun x => cols.map (fun c => c.getD x 0))

/-- Columns of 512 rows. -/
def colsOf (n : Nat) (rs : List (List Int)) : List (List Int) := (List.range n).map (fun i => rs.map (fun r => r.getD i 0))

/-- One layer: the totals of every column and the layer's messages of the iteration before; the new totals and messages (R302). -/
def layer (ofs p r : Nat) (tot : List (List Int)) (old : List (List Int)) : List (List Int) × List (List Int) :=
  let es := edges p r
  let ext := es.zipIdx.map (fun e =>
    List.zipWith (fun t m => t - m) ((tot.getD e.1.1 []).rotateLeft e.1.2) (old.getD e.2 (List.replicate 512 0)))
  let new := colsOf es.length ((rows (ext.map (fun c => c.map sat6))).map (checkNode ofs))
  let back := es.zipIdx.map (fun e => (e.1.1, (List.zipWith (fun q m => q + m) (ext.getD e.2 []) (new.getD e.2 [])).rotateRight e.1.2))
  (back.foldl (fun t b => t.set b.1 b.2) tot, new)

/-- One iteration: the layers in order 0 to p − 1. -/
def iteration (ofs p : Nat) (tot : List (List Int)) (msgs : List (List (List Int))) : List (List Int) × List (List (List Int)) :=
  (List.range p).foldl (fun x r =>
    let y := layer ofs p r x.1 (x.2.getD r [])
    (y.1, x.2.set r y.2)) (tot, msgs)

/-- Hard decisions: a negative total decides for 1. -/
def hard (tot : List (List Int)) : List (List Bool) := tot.map (fun c => c.map (fun v => decide (v < 0)))

/-- The syndrome of block row `r` (R261). -/
def syndromeRow (p r : Nat) (cols : List (List Bool)) : List Bool :=
  (edges p r).foldl (fun acc e => List.zipWith xor acc ((cols.getD e.1 (List.replicate 512 false)).rotateLeft e.2)) (List.replicate 512 false)

/-- Whether every check is satisfied. -/
def satisfied (p : Nat) (cols : List (List Bool)) : Bool := (List.range p).all (fun r => (syndromeRow p r cols).all (fun b => !b))

/-- Iterates until the syndrome is zero, at most `fuel` times: the iterations run, if it became zero, and the totals. -/
def iterate (ofs p : Nat) : (fuel : Nat) → (n : Nat) → List (List Int) → List (List (List Int)) → Option Nat × List (List Int)
  | 0, _, tot, _ => (none, tot)
  | f + 1, n, tot, msgs =>
    let x := iteration ofs p tot msgs
    if satisfied p (hard x.1) then (some (n + 1), x.1) else iterate ofs p f (n + 1) x.1 x.2

/-- Positions that decoded against the sign of their channel LLR. -/
def flips (llr : List (Option Int)) (bits : List Bool) : Nat :=
  ((llr.zip bits).filter (fun x => match x.1 with
    | some v => decide ((0 < v ∧ x.2 = true) ∨ (v < 0 ∧ x.2 = false))
    | none => false)).length

/-- Positions erased. -/
def erasures (llr : List (Option Int)) : Nat := (llr.filter Option.isNone).length

/-- Decodes one codeword (R302, R303): its outcome and its bits in the order of R263. -/
def decode (p ofs limit flipMax : Nat) (llr : List (Option Int)) : CwOutcome × List Bool :=
  if p * 512 < erasures llr then (.erased, [])
  else
    let tot := Codec.cut512 (64 + p) (llr.map (fun l => l.getD 0))
    match iterate ofs p limit 0 tot (List.replicate p []) with
    | (none, t) => (.iter, (hard t).flatten)
    | (some n, t) =>
      let b := (hard t).flatten
      if flipMax * (llr.length - erasures llr) < 1024 * flips llr b then (.flip, b) else (.converged n, b)

/-- Unsatisfied checks, and all checks, among those that touch no erased bit, on hard decisions (R278). -/
def weight (p : Nat) (bits erased : List Bool) : Nat × Nat :=
  let cols := Codec.cut512 (64 + p) bits
  let ers := Codec.cut512 (64 + p) erased
  (List.range p).foldl (fun acc r =>
    let touched := (edges p r).foldl (fun a e => List.zipWith or a ((ers.getD e.1 (List.replicate 512 false)).rotateLeft e.2)) (List.replicate 512 false)
    let l := (syndromeRow p r cols).zip touched
    (acc.1 + (l.filter (fun x => x.1 && !x.2)).length, acc.2 + (l.filter (fun x => !x.2)).length)) (0, 0)

end Ldpc
end Sys2Proof.Machine
end

