-- ==== Sys2Proof/Machine/LinkOps.lean ====
section
/-! DEFINITION. The downstream side of the Head Link (R227–R241): blocks, messages, actuator cells and write symbols in time. -/
namespace Sys2Proof.Machine
namespace Dev

/-- Sends one block (R226, R227). `what` are the write symbols it carries. -/
def sendBlock (d : Dev) (m : Mech) (stream pos payload : Nat) (sv : Bool) (mtype mdata : Nat) (what : Option TxChunk) : Dev :=
  let x := (d.mx m).hlk
  let r := Link.send ⟨pos, x.dnSeq, stream, sv, mtype, mdata⟩ payload x.tx
  let rec_ : SentBlk := match what with
    | some c => ⟨x.dnSeq, sv, some c.beam, c.pos, c.symbols.length, c.pba, c.off⟩
    | none => ⟨x.dnSeq, sv, none, 0, 0, 0, 0⟩
  (d.modHlk m fun x => { x with tx := r.2, dnSeq := (x.dnSeq + 1) % 64, sent := (rec_ :: x.sent).take 64 }).emit (.link m r.1)

/-- Sends a message in an idle block (R229, R240). -/
def sendMsg (d : Dev) (m : Mech) (mtype mdata : Nat) : Dev := d.sendBlock m 16 0 0 false mtype mdata none

/-- REG_WR or REG_RD (R240). -/
def sendReg (d : Dev) (m : Mech) (e : HlkTag) : Dev :=
  if e.write then d.sendMsg m 1 (e.addr % 65536 * 2 ^ 20 + e.data % 65536 * 2 ^ 4 + e.tag % 16)
  else d.sendMsg m 2 (e.addr % 65536 * 2 ^ 20 + e.tag % 16)

/-- Sends the actuator cell in words 12 to 14 (R236, R238); the stream of its block is idle (log entry 194). -/
def sendCell (d : Dev) (m : Mech) (cell : BitVec 384) : Dev := d.sendBlock m 16 0 (cell.toNat * 2 ^ 1536) true 0 0 none

/-- Sends write symbols (R231, R232). -/
def sendSymbols (d : Dev) (m : Mech) (c : TxChunk) : Dev := d.sendBlock m c.beam c.pos (Link.ofSymbols c.symbols) false 0 0 (some c)

/-- Channel bits of 2.5 µs at the present speed, in a swath of `n` channel bits a revolution (R235). -/
def aheadBits (d : Dev) (m : Mech) (n : Nat) : Nat := n * (d.mx m).spn.speed.natAbs * 5 / 240000000

/-- Sends the write symbols of beam `b` whose time has come: CBC_b, as the upstream blocks show it, is at most 2.5 µs before their
POS (R235). `n` is N of the swath. -/
def sendDue (d : Dev) (m : Mech) (b : Beam) (n : Nat) : Dev :=
  match (d.mx m).hlk.placed[b.val] with
  | none => d
  | some c =>
    let due (t : TxChunk) : Bool := decide (t.beam = b.val ∧ Link.cbcDiff t.pos c ≤ d.aheadBits m n)
    let l := (d.mx m).hlk.txq.filter due
    l.foldl (fun d t => d.sendSymbols m t) (d.modHlk m fun x => { x with txq := x.txq.filter (fun t => !due t) })

/-- The blocks of 960 symbols that carry the symbols of a frame (R232). -/
def txChunks (beam pos pba : Nat) : (fuel : Nat) → (off : Nat) → List (BitVec 2) → List TxChunk
  | 0, _, _ => []
  | f + 1, off, l =>
    if l = [] then [] else ⟨beam, (pos + off) % 4294967296, pba, off, l.take 960⟩ :: txChunks beam pos pba f (off + 960) (l.drop 960)

/-- Queues the symbols of the block `pba` for the beams whose write gate is armed to open, where they are not queued yet (R235). -/
def txFill (d : Dev) (m : Mech) (pba : Nat) (symbols : List (Nat × List (BitVec 2))) : Dev :=
  let x := d.mx m
  let cs := (List.finRange 16).flatMap (fun b => match x.fsq.armedOpen[b.val], x.hlk.mark[b.val], symbols.find? (fun s => decide (s.1 = b.val)) with
    | some a, some k, some s =>
      if a.write ∧ ¬ x.hlk.txq.any (fun c => decide (c.beam = b.val ∧ c.pba = pba)) then txChunks b.val (k + a.pos) pba s.2.length 0 s.2 else []
    | _, _, _ => [])
  d.modHlk m fun y => { y with txq := y.txq ++ cs }

/-- WEND (R240): the write run of each beam of the list ends at channel bit `pos` from the mark, exclusive. -/
def sendEnds (d : Dev) (m : Mech) (pos : Nat) : List Beam → Dev
  | [] => d
  | b :: t => (match (d.mx m).hlk.mark[b.val] with
    | some k => d.sendMsg m 3 (b.val * 2 ^ 32 + (k + pos) % 4294967296)
    | none => d).sendEnds m pos t

/-- Records a span of block `pba` that was not written: in the block in progress, in one that has ended and awaits Gander, or for the
block's first gate (R244). -/
def addFrag (d : Dev) (m : Mech) (pba beam first : Nat) (last : Option Nat) : Dev :=
  let g := (d.mx m).gate
  if g.inBlock ∧ g.writing ∧ g.pba = pba then d.modGate m fun g => { g with frags := g.frags ++ [⟨beam, first, last⟩] }
  else if g.ended.any (fun e => e.1 == pba) then
    d.modGate m fun g => { g with ended := g.ended.map (fun e => if e.1 = pba then (e.1, e.2 ++ [⟨beam, first, last⟩]) else e) }
  else d.modHlk m fun x => { x with early := x.early ++ [⟨pba, beam, first, last⟩] }

/-- The channel bit, in the frame of the block in progress, of the first symbol of beam `b` sent in or after the block `seq`; that of
the first symbol that waits where none was sent, and the present one where none waits (R244). -/
def firstSince (d : Dev) (m : Mech) (seq : Nat) (b : Nat) : Nat :=
  let x := (d.mx m).hlk
  let g := (d.mx m).gate
  let older := x.sent.dropWhile (fun s => s.seq != seq)
  let since := x.sent.takeWhile (fun s => s.seq != seq) ++ older.take 1
  match (since.filter (fun s => decide (s.beam = some b ∧ s.pba = g.pba))).getLast?, x.txq.find? (fun c => decide (c.beam = b ∧ c.pba = g.pba)) with
  | some s, _ => s.off
  | none, some c => c.off
  | none, none => g.cb - g.start

end Dev
end Sys2Proof.Machine
end

