-- ==== Sys2Proof/Machine/RchOps.lean ====
section
/-! DEFINITION. The read channels at work (R288–R301): the settings and samples of a frame, what a frame read gives the decoder pool
(R301–R304), and what the verify readback of a written block gives Gander (R278). -/
namespace Sys2Proof.Machine
namespace Dev

/-! ### Settings -/

/-- The kept taps of a set: those adapted, unless a register says otherwise, which then gives the starting value (R320). -/
def keptTaps (sh : Nat) (kept regs : List Int) : List Int := if kept.map (Rch.tap sh) = regs then kept else regs.map (fun v => v * 2 ^ sh)

/-- The adapted taps of a beam as a frame's channel starts with them, and the reference of its dropout detector (R289, R297). -/
def rchStart (d : Dev) (m : Mech) (b : Beam) (write : Bool) (c : Rch.Cfg) : Rch.Cfg :=
  let x := (d.mx m).rch
  let s : Fin 2 := if write then 1 else 0
  let k := x.taps[b.val][s.val]
  let e := x.envs[b.val]
  { c with
    eq0 := keptTaps 36 k.eq ((List.finRange 15).map (fun i => d.getS (Reg.RCH_EQ_COEF m b s i)))
    xt0 := keptTaps 56 k.xt ((List.finRange 28).map (fun i => d.getS (Reg.RCH_XT_COEF m b s i)))
    reference := if e = [] then Config.envelopeRef else e.foldl (· + ·) 0 / e.length }

/-- The sides of beam `b` that are not open for a whole frame of the beams `mask` (R295). -/
def rchSides (d : Dev) (m : Mech) (b mask : Nat) : List Int :=
  ([-2, -1, 1, 2] : List Int).filter (fun j =>
    let k := (b : Int) + j
    decide (0 ≤ k ∧ k < 16) && tbit mask k.toNat && d.bit (Reg.MCH_BEAM_ENABLE m) k.toNat)

/-- The settings of beam `b` in force at a frame's start (R320). `half` halves the steps of adaptation (R307 rung 1). -/
def rchCfg (d : Dev) (m : Mech) (b : Beam) (mask : Nat) (half : Bool) : Rch.Cfg where
  eqAdapt := d.get (Reg.RCH_CTL_EQ_ADAPT m b)
  xtAdapt := d.get (Reg.RCH_CTL_XT_ADAPT m b)
  muEq := d.get (Reg.RCH_CTL_MU_EQ m b) + b2n half
  muXt := d.get (Reg.RCH_CTL_MU_XT m b) + b2n half
  wide := d.on (Reg.RCH_CTL_WIDE_FORCE m b)
  kpAcq := d.get (Reg.RCH_TR_CFG_KP_ACQ m b)
  kiAcq := d.get (Reg.RCH_TR_CFG_KI_ACQ m b)
  kp := d.get (Reg.RCH_TR_CFG_KP m b)
  ki := d.get (Reg.RCH_TR_CFG_KI m b)
  lockLvl := d.get (Reg.RCH_TR_CFG_LOCK_LVL m b)
  tgt := [d.getS (Reg.RCH_TARGET_TGT0 m b), d.getS (Reg.RCH_TARGET_TGT1 m b), d.getS (Reg.RCH_TARGET_TGT2 m b), d.getS (Reg.RCH_TARGET_TGT3 m b)]
  syncErr := d.get (Reg.RCH_SYNC_CFG_SYNC_ERR m b)
  syncWin := d.get (Reg.RCH_SYNC_CFG_SYNC_WIN m b)
  sMin := d.get (Reg.RCH_SYNC_CFG_S_MIN m b)
  ddLvl := d.get (Reg.RCH_DD_CFG_DD_LVL m b)
  ddHi := d.get (Reg.RCH_DD_CFG_DD_HI m b)
  ddPad := d.get (Reg.RCH_DD_CFG_DD_PAD m b)
  ddWin := d.get (Reg.RCH_DD_CFG_DD_WIN m b)
  scale := d.get (Reg.RCH_HINT_CFG_SCALE m b)
  dlo := d.getS (Reg.RCH_XT_DELAY_DLO m b)
  dhi := d.getS (Reg.RCH_XT_DELAY_DHI m b)
  reference := 0
  hints := []
  frags := []
  retired := d.bit (Reg.MCH_BEAM_RETIRED m) b.val
  sides := d.rchSides m b.val mask
  eq0 := []
  xt0 := []

/-- Servo hints of beam `b` that touch a frame, in channel bits of the frame, with their cause. -/
def frameHints (f : RchFrame) (len b : Nat) : List (Nat × Nat × Nat) :=
  (f.hints.filter (fun h => decide (h.beam = b ∧ f.start ≤ h.last ∧ h.first < f.start + len))).map (fun h =>
    (h.first - f.start, h.last - f.start, h.cause))

/-- The action on a hint of cause `k`, 1 to 7 (R299, R320): none, or whether it erases. -/
def hintAct (d : Dev) (m : Mech) (b : Beam) (k : Nat) : Option Bool :=
  match bits (d.get (Reg.RCH_HINT_CFG_ACT m b)) (2 * k - 2) 2 with
  | 1 => some false
  | 2 => some true
  | _ => none

/-- The spans of a block that Gander recorded on beam `b` (R280, R299). -/
def ganderSpans (d : Dev) (m : Mech) (pba b : Nat) : List (Nat × Nat) := match d.discIn m with
  | none => []
  | some x => match d.arc.gander.find? (fun g => decide (g.disc = x.ident ∧ g.pba = pba)) with
    | none => []
    | some g => (g.frags.filter (fun f => decide (f.beam = b))).map (fun f => (f.first, f.last))

/-- All settings of a frame when it is processed. -/
def frameCfgs (d : Dev) (m : Mech) (f : RchFrame) (len : Nat) : List Rch.Cfg :=
  (List.finRange 16).map (fun b => match f.cfgs[b.val]? with
    | none => d.rchStart m b f.write (d.rchCfg m b f.mask false)
    | some c => { d.rchStart m b f.write c with
        hints := (frameHints f len b.val).filterMap (fun h => (d.hintAct m b h.2.2).map (fun e => ⟨h.1, h.2.1, e⟩))
        frags := if f.write then [] else d.ganderSpans m f.pba b.val })

/-! ### Samples -/

/-- Keeps samples placed: those of the frames in progress, and of the last 16,384 channel bits. -/
def rchTake (d : Dev) (m : Mech) (b : Beam) (pos : Nat) (l : List (BitVec 6)) : Dev :=
  if l = [] then d
  else d.modRch m fun x =>
    let starts := x.frames.filterMap (fun f => (f.marks.getD b.val none).map (fun k => (k + f.start) % 4294967296))
    let keep (c : RawChunk) : Bool :=
      starts.any (fun s => decide (0 < Link.cbcDiff (c.pos + c.samples.length) s)) || decide (Link.cbcDiff pos c.pos < 16384)
    { x with raw := x.raw.set b.val (⟨pos, l⟩ :: x.raw[b.val].filter keep) }

/-- The samples of `len` channel bits from CBC `start`; those that no chunk holds are erased (R233). Oldest chunk first. -/
def fillFrom : (start len : Nat) → List RawChunk → List (Option (BitVec 6))
  | _, len, [] => List.replicate len none
  | start, len, c :: t =>
    let g := Link.cbcDiff c.pos start
    let gap := min g.toNat len
    let body := (c.samples.drop (-g).toNat).take (len - gap)
    List.replicate (if body = [] then 0 else gap) none ++ body.map some ++
      (if body = [] then fillFrom start len t else fillFrom ((start + gap + body.length) % 4294967296) (len - gap - body.length) t)

/-- Channel bits by which the verify spots of beam `b` trail the recording spots (R512, R257): TRAIL_NM at the beam's radius, with π as
355 ÷ 113. -/
def trailBits (d : Dev) (m : Mech) (pba b : Nat) : Nat :=
  let s := pbaSwath pba
  (d.srec m 0x20).f 0 16 16 * d.swathN m s * 113 / (2 * 355 * (25000000 + 4800 * s + 300 * b))

/-- CBC at which the samples of a frame begin on beam `b`. -/
def frameCbc (d : Dev) (m : Mech) (f : RchFrame) (b : Nat) : Option Nat :=
  (f.marks.getD b none).map (fun k => (k + f.start + (if f.write then d.trailBits m f.pba b else 0)) % 4294967296)

/-- The samples of a frame on beam `b`. -/
def frameRaw (d : Dev) (m : Mech) (f : RchFrame) (len : Nat) (b : Beam) : List (Option (BitVec 6)) := match d.frameCbc m f b.val with
  | none => List.replicate len none
  | some s => fillFrom s len (d.mx m).rch.raw[b.val].reverse

/-- Whether the samples of a frame have all come or been passed over, on every beam that is sampled. -/
def frameWhole (d : Dev) (m : Mech) (f : RchFrame) : Bool := match f.len with
  | none => false
  | some l => (List.finRange 16).all (fun b =>
    if ¬ tbit f.mask b.val ∨ ¬ d.bit (Reg.MCH_BEAM_ENABLE m) b.val then true
    else match d.frameCbc m f b.val, (d.mx m).hlk.placed[b.val] with
      | some s, some e => decide (0 ≤ Link.cbcDiff e (s + l))
      | some _, none => false
      | none, _ => true)

/-! ### A frame begins and ends -/

/-- A context in rung 1 reads the block: adaptation at half the step (R307). -/
def halfStep (d : Dev) (m : Mech) (pba : Nat) : Bool :=
  (d.mx m).goat.ctxs.any (fun c => decide (c.media = pba ∧ c.rung = 1 ∧ c.ended = false))

/-- The beams of a block that is read: those of the swath map, failing that the beams in use (R285). -/
def readMask (d : Dev) (m : Mech) (pba : Nat) : Nat := ((d.geomAt m pba).map SwathGeom.mask).getD (d.beamsInUse m)

/-- A frame begins at channel bit `pos`. -/
def rchBegin (d : Dev) (m : Mech) (pos pba : Nat) (write : Bool) : Dev :=
  let mask := if write then d.get (Reg.WCH_MASK_MASK m) else d.readMask m pba
  let cfgs := (List.finRange 16).map (fun b => d.rchCfg m b mask (!write && d.halfStep m pba))
  let marks := (d.mx m).hlk.mark.toList
  d.modRch m fun x => { x with frames := x.frames ++ [⟨write, pba, mask, pos, marks, none, cfgs, []⟩] }

/-- The frame in progress has ended at channel bit `cb`: its length is known, and its servo hints (R157). -/
def rchEnd (d : Dev) (m : Mech) (cb : Nat) : Dev :=
  let hints := (d.mx m).opt.hints
  d.modRch m fun x => { x with frames := x.frames.map (fun f => if f.len = none then { f with len := some (cb - f.start), hints := hints } else f) }

/-! ### What a frame gives -/

/-- Publishes adapted taps. -/
def showTaps (d : Dev) (m : Mech) (b : Beam) (s : Fin 2) (t : Taps) : Dev :=
  let d := (List.finRange 15).foldl (fun d i => d.setS (Reg.RCH_EQ_COEF m b s i) (Rch.tap 36 (t.eq.getD i.val 0))) d
  (List.finRange 28).foldl (fun d i => d.setS (Reg.RCH_XT_COEF m b s i) (Rch.tap 56 (t.xt.getD i.val 0))) d

/-- What one channel counts and keeps of a frame (R290–R293, R297, R300, R320). -/
def rchCount (d : Dev) (m : Mech) (b : Beam) (write : Bool) (r : Rch.Res) : Dev :=
  let s : Fin 2 := if write then 1 else 0
  let x := (d.mx m).rch
  let ms := (min 65535 r.mse :: x.mses[b.val]).take 64
  let d := ((d.count (Reg.RCH_CNT_ERASE_ERASED m b) r.erased).count (Reg.RCH_CNT_MISC_S_ERASE m b) r.sErase).setAll
    [(Reg.RCH_MSE_LAST m b, min 65535 r.mse), (Reg.RCH_MSE_AVG m b, ms.foldl (· + ·) 0 / ms.length)]
  let d := if r.lockLost then d.count (Reg.RCH_CNT_MISC_LOCK_LOSS m b) else d
  let d := if r.locked ∧ ¬ r.found then d.count (Reg.RCH_CNT_FRAME_SYNC_MISS m b) else d
  let t : Taps := ⟨r.eq, r.xt⟩
  (d.showTaps m b s t).modRch m fun x =>
    { x with
      taps := x.taps.set b.val (x.taps[b.val].set s.val t)
      mses := x.mses.set b.val ms
      envs := match r.clean with
        | some e => x.envs.set b.val ((e :: x.envs[b.val]).take 64)
        | none => x.envs }

/-- Counts for every sampled beam of the block. -/
def rchCounts (d : Dev) (m : Mech) (f : RchFrame) (rs : List Rch.Res) : Dev :=
  (List.finRange 16).foldl (fun d b => match rs[b.val]? with
    | some r => if tbit f.mask b.val ∧ d.bit (Reg.MCH_BEAM_ENABLE m) b.val then d.rchCount m b f.write r else d
    | none => d) d

/-- The queue and the cores of the pool (R321). -/
def decSync (d : Dev) (m : Mech) : Dev :=
  let n := (d.mx m).rch.jobs.length
  d.setAll [(Reg.DEC_STAT_QUEUE m, n - 4), (Reg.DEC_STAT_BUSY m, 2 ^ min 4 n - 1)]

/-- Queues a codeword; where 64 wait behind the four cores, the codeword that has run longest is stopped (R304). -/
def pushJob (jobs : List CwJob) (j : CwJob) : List CwJob :=
  if (jobs.filter (fun x => !x.stopped)).length < 68 then jobs ++ [j]
  else match jobs.findIdx? (fun x => !x.stopped) with
    | some i => (jobs.modify i (fun x => { x with stopped := true })) ++ [j]
    | none => jobs ++ [j]

/-- Positions of each codeword for which a flag of the payloads holds. -/
def flagCounts (p : Nat) (flags : List (List Bool)) : List Nat :=
  (Rch.codewords p flags).map (fun c => (c.filter (fun b => b == some true)).length)

/-- Whether a position of a payload that begins at channel bit `place` lies in one of the spans. -/
def payIn (place n : Nat) (spans : List (Nat × Nat)) : List Bool :=
  (List.range n).map (fun q =>
    let j := place + 132 * (q / 128) + 4 + q % 128
    spans.any (fun s => decide (s.1 ≤ j ∧ j ≤ s.2)))

/-- The block that a frame has delivered (R301). -/
def readOf (f : RchFrame) (len : Nat) (raws : List (List (Option (BitVec 6)))) (rs : List Rch.Res) : ReadBlk :=
  let hdr := (rs.zipIdx.filterMap (fun r => if tbit f.mask r.2 then r.1.header else none)).head?
  let blank := rs.zipIdx.all (fun r => !tbit f.mask r.2 || (!r.1.found && !r.1.marks))
  let mask := (hdr.map (fun h => byteField h 8 2)).getD 0
  let p := (hdr.map (fun h => byteField h 10 1 % 32)).getD 0
  let us := (List.range 16).filter (tbit mask)
  let of {α : Type} (dflt : α) (g : Rch.Res → α) : List α := us.map (fun u => (rs[u]?.map g).getD dflt)
  let n := Codec.payloadBits (max 1 us.length) p
  let place (r : Rch.Res) : Nat := r.sync.getD 320 + 576
  let hints := us.map (fun u => (frameHints f len u).map (fun h => (h.1, h.2.1)))
  { pba := f.pba
    fate := match hdr with
      | none => if blank then .blank else .noHdr
      | some h => if byteField h 0 4 = f.pba then .coded else .addr
    p := p, mask := mask, pays := of [] Rch.Res.pay, mses := of 65535 Rch.Res.mse, e2 := of [] Rch.Res.e2, places := of 896 place
    hints := hints, frame := some f, raws := raws
    hard := flagCounts p (of [] Rch.Res.hard)
    hinted := flagCounts p (List.zipWith (fun pl h => payIn pl n h) (of 896 place) hints)
    left := 0, good := 0, data := [], tries := 0 }

/-- Whether a context, or one in group decoding, collects reads of `pba` over several attempts: what an earlier one decoded stands. -/
def earlierRead (d : Dev) (m : Mech) (pba : Nat) : Option ReadBlk :=
  if (d.mx m).goat.ctxs.any (fun c => decide (c.media = pba)) then none
  else (d.mx m).rch.reads.find? (fun r => decide (r.pba = pba ∧ r.fate = .coded ∧ 0 < r.tries))

/-- Codewords of a block that are decoded already: those of its context, or of an earlier attempt. -/
def knownGood (d : Dev) (m : Mech) (pba : Nat) : Nat × List (Nat × List Byte) :=
  match (d.mx m).goat.ctxs.find? (fun c => decide (c.media = pba ∧ c.ended = false)), d.earlierRead m pba with
  | some c, _ => (c.converged, c.data)
  | none, some r => (r.good, r.data)
  | none, none => (0, [])

/-- A frame read enters the pool: its codewords that are not decoded yet are queued, and the sequencer learns of the block (R301, R304,
R450). A header in slot 0 names the geometry of its swath (R285). -/
def takeRead (d : Dev) (m : Mech) (f : RchFrame) (r : ReadBlk) (sync : Bool) : Dev :=
  let (good, data) := d.knownGood m f.pba
  let tries := ((d.earlierRead m f.pba).map ReadBlk.tries).getD 0
  let vecs := if r.fate = .coded then (Rch.codewords r.p r.pays).zipIdx.filter (fun v => !tbit good v.2) else []
  let jobs := vecs.map (fun v => (⟨f.pba, v.2, r.p, v.1.map (fun o => o.getD none), false⟩ : CwJob))
  let r : ReadBlk := { r with left := jobs.length, good := good, data := data, tries := tries }
  let d := if r.fate = .coded ∧ bits f.pba 0 16 = 0 then d.noteSwath m f.pba r.mask (Codec.slotLen (max 1 (popcount 16 r.mask)) r.p) else d
  let d := (d.modRch m fun x =>
    { x with jobs := jobs.foldl pushJob x.jobs, reads := r :: x.reads.filter (fun y => decide (y.pba ≠ f.pba)) }).decSync m
  d.modFsq m fun x => if x.readBlk = some f.pba then
      { x with sync := sync, decLeft := jobs.length, decFailed := if r.fate = .coded then 0 else 0xFFFF } else x

/-- The frame of a verify readback: whether the block was found, and the syndrome weights (R278). -/
def takeVerify (d : Dev) (m : Mech) (f : RchFrame) (rs : List Rch.Res) : Dev :=
  let p := (d.codeOf m).1
  let us := (List.range 16).filter (tbit f.mask)
  let mine := rs.zipIdx.filter (fun r => tbit f.mask r.2)
  let frags := (((d.mx m).gate.ended.find? (fun e => decide (e.1 = f.pba))).map Prod.snd).getD []
  let n := Codec.payloadBits (max 1 us.length) p
  let pays := us.map (fun u => ((rs[u]?.map Rch.Res.pay).getD []).map (fun l => decide (l.getD 0 < 0)))
  let ers := us.map (fun u => payIn 896 n ((frags.filter (fun g => decide (g.beam = u))).map (fun g => (g.first, g.last.getD (f.len.getD 0)))))
  let w := List.zipWith (fun a b => Ldpc.weight p (a.map (fun o => o.getD false)) (b.map (fun o => o.getD true))) (Rch.codewords p pays) (Rch.codewords p ers)
  let found := mine.any (fun r => r.1.found) && mine.any (fun r => r.1.header.isSome)
  d.modRch m fun x => { x with verify := ⟨f.pba, found, w⟩ :: x.verify.filter (fun v => decide (v.pba ≠ f.pba)) }

/-- Processes a frame whose samples have all come. -/
def rchFrame (d : Dev) (m : Mech) (f : RchFrame) : Dev :=
  let len := f.len.getD 0
  let raws := (List.finRange 16).map (d.frameRaw m f len)
  let rs := Rch.run (d.frameCfgs m f len) raws len
  let d := d.rchCounts m f rs
  if f.write then d.takeVerify m f rs
  else
    let low := ((rs[d.lowBeam m]?).map Rch.Res.found).getD false
    d.takeRead m f (readOf f len raws rs) low

/-- Processes the frames whose samples have all come. -/
def rchPump (d : Dev) (m : Mech) : Dev :=
  ((d.mx m).rch.frames.filter (d.frameWhole m)).foldl (fun d f =>
    (d.modRch m fun x => { x with frames := x.frames.erase f }).rchFrame m f) d

end Dev
end Sys2Proof.Machine
end

