-- ==== Sys2Proof/Machine/SeqOps.lean ====
section
/-! DEFINITION. Sequencing of one mechanism (R86–R99): the Head Link's trainings (R245–R247), focus acquisition (R144), seeks
(R152), the park sequence, the exchange, INIT (R89), automatic sequencing (R92) and beam retirement (R103). -/
namespace Sys2Proof.Machine
namespace Dev

/-! ### Head Link -/

/-- HLK_STATE.LINK reads UP (R249). -/
def linkUp (d : Dev) (m : Mech) : Bool := d.get (Reg.HLK_STATE_LINK m) == 3

/-- Records an HLK event. -/
def hlkEvent (d : Dev) (m : Mech) (ev : Mech → Field) : Dev := d.evt (ev m) (Reg.HLK_EVENT_EN_EN m) (128 + m.val)

/-- The samples of the receivers are no longer placed, and the frames whose samples have not all come are lost: what a training or a gated
link leaves behind. -/
def hlkForget (d : Dev) (m : Mech) : Dev :=
  (d.modRch m fun x => { x with raw := Vector.replicate 16 [], frames := [] }).modHlk m fun x =>
    { x with
      placed := Vector.replicate 16 none, part := Vector.replicate 16 none, mark := Vector.replicate 16 none, offs := [], adjWait := 0
      tempLow := none, cellSeen := false, bad := Vector.replicate 3 [], txq := [], sent := [] }

/-- Starts a training (R245, R246): a fast retrain needs stored taps; a cause that arrives during a training joins it. The
head loses write authority, which acts as a gate drop on every beam (R244, R247). -/
def train (d : Dev) (m : Mech) (full : Bool) : Dev :=
  let l := d.get (Reg.HLK_STATE_LINK m)
  if l = 1 ∨ l = 2 then d
  else
    let full := full || (d.mx m).hlk.taps.isNone
    let d := ((d.closeGates m).hlkForget m).set (Reg.HLK_STATE_LINK m) (if full then 1 else 2)
    let d := (d.set (Reg.HLK_STATE_UP_LOCK m) 0).set (Reg.HLK_STATE_DN_LOCK m) 0
    let d := (if full then d.count (Reg.HLK_RETRAIN_FULL m) else d.count (Reg.HLK_RETRAIN_FAST m)).modClk m fun c => { c with lanes := 15 }
    d.hlkEvent m Reg.HLK_EVENT_RETRAIN

/-- Sends the accesses that wait, while the link is UP and one of the sixteen tags is free (R241). -/
def hlkPump (d : Dev) (m : Mech) : (fuel : Nat) → Dev
  | 0 => d
  | f + 1 =>
    let x := (d.mx m).hlk
    match x.waiting, (List.range 16).find? (fun t => !(x.tags.any (fun e => decide (e.tag = t)))) with
    | e :: rest, some t =>
      if d.linkUp m then
        let e := { e with tag := t }
        ((d.modHlk m fun x => { x with tags := x.tags ++ [e], waiting := rest }).sendReg m e).hlkPump m f
      else d
    | _, _ => d

/-- An access of the device to a head register (R241). -/
def headWrite (d : Dev) (m : Mech) (addr data : Nat) : Dev :=
  (d.modHlk m fun x => { x with waiting := x.waiting ++ [⟨0, true, addr, data, false, 0⟩] }).hlkPump m 16

/-- Wakes the link of a mechanism whose lanes were gated (R60, R247). -/
def linkWake (d : Dev) (m : Mech) : Dev :=
  let l := d.get (Reg.HLK_STATE_LINK m)
  if l = 0 ∨ l = 4 then d.train m false else d

/-- The lanes are gated, or the partition is reset: the link goes down without an event (R247). -/
def linkDown (d : Dev) (m : Mech) : Dev :=
  let d := d.setAll [(Reg.HLK_STATE_LINK m, 0), (Reg.HLK_STATE_UP_LOCK m, 0), (Reg.HLK_STATE_DN_LOCK m, 0),
    (Reg.SRV_STAT_RUNNING m, 0)]
  (d.hlkForget m).modClk m fun c => { c with lanes := 0 }

/-! ### Runs of the sequencer -/

/-- The FSQ run ends (R455); a hand-back that waited for it takes effect (R183). -/
def endRun (d : Dev) (m : Mech) : Dev :=
  (((d.set (Reg.FSQ_STAT_RUN m) 0).set (Reg.FSQ_STAT_WRITE m) 0).set (Reg.WCH_STAT_RUN m) 0).handbackNow m

/-- Whether block `b` waits to be written again as a relocated copy on mechanism `m` (R281). -/
def copyPending (m : Mech) (b : Blk) : Bool := decide (b.mech = some m.val ∧ b.phase = .copying)

/-- Whether data block `b` waits for its slot on mechanism `m`. -/
def placedOn (m : Mech) (b : Blk) : Bool := decide (b.mech = some m.val ∧ b.phase = .placed ∧ (b.kind = 0 ∨ b.kind = 3))

/-- Hands back the copies still pending when the mechanism has left the running states (R283), and in FAULT and SAFE the data
blocks that wait for their slot (R94, R403). -/
def handBackCopies (d : Dev) (m : Mech) : Dev :=
  if d.running m then d
  else
    let down := d.mstate m = .fault ∨ d.mstate m = .safe
    (d.bufx.blocks.filter (fun b => copyPending m b.2 || (decide down && placedOn m b.2))).foldl (fun d b => d.handBack m b.1) d

/-- A refresh is skipped (R314): counted, its block let go. -/
def skipRefresh (d : Dev) (m : Mech) (r : Refresh) : Dev :=
  let d := (d.count (Reg.GOAT_REFRESH_SKIPPED m)).goatEvent m Reg.GOAT_EVENT_REFRESH_SKIP
  (d.modGoat m fun g => { g with refreshes := g.refreshes.erase r }).dropBlk r.blk

/-- The disc leaves the mechanism: every refresh queued is skipped (R314). -/
def skipRefreshes (d : Dev) (m : Mech) : Dev := (d.mx m).goat.refreshes.foldl (fun d r => d.skipRefresh m r) d

/-- The disc of a mechanism has left or changed (R319, R98): the DRT slice is cleared; the Archive Service keeps the disc's
catalogue with the disc in no mechanism, closes its groups as R410 says and takes back the blocks that waited for a slot. -/
def discGone (d : Dev) (m : Mech) : Dev :=
  let d := d.skipRefreshes m
  let d := (((d.modGoat m fun g => { g with drt := [], ctxs := [], waiting := [] }).drtSync m).set (Reg.DRT_STAT_LOADED m) 0).goatSync m
  let d := d.closeGroups m true
  let d := (d.bufx.blocks.filter (fun b => copyPending m b.2 || placedOn m b.2)).foldl (fun d b => d.handBack m b.1) d
  let d := (d.bufx.blocks.filter (fun b => decide (b.2.mech = some m.val ∧ b.2.kind = 2))).foldl (fun d b => d.dropBlk b.1) d
  let d := (d.modFsq m fun x => { x with items := [] }).modArc fun a => { a with ckpts := a.ckpts.set m.val none }
  let d := match d.discIn m with
    | some x => d.modDisc x.ident fun y => { y with mech := none }
    | none => d
  d.setAll [(Reg.ARC_MECH_PLACE m, 5), (Reg.ARC_MECH_BLANK m, 0), (Reg.ARC_MECH_FILL m, 0)]

/-! ### Beams -/

/-- Disables the fine loops of the beams that are not in use (R103, R143). -/
def dropRetired (d : Dev) (m : Mech) : Dev :=
  ((d.loopsOf m [1]).filter (fun n => d.loopOn m n && !(d.mayEnable m n))).foldl (fun d n => d.disableLoop m n) d

/-- Whether fewer than MIN_BEAMS beams are enabled and not retired (R100). -/
def beamsLow (d : Dev) (m : Mech) : Bool :=
  decide (popcount 16 (andNot (d.get (Reg.MCH_BEAM_ENABLE m)) (d.get (Reg.MCH_BEAM_RETIRED m))) < d.get (Reg.MCH_CFG_MIN_BEAMS m))

/-- Retires a beam (R103, R105): it leaves use at the start of the next block; the mask of the swath in progress no longer
fits, so its slots are handed back (R284); fewer than MIN_BEAMS beams raise BEAMS_LOW. -/
def retire (d : Dev) (m : Mech) (b : Nat) : Dev :=
  let d := d.setBit (Reg.MCH_BEAM_RETIRED m) b true
  let d := if d.inBlock m then d else d.dropRetired m
  let d := (d.set (Reg.WCH_MASK_NEXT m) (d.beamsInUse m)).modFsq m fun x => { x with nextSwathMask := true }
  if d.beamsLow m then d.raiseFault m 9 else d

/-! ### Focus and tracking -/

/-- The focus loop of a mechanism. -/
def focusLoop (d : Dev) (m : Mech) : Option LoopId := (d.loopsOf m [0]).head?

/-- Layer in focus. -/
def layer (d : Dev) (m : Mech) : Layer := ⟨d.get (Reg.SRV_OPT_STAT_LAYER m) % 4, Nat.mod_lt _ (by decide)⟩

/-- Present focus output. -/
def focusOut (d : Dev) (m : Mech) : Int := match d.focusLoop m with
  | some n => d.getS (Reg.SRV_LOUT_OUT m n)
  | none => 0

/-- Starts a focus acquisition on a layer (R144): LDEN high; the sweep generator takes the focus slot at its present output. -/
def startFocus (d : Dev) (m : Mech) (l : Layer) : Dev :=
  let held := d.focusOut m
  let d := d.disableKinds m [0, 3, 4]
  ((d.lden m true).set (Reg.SRV_OPT_STAT_FOCUS_ON m) 0).modOpt m fun x =>
    { x with focus := .sweep, sweeps := 0, target := l, fsHist := [], focHeld := held, det := x.det.restart }

/-- Whether a PBA lies in the swath under the head, on the layer in focus. -/
def here (d : Dev) (m : Mech) (pba : Nat) : Bool := decide (pbaSwath pba = (d.mx m).opt.swath ∧ pbaLayer pba = (d.layer m).val)

/-- Removes the set-point offsets of rungs 2 and 3 (R309). -/
def endOffsets (d : Dev) (m : Mech) : Dev :=
  let d := (d.mx m).goat.offs.foldl (fun d o => d.setS (Reg.SRV_LSETP_SETP m o.1) (d.getS (Reg.SRV_LSETP_SETP m o.1) - o.2)) d
  d.modGoat m fun g => { g with offs := [] }

/-- Adds an offset to the set-point of a loop, within its range. -/
def addOffset (d : Dev) (m : Mech) (n : LoopId) (o : Int) : Dev :=
  let old := d.getS (Reg.SRV_LSETP_SETP m n)
  let new := sat16 (old + o)
  (d.setS (Reg.SRV_LSETP_SETP m n) new).modGoat m fun g => { g with offs := (n, new - old) :: g.offs }

/-- The offsets of the revolution that begins, for the oldest context at rung 2 or 3 whose re-read is queued in this swath (R307,
R309). -/
def startOffsets (d : Dev) (m : Mech) : Dev :=
  let x := d.mx m
  match x.goat.ctxs.find? (fun c => decide (c.rung = 2 ∨ c.rung = 3) && d.here m c.media && x.fsq.items.any (fun w => decide (w.entry = 6 ∧ w.pba = c.media))) with
  | none => d
  | some c =>
    let sign : Int := if c.reads % 2 = 0 then 1 else -1
    if c.rung = 2 then
      (d.loopsOf m [0]).foldl (fun d n => d.addOffset m n (sign * ((c.reads / 2 + 1) * d.get (Reg.GOAT_STEP_FSTEP m) : Nat))) d
    else
      ((d.loopsOf m [1]).filter (fun n => match d.loopRec m n with
        | some r => tbit (c.weak &&& d.beamsInUse m) (Img.loopBeam r)
        | none => false)).foldl (fun d n => d.addOffset m n (sign * (d.get (Reg.GOAT_STEP_TSTEP m) : Int))) d

/-- The offset that a layer's calibration set holds for a loop (R142). -/
def setOffset (d : Dev) (m : Mech) (l : Layer) (r : Rec) : Option Nat := match Img.loopKind r with
  | 0 => some (d.get (Reg.SRV_CAL_FOC_FOC_OFS m l))
  | 1 => some (d.get (Reg.SRV_CAL_TOFS_TE_OFS m l ⟨Img.loopBeam r % 16, Nat.mod_lt _ (by decide)⟩))
  | 3 => some (d.get (Reg.SRV_CAL_TILT_RTILT_OFS m l))
  | 4 => some (d.get (Reg.SRV_CAL_TILT_TTILT_OFS m l))
  | _ => none

/-- Writes the set-point of a loop from the set of a layer. -/
def setFromCal (d : Dev) (m : Mech) (l : Layer) (n : LoopId) : Dev := match d.loopRec m n with
  | none => d
  | some r => match d.setOffset m l r with
    | some v => d.set (Reg.SRV_LSETP_SETP m n) v
    | none => d

/-- Focus is captured on a layer (R142): its offsets enter the set-points of its loops in place of what software wrote there, and Goat's
offsets end (R309). The gains act through R141. -/
def loadSet (d : Dev) (m : Mech) (l : Layer) : Dev :=
  let d := d.modGoat m fun g => { g with offs := [] }
  (List.finRange 25).foldl (fun d n => (d.setFromCal m l n).modLoop m n fun x => { x with swSetp := false }) d

/-- A calibration has written the set of the layer in focus (R139): its offsets enter the set-points of the loops, but for those that
software has written since the capture, which stay until the next (R142). -/
def calSetp (d : Dev) (m : Mech) (l : Layer) : Dev :=
  (List.finRange 25).foldl (fun d n => if (d.mx m).srv.loops[n.val].swSetp then d else d.setFromCal m l n) d

/-- The full calibration begins, at the capture of focus on layer 0 with CAL_VALID 0 (R161). -/
def startCal (d : Dev) (m : Mech) : Dev :=
  let d := (List.finRange 4).foldl (fun d l => d.set (Reg.SRV_CAL_STAT_VALID m l) 0) d
  (d.set (Reg.SRV_OPT_STAT_CAL_STEP m) 1).modOpt m fun x =>
    { x with cal := .runout, calLayer := 0, retreat := false, meas := MeasX.empty false }

/-- The settle and address check of a seek (R152 steps 5 and 6): loops enabled, ADDR_CHECK pending. -/
def settleTrack (d : Dev) (m : Mech) : Dev :=
  ((d.enableTracking m).modOpt m fun x => { x with seek := .settle }).modFsq m fun x => { x with addrCheck := true }

/-- Closes tracking on the swath last known (TRACK, R87, R151). -/
def startTrack (d : Dev) (m : Mech) : Dev :=
  let d := d.setAll [(Reg.SRV_SEEK_STAT_TARGET m, (d.mx m).opt.swath), (Reg.SRV_SEEK_STAT_TLAYER m, (d.layer m).val),
    (Reg.SRV_SEEK_STAT_ACTIVE m, 1), (Reg.SRV_SEEK_STAT_LONG m, 0), (Reg.SRV_SEEK_STAT_TRIES m, 0)]
  d.settleTrack m

/-- Steps 3 and 4 of a seek from the present swath (R152): a sled move first when the target is far. -/
def seekMove (d : Dev) (m : Mech) : Dev :=
  let t := d.get (Reg.SRV_SEEK_STAT_TARGET m)
  let dist : Int := (t : Int) - ((d.mx m).opt.swath : Int)
  if d.get (Reg.SRV_SEEK_CFG_SHORT_MAX m) < dist.natAbs then
    ((d.set (Reg.SRV_SEEK_STAT_LONG m) 1).modOpt m fun x => { x with seek := .sledMove, tracks := dist * 16, det := x.det.restartSeek }).sldMove m
      (d.sledTarget m t) true
  else d.modOpt m fun x => { x with seek := .short, tracks := dist * 16, det := x.det.restartSeek }

/-- Starts a seek (R152 steps 1 and 2). -/
def startSeek (d : Dev) (m : Mech) (swath : Nat) (l : Nat) : Dev :=
  let d := ((((d.closeGates m).endRun m).setMstate m .seeking).modOpt m fun x => { x with cal := .none }).set (Reg.SRV_OPT_STAT_CAL_STEP m) 0
  let d := d.applyLoops m .seeking
  let d := d.setAll [(Reg.SRV_SEEK_STAT_TARGET m, swath), (Reg.SRV_SEEK_STAT_TLAYER m, l), (Reg.SRV_SEEK_STAT_ACTIVE m, 1),
    (Reg.SRV_SEEK_STAT_LONG m, 0), (Reg.SRV_SEEK_STAT_TRIES m, 0)]
  if (d.layer m).val ≠ l then d.modOpt m fun x => { x with seek := .jump } else d.seekMove m

/-- Layers found on the disc: a layer at or above the count is not sought (R162). -/
def layerAbsent (d : Dev) (m : Mech) (l : Nat) : Bool :=
  decide (d.get (Reg.SRV_OPT_STAT_LAYERS m) ≠ 0 ∧ d.get (Reg.SRV_OPT_STAT_LAYERS m) ≤ l)

/-- CAL_VALID clears, and with it the count of layers found (R162). -/
def dropCal (d : Dev) (m : Mech) : Dev := (d.set (Reg.MCH_STATE_CAL_VALID m) 0).set (Reg.SRV_OPT_STAT_LAYERS m) 0

/-! ### States at rest -/

/-- The error log's note of a cancelled command (R88). -/
def cancelCmd (d : Dev) (m : Mech) (byOp : Nat) : Dev :=
  if d.cmdBusy m then
    let d := d.elogAdd (0x40 + m.val) 0x0A 0x0A05
      [(16, 1, d.get (Reg.MCH_CMDSTAT_OP m)), (17, 1, byOp), (18, 1, d.get (Reg.MCH_CMDSTAT_SOURCE m))]
    d.endCmd m 6
  else d

/-- PARKED (R86): at rest, spindle gates off, LDEN low, the mechanism's domains gated. -/
def enterParked (d : Dev) (m : Mech) : Dev :=
  let d := ((((d.spnEnter m 0).lden m false).xpermit m false).linkDown m).clkGate m
  let d := ((d.setMstate m .parked).applyLoops m .parked).endAuto m
  (d.set (Reg.MCH_STATE_AT_REST m) 1).modMch m fun x =>
    { x with goal := .none, init := .none, deferred := .none, stopReq := false, relock := false, exchEnding := false, exchFault := false }

/-- The contexts end at step 3 of R96, their commands MECHANISM_HELD and Refused (R311). -/
def holdContexts (d : Dev) (m : Mech) : Dev :=
  let g := (d.mx m).goat
  let mine (h : HeldReq) : Bool := g.ctxs.any (fun c => decide (c.pba = h.req.pba.toNat))
  let d := ((d.mx m).mch.held.filter mine).foldl (fun d h => match h.req.slot with
    | some i => d.refuseSlot i 0x14 4
    | none => d) d
  let d := d.modMech m fun x =>
    { x with
      mch := { x.mch with held := x.mch.held.filter (fun h => !mine h) }
      fsq := { x.fsq with items := x.fsq.items.filter (fun w => !(decide (w.entry = 2) && g.ctxs.any (fun c => decide (c.pba = w.blk)))) } }
  d.endContexts m

/-- EXCHANGE (R96 step 3): XPERMIT asserted, XREADY set, CAL_VALID cleared; the EXCHANGE command completes. -/
def enterExchange (d : Dev) (m : Mech) : Dev :=
  let d := ((d.enterParked m).setMstate m .exchange).xpermit m true
  let d := d.holdContexts m
  let d := ((d.mchEvent m Reg.MCH_EVENT_XREADY).dropCal m).modMch m fun x => { x with exchEnding := false, exchFault := false }
  let d := if tbit d.arc.exch m.val then
      d.arcEvent 2 (some m.val) [(0, 8, match d.discIn m with
        | some x => x.ident
        | none => 0)]
    else d
  if d.cmdOp m = 8 then d.endCmd m 2 else d

/-- Whether the motion comparator has shown rotation within REST_MS (R89). -/
def rotationSeen (d : Dev) (m : Mech) : Bool :=
  let q := d.ox.motionQuiet[m.val]
  d.on (Reg.OXA_MECH_MOTION m) || decide (0 < q ∧ d.ox.tox < q + d.get (Reg.MCH_XCHG_REST_MS m) * 1000000)

/-- OFF (R86): nothing is driven, and every domain of the mechanism is gated. At rest is what its two conditions say. -/
def enterOff (d : Dev) (m : Mech) : Dev :=
  let d := ((((d.spnEnter m 0).sldMode m 0).lden m false).xpermit m false).clkGate m
  let d := ((d.setMstate m .off).applyLoops m .off).endAuto m
  (d.setB (Reg.MCH_STATE_AT_REST m) (d.on (Reg.SLD_STATE_AT_PARK m) && !d.rotationSeen m)).modMch m fun x => { x with goal := .none, deferred := .none, stopReq := false, relock := false }

/-- The park sequence through SPINNING_DOWN (R86). -/
def spinDown (d : Dev) (m : Mech) (goal : ParkGoal) : Dev :=
  let d := (((d.closeGates m).endRun m).lden m false).abandonOptics m
  let d := (d.spnBrake m true).sldPark m
  let d := ((d.setMstate m .spinningDown).applyLoops m .spinningDown).endAuto m
  (d.set (Reg.MCH_STATE_AT_REST m) 0).modMch m fun x => { x with goal := goal, deferred := .none, stopReq := false, relock := false }

/-- PARK, EXCHANGE or the idle park (R89, R95): deferred to the end of the block in progress. -/
def parkFor (d : Dev) (m : Mech) (goal : ParkGoal) : Dev :=
  if d.inBlock m then d.modMch m fun x => { x with deferred := goal, stopReq := true } else d.spinDown m goal

/-- SPINNING_UP (R86): domains wake, QUICK clears on every layer (R165). -/
def spinUp (d : Dev) (m : Mech) : Dev :=
  let d := (((d.setMstate m .spinningUp).applyLoops m .spinningUp).set (Reg.MCH_STATE_AT_REST m) 0).clkWake m
  let d := (List.finRange 4).foldl (fun d l => d.set (Reg.SRV_CAL_STAT_QUICK m l) 0) d
  ((d.modMch m fun x => { x with goal := .none }).linkWake m).spnSpinUp m

/-! ### INIT -/

/-- Whether a microcode image is loaded for the sequencer's active bank (R463). -/
def hasUcode (d : Dev) (m : Mech) : Bool := ((d.mx m).fsq.banks[d.get (Reg.FSQ_UCODE_STAT_ACTIVE m) % 2]'(Nat.mod_lt _ (by decide))).loaded

/-- Rotation is absent: INIT homes the sled from OFF (R89, R214). -/
def initHome (d : Dev) (m : Mech) : Dev := (d.modMch m fun x => { x with init := .homing }).sldHome m none

/-- Rotation is seen in an INIT's check: SPINNING_DOWN first (R89). -/
def initSpin (d : Dev) (m : Mech) : Dev :=
  let d := (d.modMch m fun x => { x with init := .spinDown, goal := .none }).setMstate m .spinningDown
  (d.applyLoops m .spinningDown).spnBrake m true

/-- Starts INIT (R89, R247, R463): rotation check, spin-down where the disc turns, homing; the Head Link is trained. An automatic INIT
shows in MCH_CMDSTAT as an INIT of the host's (DESIGN CHOICE, log entry 183: the spec does not say how it shows). -/
def startInit (d : Dev) (m : Mech) (arc : Bool) : Dev :=
  let d := d.setAll [(Reg.MCH_CMDSTAT_RESULT m, 1), (Reg.MCH_CMDSTAT_OP m, 1), (Reg.MCH_CMDSTAT_SOURCE m, b2n arc),
    (Reg.MCH_STATE_ESCALATED m, 0)]
  let d := d.modMch m fun x => { x with autoInitOff := false, init := .check }
  if ¬ d.hasUcode m then d.endCmd m 5
  else
    let d := d.linkWake m
    if d.rotationSeen m then d.initSpin m
    else if d.ox.motionQuiet[m.val] + d.get (Reg.MCH_XCHG_REST_MS m) * 1000000 ≤ d.ox.tox then d.initHome m
    else d

/-- Whether MECH_PRESENT names the mechanism: the image in force has a section for it. -/
def present (d : Dev) (m : Mech) : Bool := (d.img.sections[m.val]).isSome

/-- The automatic INIT of step 9 of R66 and of the end of a partition reset (R86, R102). -/
def autoInit (d : Dev) (m : Mech) : Dev :=
  if d.present m ∧ d.mstate m = .off ∧ d.on (Reg.MCH_CTL_AUTO_INIT m) ∧ ¬ (d.mx m).mch.autoInitOff then d.startInit m false else d

/-- BEAMS_LOW of a mechanism whose image enables too few beams (R100). -/
def checkBeams (d : Dev) (m : Mech) : Dev := if d.present m ∧ d.beamsLow m then d.raiseFault m 9 else d

/-! ### Automatic sequencing -/

/-- Whether a held request may be served now: the DRT slice is loaded, but for a catalogue access (R319). -/
def servable (d : Dev) (m : Mech) (h : HeldReq) : Bool := h.req.kind == .catalogue || d.on (Reg.DRT_STAT_LOADED m)

/-- A Flush waits for no place of its own once the mechanism tracks: its blocks are written in the order of the queue (R92). -/
def leads (d : Dev) (m : Mech) (h : HeldReq) : Bool :=
  h.req.kind != .flushWait || !(d.following m || d.mstate m == .seeking)

/-- The PBA that automatic sequencing goes to: that of Goat's first re-read (R309), of a catalogue write or of a refresh that is due,
failing these the one that the first servable request leads to, after the remap (R18). -/
def wantedPba (d : Dev) (m : Mech) : Option Nat :=
  let due (e : Nat) := (d.mx m).fsq.items.find? (fun w => decide (w.entry = e))
  match due 6, due 8, due 7 with
  | some w, _, _ => some w.pba
  | none, some w, _ => some w.pba
  | none, none, some w => some w.pba
  | none, none, none => ((d.mx m).mch.held.find? (fun h => d.servable m h && d.leads m h)).map (fun h => d.remap m h.req.pba.toNat)

/-- Automatic sequencing is in progress: AUTO_ACTIVE, and the requests it serves are marked (R92, R93). -/
def seqOn (d : Dev) (m : Mech) : Dev :=
  (d.set (Reg.MCH_STATE_AUTO_ACTIVE m) 1).modMch m fun x => { x with held := x.held.map (fun h => { h with sequenced := true }) }

/-- Automatic sequencing reached TRACKING at the target: SEQ_DONE (R106). -/
def seqDone (d : Dev) (m : Mech) : Dev :=
  if d.on (Reg.MCH_STATE_AUTO_ACTIVE m) then (d.endAuto m).mchEvent m Reg.MCH_EVENT_SEQ_DONE else d

/-- The next step of automatic sequencing towards a PBA, from the present state (R92, R95, R144). In PARKED with no disc there is no step:
the spec names none, and the request stays held with no bound (DESIGN CHOICE, log entry 184). -/
def seqStep (d : Dev) (m : Mech) (pba : Nat) : Dev :=
  let x := d.mx m
  match d.mstate m with
  | .off => if d.on (Reg.MCH_CTL_AUTO_INIT m) ∧ ¬ x.mch.autoInitOff ∧ d.present m ∧ d.hasUcode m then (d.seqOn m).startInit m false else d
  | .parked => if d.on (Reg.MCH_STATE_DISC m) then (d.seqOn m).spinUp m else d.endAuto m
  | .spinningDown => if x.mch.goal = .idle then (d.seqOn m).spinUp m else d
  | .spinningUp => d.seqOn m
  | .spun =>
    if x.opt.focus = .none then
      (d.seqOn m).startFocus m (if d.on (Reg.MCH_STATE_CAL_VALID m) then ⟨pbaLayer pba % 4, Nat.mod_lt _ (by decide)⟩ else 0)
    else d.seqOn m
  | .focused =>
    if x.opt.cal ≠ .none ∨ x.opt.seek ≠ .none then d.seqOn m
    else if d.on (Reg.MCH_STATE_CAL_VALID m) then (d.seqOn m).startTrack m else (d.seqOn m).startCal m
  | .tracking =>
    if x.opt.seek ≠ .none ∨ x.opt.cal ≠ .none ∨ d.on (Reg.FSQ_STAT_RUN m) then d
    else if pbaSwath pba = x.opt.swath ∧ pbaLayer pba = (d.layer m).val then d.seqDone m
    else if d.layerAbsent m (pbaLayer pba) then d
    else (d.seqOn m).startSeek m (pbaSwath pba) (pbaLayer pba)
  | _ => d

/-- Starts or continues automatic sequencing where R92 and R94 allow it. -/
def kick (d : Dev) (m : Mech) : Dev :=
  if d.cmdBusy m ∨ ¬ d.on (Reg.MCH_CTL_AUTO m) ∨ d.reloadHolds m ∨ d.on (Reg.FSQ_STAT_HALTED m) ∨ d.mechInReset m then d
  else match d.wantedPba m with
    | some p => d.seqStep m p
    | none => if d.mstate m = .tracking then d.seqDone m else d

/-- SLD follows the sled loop while MCH has it enabled, and holds when MCH disables it (R208); a stop on a switch goes on (R217). -/
def syncFollow (d : Dev) (m : Mech) : Dev :=
  let on := (d.loopsOf m [5]).any (fun n => d.loopOn m n)
  let mode := d.get (Reg.SLD_STATE_MODE m)
  if on ∧ mode ≠ 3 then (d.modSld m fun x => { x with stopping := false, homeStep := 0, after := none, limStop := false, limMove := false, acc := 0 }).sldMode m 3
  else if ¬ on ∧ mode = 3 ∧ ¬ (d.mx m).sld.limStop then (d.modSld m fun x => { x with vel := 0, acc := 0 }).sldMode m 1
  else d

/-- A PARK, EXCHANGE or idle park that waited for a block takes effect as soon as none is in progress (R89). -/
def takeDeferred (d : Dev) (m : Mech) : Dev :=
  let goal := (d.mx m).mch.deferred
  if goal = .none ∨ d.inBlock m ∨ ¬ d.running m then d else d.spinDown m goal

/-- Whether a layer's calibration temperature is 10 °C or more away (R165). -/
def tempFar (d : Dev) (m : Mech) (l : Layer) : Bool :=
  d.on (Reg.SRV_CAL_STAT_VALID m l) &&
    decide (160 ≤ (d.getS (Reg.SRV_TEMP_TEMP m) - 16 * d.getS (Reg.SRV_CAL_STAT_TEMP m l)).natAbs)

/-- In TRACKING with no FSQ run, a quick calibration begins where a layer's calibration temperature has become far (R165). -/
def quickDue (d : Dev) (m : Mech) : Dev :=
  let x := (d.mx m).opt
  if d.mstate m = .tracking ∧ x.cal = .none ∧ x.seek = .none ∧ ¬ d.on (Reg.FSQ_STAT_RUN m) ∧ ¬ d.on (Reg.FSQ_STAT_BUSY m) ∧
      (List.finRange 4).any (d.tempFar m) then
    (d.set (Reg.SRV_OPT_STAT_CAL_STEP m) 5).modOpt m fun x => { x with cal := .warm }
  else d

/-- What follows every event of a mechanism: a deferred park (R89), copies handed back (R283), a quick calibration that is due (R165),
automatic sequencing (R92), the sled's mode (R208). -/
def settle (d : Dev) (m : Mech) : Dev :=
  (((((d.takeDeferred m).handBackCopies m).quickDue m).kick m).syncFollow m).goatSync m

/-! ### Reaching states -/

/-- TRACKING (R86): tracking locked or the seek done. A Flush for which no sequencing ran is held no longer; one for which it ran waits
for its first gate, which ends its delay (R92, R93). -/
def enterTracking (d : Dev) (m : Mech) : Dev :=
  let d := (d.setMstate m .tracking).applyLoops m .tracking
  let d := (d.set (Reg.SRV_SEEK_STAT_ACTIVE m) 0).modOpt m fun x => { x with seek := .none, slips := [] }
  let d := d.set (Reg.SRV_REGION_ZONE m) (d.zoneOf m (d.mx m).opt.swath)
  let d := (d.modMch m fun x => { x with relock := false, held := x.held.filter (fun h => h.req.kind != .flushWait || h.sequenced) }).setGeom m (d.mx m).opt.swath (d.beamsInUse m)
  if d.cmdOp m = 5 ∨ d.cmdOp m = 6 then d.endCmd m 2 else d

/-- Focus is lost (R87, R147): gates closed, loops disabled, SPUN; one reacquisition begins on layer `l`; the sled's move stops (R219). A SEEK or TRACK in
progress ends FAILED (R154). -/
def focusLost (d : Dev) (m : Mech) (l : Layer) : Dev :=
  let d := if (d.mx m).opt.seek = .sledMove then d.sldStop m else d
  let d := d.elogAdd (0x40 + m.val) 0x0A 0x0A03 [(16, 1, d.get (Reg.MCH_STATE_STATE m)), (17, 1, (d.layer m).val)]
  let d := (((d.closeGates m).endRun m).count (Reg.SRV_OPT_EVT_FOC_LOSS m)).abandonOptics m
  let d := (d.setMstate m .spun).applyLoops m .spun
  let d := if d.cmdOp m = 5 ∨ d.cmdOp m = 6 then d.endCmd m 5 else d
  (d.modMch m fun x => { x with relock := true }).startFocus m (if d.on (Reg.MCH_STATE_CAL_VALID m) then l else 0)

/-- Tracking is lost (R87, R151): loops disabled, FOCUSED, relock on the swath last known. -/
def trackingLost (d : Dev) (m : Mech) (slipped : Nat) : Dev :=
  let d := d.elogAdd (0x40 + m.val) 0x0A 0x0A04 [(16, 1, d.get (Reg.MCH_STATE_STATE m)), (18, 2, slipped)]
  let d := (((d.closeGates m).endRun m).count (Reg.SRV_OPT_EVT_TRK_LOSS m)).set (Reg.SRV_OPT_STAT_CAL_STEP m) 0
  let d := ((d.setMstate m .focused).applyLoops m .focused).modOpt m fun x => { x with cal := .none }
  (d.modMch m fun x => { x with relock := true }).startTrack m

/-- An asynchronous effect on a running mechanism: none while its partition is IN_RESET or the main domains are down. -/
def onMech (d : Dev) (m : Mech) (f : Dev → Dev) : Dev :=
  if d.up ∧ ¬ d.mechInReset m then (f d).settle m else d

/-- A host write to a register of mechanism `m` at offset `off` of mechanism 0's copy: none before step 9; to a partition IN_RESET
it is discarded and logged (R486). -/
def mechWrite (d : Dev) (m : Mech) (off : Nat) (f : Dev → Dev) : Dev :=
  if ¬ d.up then d
  else if d.mechInReset m then d.vlogAdd 0x14 0x0E02 0 [(0, 4, off + 0x100000 * m.val), (4, 1, m.val), (5, 1, 1)]
  else (f d).settle m

end Dev

/-- The outcome of a command that acts on one mechanism. -/
def liftMech (m : Mech) (f : Dev → Dev) (s : State) : Host.Outcome State Fault Refusal := liftDev (fun d => d.onMech m f) s

end Sys2Proof.Machine
end

