-- ==== Sys2Proof/Machine/PartOps.lean ====
section
/-! DEFINITION. Partitions (R20–R25, R71–R75): image-derived register values (R10, R46), what a reset of each partition keeps
and clears (R74), how a reset begins and ends, and the end of a self-test (R379–R381). -/
namespace Sys2Proof.Machine
namespace Dev

/-! ### Image-derived values -/

/-- Image-derived fields of one loop (R139); a loop that the section lacks has no image value, and reads 0 (R10). -/
def imageLoop (d : Dev) (m : Mech) (n : LoopId) : Dev :=
  let r := (d.loopRec m n).getD ⟨0, 0x40, 0, []⟩
  d.setAll [(Reg.SRV_LCTL_LOST_MODE m n, b2n ((d.loopRec m n).isSome && decide (Img.loopKind r ≤ 1))),
      (Reg.SRV_LCLAMP_CLAMP_LO m n, r.f 3 0 16), (Reg.SRV_LCLAMP_CLAMP_HI m n, r.f 3 16 16),
      (Reg.SRV_LLIMIT_LIMIT_LO m n, r.f 4 0 16), (Reg.SRV_LLIMIT_LIMIT_HI m n, r.f 4 16 16),
      (Reg.SRV_LTIME_DEADLINE m n, r.f 2 0 16), (Reg.SRV_LTIME_MISS_LIMIT m n, r.f 2 16 8)]

/-- Image-derived fields of a mechanism (R46, R106, R139, R198, R224, R272, R320); those of a section that the image lacks read 0 (R10). -/
def imageMech (d : Dev) (m : Mech) : Dev :=
    let sp := d.srec m 0x50
    let sl := d.srec m 0x51
    let co := d.grec 0x70
    let d := (List.finRange 25).foldl (fun d n => d.imageLoop m n) (d.set (Reg.MCH_BEAM_ENABLE m) ((d.srec m 0x20).f 1 0 16))
    let d := d.setAll [(Reg.SPN_LIM0_MAX_RPM m, sp.f 0 0 16), (Reg.SPN_LIM0_BACK_THR m, sp.f 1 16 16),
      (Reg.SPN_LIM1_KE m, sp.f 2 0 16), (Reg.SPN_LIM1_TQ_MAX m, sp.f 2 16 16),
      (Reg.SPN_THR0_CHOP_OFF_V m, sp.f 5 0 16), (Reg.SPN_THR0_CHOP_ON_V m, sp.f 5 16 16),
      (Reg.SPN_THR1_DERATE_V m, sp.f 6 0 16), (Reg.SPN_THR1_REGEN_V m, sp.f 6 16 16),
      (Reg.SPN_THR2_SHORT_V m, sp.f 7 0 16), (Reg.SPN_THR2_GATESOFF_V m, sp.f 7 16 16), (Reg.SPN_THR3_UV_V m, sp.f 8 0 16)]
    let d := d.setAll [(Reg.SLD_LIM0_VMAX m, sl.f 0 16 16), (Reg.SLD_LIM0_AMAX m, sl.f 1 0 16),
      (Reg.SLD_LIM1_JERK m, sl.f 1 16 16), (Reg.SLD_LIM1_LIM_DECEL m, sl.f 10 0 16),
      (Reg.SLD_PARK_PARK_POS m, sl.f 6 0 24), (Reg.SLD_PARK_INNER_MODE m, sl.f 6 24 1),
      (Reg.SLD_PARK_OUTER_MODE m, sl.f 6 25 1), (Reg.SLD_SOFT_LO_SOFT_LO m, sl.f 7 0 24),
      (Reg.SLD_SOFT_HI_SOFT_HI m, sl.f 8 0 24), (Reg.SLD_SWATH0_SWATH0_POS m, sl.f 9 0 24)]
    let thr := if d.present m then [sp.f 6 16 16, sp.f 7 0 16, sp.f 7 16 16, sp.f 8 0 16] else refThresholds
    let d := d.modOx fun o => { o with thresholds := o.thresholds.set m.val thr }
    d.setAll [(Reg.GPE_CODE_P_DEFAULT m, co.f 0 0 5), (Reg.GPE_CODE_Q_DEFAULT m, co.f 0 8 4),
      (Reg.GPE_CODE_RELOC_PCT m, co.f 0 24 4), (Reg.GPE_GROUP_SPACING m, co.f 1 0 5),
      (Reg.GPE_GROUP_RELOC_MAX m, co.f 1 8 2), (Reg.GPE_GROUP_GROUP_TMO m, co.f 1 16 16),
      (Reg.GANDER_CFG_GOOD_PCT m, co.f 2 0 8), (Reg.GANDER_CFG_FAIL_PCT m, co.f 2 8 8),
      (Reg.GANDER_CFG_ERASE_WT m, co.f 2 16 8), (Reg.GANDER_CFG_FRAG_MAX m, co.f 2 24 8),
      (Reg.DEC_CFG_ITER_LIMIT m, co.f 0 16 7)]

/-- Image-derived fields of the buffer and of the metadata cache (R46, R336, R348, R444). -/
def imageGlobal (d : Dev) : Dev :=
  let b := d.grec 0x80
  d.setAll [(Reg.BUF_SZ_MIB 0, b.f 0 0 32), (Reg.BUF_SZ_MIB 1, b.f 1 0 32), (Reg.BUF_SZ_MIB 2, b.f 2 0 32),
    (Reg.BUF_SZ_MIB 3, b.f 3 0 32), (Reg.BUF_SZ_MIB 4, b.f 4 0 32), (Reg.BUF_WM_HIGH_WM, b.f 8 0 8),
    (Reg.BUF_WM_LOW_WM, b.f 8 8 8), (Reg.BUF_WM_RES_SHARE, b.f 8 16 8), (Reg.BUF_RES_CFG_HORIZON_MS, b.f 9 0 16),
    (Reg.BUF_RES_CFG_RES_WINDOW_MS, b.f 9 16 16), (Reg.MDC_STAT_LOCKED_WAYS, b.f 7 16 3)]

/-! ### Windows -/

/-- Returns the registers of a BAR0 window to their reset values. -/
def clearWindow (d : Dev) (lo hi : Nat) : Dev :=
  { d with
    regs := d.regs.filter (fun e => !(decide (8 * lo ≤ e.1 ∧ e.1 < 8 * hi)))
    latches := d.latches.filter (fun e => !(decide (lo ≤ e.1 ∧ e.1 < hi))) }

/-- Returns a window to reset values but for the fields listed. -/
def clearKeep (d : Dev) (lo hi : Nat) (keep : List Field) : Dev :=
  (d.clearWindow lo hi).setAll (keep.map (fun f => (f, d.get f)))

/-! ### Self-test -/

/-- The running self-test ends with a result (R379, R381): its entry joins the last sixteen and the error log. -/
def endTest (d : Dev) (result step mech rung4 first : Nat) : Dev :=
  match d.fw.test with
  | none => d
  | some t =>
    let r : TestResult := ⟨t.start, d.now, t.kind, result, step, mech, t.mask, rung4, first⟩
    let d := d.modFw fun x => { x with test := none, results := (r :: x.results).take 16 }
    d.elogAdd 0x60 9 result [(16, 8, r.start), (24, 8, r.stop), (32, 1, r.kind), (33, 1, r.result), (34, 1, r.step),
      (35, 1, r.mech), (36, 2, r.mask), (38, 2, r.rung4), (40, 4, r.first)]

/-- Whether the running test uses a mechanism: the extended test those of its mask, the short test every one (R379). -/
def testUses (d : Dev) (m : Nat) : Bool := match d.fw.test with
  | some t => t.kind != 2 || tbit t.mask m
  | none => false

/-- A media request pauses the part of a mechanism that the running test uses (R380). -/
def pauseTest (d : Dev) (m : Nat) : Dev :=
  if d.testUses m then d.modFw fun x => { x with test := x.test.map (fun t => { t with paused := setb t.paused m }) } else d

/-- An I/O command in a slot pauses the march test (R380). -/
def pauseMarch (d : Dev) : Dev :=
  d.modFw fun x => { x with test := x.test.map (fun t => if t.kind = 1 then { t with marchPaused := true } else t) }

/-! ### What a reset clears -/

/-- The media requests outstanding at a mechanism complete with PARTITION_RESET and are issued again at the new epoch; the
fourth PARTITION_RESET of one ends its command MECHANISM_FAULT (R24, R366). -/
def reissueMedia (d : Dev) : List HeldReq → Dev × List HeldReq
  | [] => (d, [])
  | h :: t =>
    match h.req.slot with
    | none => let (d, l) := reissueMedia d t; (d, h :: l)
    | some i =>
      match d.slot i with
      | none => reissueMedia d t
      | some s =>
        if s.phase = .finished then reissueMedia d t
        else if 3 ≤ s.reissues then reissueMedia (d.refuseSlot i 0x15 5) t
        else
          let (d, l) := reissueMedia ((d.setSlot i { s with reissues := s.reissues + 1 }).count Reg.QE_REISSUE_COUNT) t
          (d, h :: l)

/-! ### Fuses in the SEC registers (R482) -/

/-- The sixteen words of a 512-bit value into an array of registers. -/
def set512 (d : Dev) (f : Fin 16 → Field) (v : Nat) : Dev :=
  (List.finRange 16).foldl (fun d k => d.set (f k) (v >>> (32 * k.val))) d

/-- OWNER_HASH of the active slot (R474). -/
def ownerHash (d : Dev) : Option (BitVec 512) := d.sec.owners.getLast?

/-- Publishes the fuses and the owner slot. -/
def fuseRegs (d : Dev) : Dev :=
  let d := d.setAll [(Reg.SEC_STAT_GK0_REVOKED, b2n d.sec.gk0Revoked), (Reg.SEC_STAT_LEGACY_DIS, b2n Config.legacyDis),
    (Reg.SEC_STAT_OWNER_SLOT, d.sec.owners.length), (Reg.SEC_ARB_BOOT, d.sec.arb[0]), (Reg.SEC_ARB_SVC, d.sec.arb[1]),
    (Reg.SEC_ARB_UCODE, d.sec.arb[2])]
  let d := d.set512 Reg.SEC_ID_HASH_HASH Config.idHash.toNat
  let d := d.set512 Reg.SEC_OWNER_HASH_HASH (match d.ownerHash with
    | some h => h.toNat
    | none => 0)
  d.set512 Reg.SEC_GK_HASH_HASH (Config.gkHash (d.on Reg.SEC_STAT_GK_SLOT)).toNat

/-- An anti-rollback counter advances (R473); `ok` says that the burn succeeds. -/
def advanceArb (d : Dev) (i : Fin 3) (rollback : Nat) (ok : Bool) : Dev :=
  let v := min rollback 127
  if v ≤ d.sec.arb[i.val] then d
  else if ok then (d.modSec fun x => { x with arb := x.arb.set i.val v }).fuseRegs
  else (d.set Reg.SEC_STAT_ARB_FAIL 1).elogAdd 0x61 0x0A 0x0D10

/-! ### Bank swaps -/

/-- MECH_PRESENT. -/
def presentMask (d : Dev) : Nat := (List.finRange 16).foldl (fun a m => if d.present m then setb a m.val else a) 0

/-- Ends the microcode activation in progress with a status, logging it for each of its sequencers (R461, R511). -/
def endUcodeAct (d : Dev) (a : UcodeAct) (status : Nat) : Dev :=
  let d := (List.finRange 16).foldl (fun d m =>
    if tbit a.armed m.val then d.elogAdd (0x40 + m.val) 8 status
      [(16, 1, 1), (20, 4, d.get (Reg.FSQ_UCODE_VER_VERSION m)), (24, 4, d.get (Reg.FSQ_UCODE_STAGED_VERSION m))] else d) d
  (d.modFw fun x => { x with ucodeAct := none }).finishSlot a.slot status

/-- The activation commits when every armed sequencer has swapped (R461); one that covers every mechanism replaces the flash
image and advances ARB_UCODE (R463, R473). -/
def ucodeCommit (d : Dev) (m : Mech) : Dev := match d.fw.ucodeAct with
  | none => d
  | some a =>
    let a := { a with swapped := if tbit a.armed m.val then setb a.swapped m.val else a.swapped }
    let d := d.modFw fun x => { x with ucodeAct := some a }
    if a.armed = a.swapped then
      let b := (d.mx m).fsq.banks[d.get (Reg.FSQ_UCODE_STAT_ACTIVE m) % 2]'(Nat.mod_lt _ (by decide))
      let d := d.endUcodeAct a 0
      if andNot d.presentMask b.mechMask = 0 then (d.advanceArb 2 b.rollback true).emit (.flash (.ucode b.version)) else d
    else d

/-- A mechanism's bank swap completes (R460). -/
def swapBank (d : Dev) (m : Mech) : Dev :=
  let a := 1 - d.get (Reg.FSQ_UCODE_STAT_ACTIVE m)
  let b := (d.mx m).fsq.banks[a % 2]'(Nat.mod_lt _ (by decide))
  let old := (d.mx m).fsq.banks[(a + 1) % 2]'(Nat.mod_lt _ (by decide))
  let d := d.setAll [(Reg.FSQ_UCODE_STAT_ACTIVE m, a), (Reg.FSQ_UCODE_STAT_SWAP_ARMED m, 0), (Reg.FSQ_UCODE_STAT_STAGED m, b2n old.loaded),
    (Reg.FSQ_UCODE_VER_VERSION m, b.version), (Reg.FSQ_UCODE_STAGED_VERSION m, old.version),
    (Reg.FSQ_UCODE_STAT_PATCHES m, b.patches), (Reg.FSQ_UCODE_STAT_PATCH_WORDS m, b.patchWords), (Reg.FSQ_EVENT_SWAPPED m, 1)]
  (d.modFsq m fun x => { x with stack := [] }).ucodeCommit m

/-- The registers that a mechanism reset keeps: the DRT slice's, the microcode banks' (R74, R466). -/
def mechKeeps (m : Mech) : List Field :=
  [Reg.DRT_STAT_USED m, Reg.DRT_STAT_LOADED m, Reg.DRT_STAT_FULL m, Reg.DRT_STAT_UNPERSISTED m,
    Reg.FSQ_UCODE_VER_VERSION m, Reg.FSQ_UCODE_STAT_ACTIVE m, Reg.FSQ_UCODE_STAT_STAGED m, Reg.FSQ_UCODE_STAT_PATCHES m,
    Reg.FSQ_UCODE_STAT_PATCH_WORDS m, Reg.FSQ_UCODE_STAGED_VERSION m, Reg.MCH_STATE_DISC m]

/-- Reset of mechanism `m` (R74, R91, R137, R199, R223, R283, R286, R311, R466): `esc` says that an escalation caused it
(R102). -/
def resetMech (d : Dev) (m : Mech) (esc : Bool) : Dev :=
  let d := d.closeGates m
  let busy := d.cmdBusy m
  let op := d.get (Reg.MCH_CMDSTAT_OP m)
  let src := d.get (Reg.MCH_CMDSTAT_SOURCE m)
  let d := (d.bufx.blocks.filter (fun b => copyPending m b.2)).foldl (fun d b => d.handBack m b.1) d
  let d := if d.on (Reg.FSQ_UCODE_STAT_SWAP_ARMED m) then d.swapBank m else d
  let d := if d.reloadHolds m then d
    else
      let (d, held) := d.reissueMedia (d.mx m).mch.held
      d.modMch m fun x => { x with held := held }
  let d := if d.testUses m.val then d.endTest 3 0 m.val 0 0 else d
  let x := d.mx m
  let base := 0x800000 + m.val * 0x100000
  let d := (d.clearKeep base (base + 0x100000) (mechKeeps m)).imageMech m
  let d := d.modMech m fun _ => { MechX.reset with
    mch := { MchX.reset with discLevel := x.mch.discLevel, held := x.mch.held.map (fun h => { h with sequenced := false }), autoInitOff := esc }
    hlk := { HlkX.reset with taps := x.hlk.taps }
    gate := { GateX.reset with ended := x.gate.ended }
    rch := { RchX.reset with verify := x.rch.verify }
    fsq := { FsqX.reset with banks := x.fsq.banks, items := x.fsq.items.filter (fun w => decide (w.entry = 1 ∨ w.entry = 7 ∨ w.entry = 8) || (w.entry == 2 && x.mch.held.any (fun h => decide (h.req.pba.toNat = w.blk)))) }
    goat := { GoatX.reset with drt := x.goat.drt, refreshes := x.goat.refreshes } }
  let d := if busy then d.setAll [(Reg.MCH_CMDSTAT_RESULT m, 6), (Reg.MCH_CMDSTAT_OP m, op), (Reg.MCH_CMDSTAT_SOURCE m, src)] else d
  if esc then d.set (Reg.MCH_STATE_ESCALATED m) 1 else d

/-- Pairs of port `p` in the lists that are kept by pair of both ports. -/
def pairKey (p : Port) (q : Nat) : Nat := 128 * p.idx + q

/-- A slot of the lost port at its port's reset (R386): a Write or Object Put whose data is not in the buffer completes
HOST_PATH_LOST; every other command runs on. -/
def orphanSlot (p : Port) (s : Slot) : Slot :=
  if s.port ≠ p then s
  else
    let s := { s with orphan := true }
    if s.phase = .finished then s
    else if ¬ isAdmin s ∧ (opcode s = 1 ∨ opcode s = 0x20) ∨ s.moved then
      { s with phase := .finished, status := 0x0C, outcome := if s.delay = 0 then .served else .delayed }
    else { s with lostXfer := true }

/-- Whether the FOCQ pair of port `p` can take failover completions: STATE 1 or 2 (R387). -/
def focqReady (d : Dev) (p : Port) : Bool :=
  let q := d.get (match p with | .A => Reg.QE_FO_FOCQ_A | .B => Reg.QE_FO_FOCQ_B)
  let st := d.get (Reg.QE_QCTL_STATE p ⟨q % 128, Nat.mod_lt _ (by decide)⟩)
  st = 1 ∨ st = 2

/-- Reset of a port's partition (R74, R354, R386, R387). A Function Level Reset leaves the link as it is; every other reset takes it
down (PCIe). -/
def resetPort (d : Dev) (p : Port) (flr : Bool) : Dev :=
  let fo := d.on Reg.QE_FO_EN && d.focqReady p.other
  let d := { d with slots := d.slots.map (fun (s : Nat × Slot) => (s.1, orphanSlot p s.2)) }
  let d := d.clearWindow (0x101000 + 0x1000 * p.idx) (0x102000 + 0x1000 * p.idx)
  let d := d.modQe fun x =>
    { x with
      cqHead := x.cqHead.filter (fun e => decide (e.1 / 128 ≠ p.idx))
      sqTail := x.sqTail.filter (fun e => decide (e.1 / 128 ≠ p.idx))
      agg := x.agg.filter (fun e => decide (e.1 / 128 ≠ p.idx))
      aborts := x.aborts.filter (fun e => decide (e.2 / 4294967296 ≠ p.idx))
      lost := if fo then x.lost ++ [p] else x.lost }
  let d := d.modPort p fun x =>
    { x with linkUp := flr && x.linkUp, d3 := false, linkPm := if flr then x.linkPm else .l0, cfg := [], msixTab := [], msixPend := 0 }
  if fo then (d.setB Reg.QE_FO_EVT_ACTIVE (p.other == .B)).modArc fun a =>
      { a with streams := a.streams.map (fun s => if s.2.port = p then (s.1, { s.2 with port := p.other }) else s) }
  else d

/-- Whether a command's data is in transfer: an admitted Write or Object Put whose data has not arrived. -/
def inTransfer (s : Slot) : Bool := decide (s.phase = .running ∧ ¬ isAdmin s ∧ (opcode s = 1 ∨ opcode s = 0x20))

/-- Reset of the DMA engine (R74, R429): the transfers that the QE had in it restart once; a second failure ends the command
INTERNAL_ERROR. -/
def resetDma (d : Dev) : Dev :=
  let d := (d.slots.filter (fun s => inTransfer s.2)).foldl (fun d s =>
    if s.2.restarted then d.finishSlot s.1 7 else d.setSlot s.1 { s.2 with restarted := true }) d
  let d := d.clearWindow 0x300000 0x400000
  { d with dma := Vector.replicate 64 DmaX.reset }

/-- Reset of the metadata cache (R74, R437, R443, R444): locked lines stay; dirty unlocked lines are discarded and counted. Every request
that waits completes with PARTITION_RESET (R24). -/
def resetMdc (d : Dev) : Dev :=
  let out := d.mdc.misses.flatMap (fun x => x.waiters ++ x.later) ++ d.mdc.waiting
  let d := out.foldl (fun d _ => d.emit (.partReply 19 true)) d
  let lost := (d.mdc.lines.filter (fun l => l.dirty ∧ ¬ l.lock)).length
  let kept := d.mdc.lines.filter (fun l => l.lock)
  let d := d.clearKeep 0x200000 0x300000 [Reg.MDC_STAT_LOCKED_WAYS]
  let d := { d with mdc := { MdcX.reset with lines := kept } }
  (d.count Reg.MDC_DISCARD_LINES lost).set Reg.MDC_LOCKED_LINES kept.length

/-- The four channels of a buffer group. -/
def groupChans (k : Fin 6) : List Chan := (List.finRange 4).map (fun i => ⟨4 * k.val + i.val, by omega⟩)

/-- What holds of a channel outside its controller: that it is in use, is being retired, or neither (R333, R349). -/
def chanState (d : Dev) (c : Chan) (inUse : Nat) : Nat :=
  if d.bit Reg.BUF_CH_ACTIVE_MASK c.val then (if d.bufx.retiring.any (fun r => decide (r.1 = c.val)) then 3 else inUse) else d.get (Reg.BUF_CH_STAT_STATE c)

/-- Reset of a buffer group (R74, R349): the DRAM contents stay, the four channels in self-refresh; registers, PHYs and the record of
corrected errors are cleared, and the channels in use show that they train. The package's own repair resources are noted for the end of
the reset. -/
def resetGroup (d : Dev) (k : Fin 6) : Dev :=
  (groupChans k).foldl (fun d c =>
    let left := d.get (Reg.BUF_CH_STAT_PPR_LEFT c)
    let st := if d.bit Reg.BUF_CH_ACTIVE_MASK c.val then 1 else d.get (Reg.BUF_CH_STAT_STATE c)
    let d := d.clearWindow (Reg.BUF_CH_STAT_STATE c).off ((Reg.BUF_CH_ERR_ADDR_HI_ADDR c).off + 4)
    let d := d.modBufx fun x =>
      { x with
        pprLeft := x.pprLeft.set c.val left
        phy := x.phy.set c.val PhyX.reset
        rowCe := x.rowCe.filter (fun r => decide (r.1 % 24 ≠ c.val))
        ceTimes := x.ceTimes.set c.val [], ueTimes := x.ueTimes.set c.val [] }
    d.setAll [(Reg.BUF_CH_STAT_STATE c, st), (Reg.BUF_CH_STAT_SR c, 1)]) d

/-- A buffer group leaves its reset (R69, R74): its PHYs have trained again, to codes and taps that the spec does not give; the channels
leave self-refresh, and their repairs show again (R330, R331). -/
def endGroup (d : Dev) (k : Fin 6) : Dev :=
  (groupChans k).foldl (fun d c =>
    let zq := d.freeVal
    let d := d.useFree
    let taps := d.freeVal
    let d := d.useFree.modBufx fun x => { x with phy := x.phy.set c.val ⟨zq, none, taps, none, none⟩ }
    d.setAll [(Reg.BUF_CH_STAT_STATE c, d.chanState c 2), (Reg.BUF_CH_STAT_SR c, 0), (Reg.BUF_CH_STAT_PPR_LEFT c, d.bufx.pprLeft[c.val]),
      (Reg.BUF_CH_STAT_SOFT_USED c, (d.bufx.soft.filter (fun r => decide (r % 24 = c.val))).length)]) d

/-- Reset of the service processors (R74, R79, R414): stream contexts, placement cursors and catalogue state stay. -/
def resetArc (d : Dev) : Dev :=
  let keep := [Reg.ARC_STAT_STREAMS, Reg.ARC_CTX_USED] ++
    (List.finRange 16).flatMap (fun m => [Reg.ARC_MECH_PLACE m, Reg.ARC_MECH_BLANK m, Reg.ARC_MECH_FILL m, Reg.ARC_MECH_JOIN_S m])
  let d := (d.clearKeep 0x700000 0x800000 keep).set Reg.ARC_STAT_STATE (if d.fw.svcAct.isSome then 2 else 0)
  d.modArc fun a => { a with events := [], held := 0, exch := 0 }

/-- Steps 1 and 3 of R71 for partition `n`: epoch incremented, IN_RESET set, state cleared; requests outstanding complete with
PARTITION_RESET (R24). -/
def beginReset (d : Dev) (n : Part) (cause : ResetCause) : Dev :=
  let e := (d.get (Reg.GCTL_EPOCH_EPOCH n) + 1) % 65536
  let d := d.set (Reg.GCTL_EPOCH_EPOCH n) e
  let d := (d.set (Reg.GCTL_EPOCH_IN_RESET n) 1).setBit Reg.GCTL_PRST_STAT_IN_RESET n.val true
  let d := { d with parts := d.parts.set n.val ⟨none, false, (d.parts[n.val]).lastEnd, cause⟩ }
  if h : n.val < 16 then d.resetMech ⟨n.val, h⟩ (cause == .escalation)
  else if n.val = 16 then d.resetPort .A (cause == .flr)
  else if n.val = 17 then d.resetPort .B (cause == .flr)
  else if n.val = 18 then d.resetDma
  else if n.val = 19 then d.resetMdc
  else if h : 20 ≤ n.val ∧ n.val < 26 then d.resetGroup ⟨n.val - 20, by omega⟩
  else d.resetArc

/-- Whether a reset of `n` is pending: a GO that waits under R73, or an orderly step 0 (R75). -/
def resetPending (d : Dev) (n : Part) : Bool := (d.parts[n.val]).waiting.isSome || (d.parts[n.val]).orderly

/-- Begins a reset, or leaves it waiting out the 10 µs after the previous one (R73). -/
def requestReset (d : Dev) (n : Part) (cause : ResetCause) : Dev :=
  if d.inReset n then d
  else match (d.parts[n.val]).lastEnd with
    | some t => if d.now < t + 10000 then { d with parts := d.parts.set n.val { d.parts[n.val] with waiting := some cause, orderly := false } }
        else d.beginReset n cause
    | none => d.beginReset n cause

/-- Step 3 of R49: the mechanism of a partial reload is at rest, and its partition is reset; a reset in progress or pending stands
for it. -/
def reloadReset (d : Dev) (m : Mech) : Dev :=
  let d := d.modFw fun x => { x with reload := x.reload.map (fun r => { r with resetting := true }) }
  let n : Part := ⟨m.val, by omega⟩
  if d.inReset n ∨ d.resetPending n then d else d.requestReset n .reload

/-- The resets that have waited out R73 begin. -/
def releaseWaiting (d : Dev) : List Part → Dev
  | [] => d
  | n :: t =>
    releaseWaiting (match (d.parts[n.val]).waiting, (d.parts[n.val]).lastEnd with
      | some c, some e => if e + 10000 ≤ d.now then d.beginReset n c else d
      | some c, none => d.beginReset n c
      | none, _ => d) t

/-- Step 4 of R71: IN_RESET clears and the partition accepts requests again. A mechanism runs its automatic INIT, unless an
escalation reset it (R86, R102); the metadata cache serves again; the service processors run; a buffer group leaves
self-refresh. Vector 145 reports the reset (R353). -/
def endReset (d : Dev) (n : Part) : Dev :=
  let d := (d.set (Reg.GCTL_EPOCH_IN_RESET n) 0).setBit Reg.GCTL_PRST_STAT_IN_RESET n.val false
  let d := ({ d with parts := d.parts.set n.val { d.parts[n.val] with lastEnd := some d.now } }).fireEvt 145
  if h : n.val < 16 then Dev.settle (Dev.autoInit (Dev.checkBeams d ⟨n.val, h⟩) ⟨n.val, h⟩) ⟨n.val, h⟩
  else if n.val = 19 then d.set Reg.MDC_STAT_ENABLED 1
  else if h : 20 ≤ n.val ∧ n.val < 26 then d.endGroup ⟨n.val - 20, by omega⟩
  else if d.fw.svcAct = none ∧ d.sec.svc.isSome then d.set Reg.ARC_STAT_STATE 1
  else d

end Dev
end Sys2Proof.Machine
end

