-- ==== Sys2Proof/Machine/Tick.lean ====
section
/-! DEFINITION. The passing of time (R3, R56, R57): what one step does when no command waits. -/
namespace Sys2Proof.Machine
namespace Dev

/-- Every partition, in order. -/
def allParts : List Part := List.finRange 27

/-- 32.768 kHz tick period in 1/64 ns (R56). -/
def tickPeriod : Nat := 1953125

/-- One 1.0 GHz cycle while the system PLL runs: device time advances by 1 ns; at each 32.768 kHz tick Ox realigns T_OX (R56). -/
def tickRun (d : Dev) : Dev :=
  let t := (d.ox.devTime + 1) % 2 ^ 64
  let a := d.ox.acc + 64
  d.modOx fun o => if tickPeriod ≤ a then { o with devTime := t, acc := a - tickPeriod, tox := t } else { o with devTime := t, acc := a }

/-- One 32.768 kHz tick while the system PLL is stopped: T_OX advances by 30,517 or 30,518 ns; where the PLL has locked, device
time resumes at this edge from T_OX (R56). -/
def tickStopped (d : Dev) : Dev :=
  let a := d.ox.acc + tickPeriod
  let t := (d.ox.tox + a / 64) % 2 ^ 64
  d.modOx fun o =>
    if o.pllWait then { o with tox := t, acc := 0, devTime := t, pllOn := true, pllWait := false }
    else { o with tox := t, acc := a % 64 }

/-- One tick of time. Nothing runs while VAON is off. A reset that waited out R73 begins when its 10 µs are over. -/
def tick (d : Dev) : Dev :=
  if d.ox.step = .off then d
  else if d.ox.pllOn then d.tickRun.releaseWaiting allParts
  else d.tickStopped.releaseWaiting allParts

end Dev

/-- A step with no command waiting: time passes (log entry 2). -/
def idleTick (s : State) : Host.Outcome State Fault Refusal := liftDev Dev.tick s

end Sys2Proof.Machine
end

