-- ==== Sys2Proof/Machine/Power.lean ====
section
/-! DEFINITION. Power, sleep and wake, the Ox-only state, Ox's inputs and SMBus (R53–R85, R507). -/
namespace Sys2Proof.Machine
namespace Dev

/-! ### Whole-device reset and modes -/

/-- What survives the loss of the main rails of SEC: fuses and flash (R467, R474). -/
def keptSec (x : SecX) : SecX :=
  { SecX.reset with gk0Revoked := x.gk0Revoked, arb := x.arb, owners := x.owners, ownerKey := x.ownerKey }

/-- A port after a whole-device reset: its PERST_N pin as it is. -/
def portAfterReset (x : PortX) : PortX := { PortX.reset with perst := x.perst }

/-- A mechanism after a whole-device reset: its output pins as Ox holds them, its disc-present pin as it is. -/
def mechAfterReset (x : MechX) : MechX :=
  { MechX.reset with pins := x.pins, mch := { MchX.reset with discLevel := x.mch.discLevel } }

/-- The whole-device reset of R22: every block outside Ox at its reset values, the buffer and every slot cleared; Ox, the two
logs, fuses and flash stay. -/
def wholeReset (d : Dev) : Dev :=
  { Dev.reset with
    regs := d.regs.filter (fun e => decide (8 * 0x20000 ≤ e.1 ∧ e.1 < 8 * 0x40000))
    latches := d.latches.filter (fun e => decide (0x20000 ≤ e.1 ∧ e.1 < 0x40000))
    free := d.free
    out := d.out
    ox := d.ox
    vlog := d.vlog
    elog := d.elog
    health := d.health
    ports := d.ports.map portAfterReset
    mech := d.mech.map mechAfterReset
    bufx := { BufX.reset with candidates := d.bufx.candidates }
    sec := keptSec d.sec
    jtag := d.jtag
    boundary := d.boundary }

/-- Whether the main rails are up and the device is on its way to NORMAL or there. -/
def mainsUp (d : Dev) : Bool := d.ox.mainEn && d.ox.mainPg

/-- The motor safe rule of R83 for one mechanism: an active short that is already applied, by whom it may be, is the state of the
spindle gates. The bridge of a sled that homes from OFF stays driven while the main domains run (R86, R214). -/
def motorSafe (d : Dev) (m : Mech) (gatesOff regen below2V : Bool) : Dev :=
  let short := !gatesOff && (regen || ((d.mx m).pins.gates == .lowSides && !below2V))
  let sled := d.up && decide (d.get (Reg.SLD_STATE_MODE m) ≠ 0)
  d.modPins m fun p => { p with sled := p.sled && sled, chop := false, psen := short, gates := if short then .lowSides else .off }

/-- Ox holds a mechanism safe (R82): LDEN low, exchange-permit deasserted, the bridges cut (R219), the motor safe rule with the
comparators as last sampled. -/
def holdSafe (d : Dev) (m : Mech) : Dev :=
  let bus := d.get (Reg.OXA_MECH_BUS m)
  let d := ((d.lden m false).xpermit m false).motorSafe m (tbit bus 2) (tbit bus 0) d.ox.below2V[m.val]
  d.sldCut m

/-- Logs a mode change, or a further cause, in the error log (R511). -/
def logMode (d : Dev) (prev mode cause : Nat) : Dev :=
  d.elogAdd 0x62 7 (mode + 256 * cause) [(16, 1, prev), (17, 1, cause), (18, 1, d.hottestC)]

/-- A cause of R81 arises (R81, R82, R84, R85): entry into the Ox-only state, or the newest cause of the present entry. The
buffer and every command in flight are lost. -/
def oxOnly (d : Dev) (cause : Nat) : Dev :=
  if d.ox.step = .off then d
  else
    let prev := d.get Reg.OXA_STATE_MODE
    let d := d.set Reg.OXA_STATE_CAUSE cause
    if prev = 1 then d.logMode 1 1 cause
    else
      let img := d.get Reg.GCTL_IMG_STAT_STATE
      let d := (d.set Reg.OXA_STATE_MODE 1).set Reg.OXA_STATE_DEPTH 0
      let d := d.modOx fun o => { o with step := .oxOnly }
      let d := (List.finRange 16).foldl (fun d m => d.holdSafe m) d
      let d := d.modOx fun o =>
        { o with step := .oxOnly, mainEn := false, mainPg := false, pllOn := false, pllWait := false, acc := 0, recoverRefused := false, imgState := img, clk := ⟨false, false, false, false⟩ }
      let d := (List.finRange 16).foldl (fun d m => d.clkGate m) d
      let d := { d with slots := [], bufx := { BufX.reset with candidates := d.bufx.candidates }, ports := d.ports.map portAfterReset }
      d.logMode prev 1 cause

/-- `oxOnly` with the buffer cleared when the state is entered (R84). -/
def oxOnlyBuf (d : Dev) (b : Memory) (cause : Nat) : Dev × Memory :=
  (d.oxOnly cause, if d.ox.step = .off ∨ d.ox.step = .oxOnly then b else [])

/-- A condition that only the running main domains can meet. -/
def mainsCause (d : Dev) (b : Memory) (cause : Nat) : Dev × Memory :=
  if d.mainsUp ∧ d.get Reg.OXA_STATE_DEPTH ≠ 2 then d.oxOnlyBuf b cause else (d, b)

/-! ### Rails and clocks -/

/-- Steps 1 to 3 of R66, from VAON within tolerance. -/
def powerUp (d : Dev) (trims : List (BitVec 10)) : Dev :=
  if d.ox.step ≠ .off then d
  else
    let d := d.modOx fun o => { o with step := .mainEn, tox := 0, acc := 0, mainEn := true, trims := Vector.ofFn fun i => trims.getD i.val 0 }
    let d := d.set Reg.OXA_STATE_TRIM_DONE 1
    (List.finRange 16).foldl (fun d m => d.set (Reg.OXA_MECH_TRIMMED m) 1) d

/-- OX_MAIN_PG is asserted (R22, R66 step 4): the whole-device reset, unless the RECOVER that began this start performed it. -/
def mainPgAssert (d : Dev) (b : Memory) : Dev × Memory :=
  if d.ox.step ≠ .mainEn then (d, b)
  else
    let (d, b) := if d.get Reg.OXA_STATE_MODE = 2 then (d, b) else (d.wholeReset, [])
    (d.modOx fun o => { o with mainPg := true, step := .mainPg }, b)

/-- OX_MAIN_PG has not come within 50 ms (R66 step 3). -/
def mainPgTimeout (d : Dev) (b : Memory) : Dev × Memory := if d.ox.step = .mainEn then d.oxOnlyBuf b 1 else (d, b)

/-- OX_MAIN_PG is lost while OX_MAIN_EN is high (R54). -/
def mainPgLoss (d : Dev) (b : Memory) : Dev × Memory := if d.mainsUp then d.oxOnlyBuf b 1 else (d, b)

/-- VAON is lost (R57, R22): Ox starts again from nothing; fuses and flash stay. -/
def vaonLoss (d : Dev) : Dev :=
  { Dev.reset with
    free := d.free, out := d.out, sec := keptSec d.sec, bufx := { BufX.reset with candidates := d.bufx.candidates }, ports := d.ports.map portAfterReset, mech := d.mech.map (fun x => { MechX.reset with mch := { MchX.reset with discLevel := x.mch.discLevel } }) }

/-- The system PLL locks (R56, R66 step 4): device time resumes at the next tick edge. -/
def systemPllLock (d : Dev) : Dev :=
  if ¬ d.mainsUp ∨ d.ox.pllOn ∨ d.get Reg.OXA_STATE_DEPTH = 2 then d
  else d.modOx fun o => { o with pllWait := true, step := if o.step = .mainPg then .pll else o.step, clk := { o.clk with core := true, security := o.step == .mainPg } }

/-! ### Wake -/

/-- A wake source is seen; an enabled one ends DEEP_IDLE and wakes the system PLL and the core (R58, R59, R65). -/
def wake (d : Dev) (src : Nat) : Dev :=
  if ¬ d.up then d
  else
    let d := d.setBit Reg.OXA_WAKE_SRC_SRC src true
    if d.get Reg.OXA_STATE_DEPTH = 2 ∧ d.bit Reg.OXA_WAKE_EN_EN src then (d.set Reg.OXA_STATE_DEPTH 0).modCore fun c => { c with core := true } else d

/-- A mechanism event wakes the motor PWM domain of its mechanism as well (R59). -/
def wakeMech (d : Dev) (m : Mech) : Dev :=
  let w := d.wake 4
  if d.get Reg.OXA_STATE_DEPTH = 2 ∧ w.get Reg.OXA_STATE_DEPTH ≠ 2 then w.clkMotor m else w

/-! ### Ox inputs -/

/-- The motion comparator of `m` and the disc-present input as Ox times them (R89, R98, R106). -/
def oxTimers (d : Dev) (m : Mech) (i : OxInputs) : Dev :=
  let t := d.ox.tox
  let edge := decide (d.on (Reg.OXA_MECH_DISC m) ≠ i.disc)
  let d := d.modOx fun o =>
    { o with below2V := o.below2V.set m.val i.below2V, motionQuiet := if i.motion then o.motionQuiet.set m.val t else o.motionQuiet, discEdge := if edge then o.discEdge.set m.val t else o.discEdge }
  let d := d.modMch m fun x => { x with discLevel := i.disc }
  if ¬ i.disc then d.set (Reg.MCH_STATE_DISC m) 0
  else if d.ox.discEdge[m.val] + 200000000 ≤ t then d.set (Reg.MCH_STATE_DISC m) 1
  else d

/-- Whether the motor safe rule is in force for `m` (R66, R74, R83, R175). -/
def safeInForce (d : Dev) (m : Mech) : Bool := !d.up || d.mstate m == .off || d.mstate m == .safe

/-- Trim codes waiting for this frame take effect (R61, R69). -/
def applyTrims (d : Dev) (m : Mech) : Dev :=
  d.modOx fun o => (List.finRange 5).foldl (fun o c =>
    let k : Fin 80 := ⟨5 * m.val + c.val, by omega⟩
    match o.trimNext[k.val] with
    | some v => { o with trims := o.trims.set k.val v, trimNext := o.trimNext.set k.val none }
    | none => o) o

/-- The comparator states of a frame as OXA_MECHm.BUS shows them. -/
def busBits (i : OxInputs) : Nat := b2n i.regen + 2 * b2n i.short + 4 * b2n i.gatesOff + 8 * b2n i.uv

/-- Whether a frame shows an input of `m` otherwise than the last one (R59). -/
def oxChanged (d : Dev) (m : Mech) (i : OxInputs) : Bool :=
  d.get (Reg.OXA_MECH_BUS m) != busBits i || d.on (Reg.OXA_MECH_MOTION m) != i.motion ||
    d.get (Reg.OXA_MECH_LIMIT m) != b2n i.limIn + 2 * b2n i.limOut || d.on (Reg.OXA_MECH_PSTAGE_FAULT m) != i.psFault ||
    d.on (Reg.OXA_MECH_DISC m) != i.disc

/-- The raw limit switches (R216, R218): the times of their last changes; a switch that chattered and has been stable for 10 ms is trusted
again. -/
def limitEdges (d : Dev) (m : Mech) (i : OxInputs) : Dev :=
  let raw := d.get (Reg.OXA_MECH_LIMIT m)
  let t := d.ox.tox
  let e := d.ox.limEdges[m.val]
  let ci := decide (tbit raw 0 ≠ i.limIn)
  let co := decide (tbit raw 1 ≠ i.limOut)
  let stable (l : List Nat) : Bool := decide (10000000 ≤ t - l.headD 0)
  let d := d.modOx fun o => { o with limEdges := o.limEdges.set m.val (if ci then (t :: e.1).take 17 else e.1, if co then (t :: e.2).take 17 else e.2) }
  d.modSld m fun x => { x with chatter := #v[x.chatter[0] && !(ci && stable e.1), x.chatter[1] && !(co && stable e.2)] }

/-- One 250 ns frame of mechanism `m` (R61, R65, R83); SPN_STATE.UV follows the comparator (R193). An input that
changes in DEEP_IDLE is a mechanism event (R59). -/
def oxFrame (d : Dev) (m : Mech) (i : OxInputs) : Dev :=
  if d.ox.step = .off then d
  else
    let d := if d.get Reg.OXA_STATE_DEPTH = 2 ∧ d.oxChanged m i then d.wakeMech m else d
    let d := ((d.applyTrims m).oxTimers m i).limitEdges m i
    let d := d.setAll [(Reg.OXA_MECH_BUS m, busBits i),
      (Reg.OXA_MECH_MOTION m, b2n i.motion), (Reg.OXA_MECH_LIMIT m, b2n i.limIn + 2 * b2n i.limOut),
      (Reg.OXA_MECH_PSTAGE_FAULT m, b2n i.psFault), (Reg.OXA_MECH_DISC m, b2n i.disc)]
    let d := if d.up ∧ ¬ d.mechInReset m then d.setB (Reg.SPN_STATE_UV m) i.uv else d
    if d.safeInForce m then d.motorSafe m i.gatesOff i.regen i.below2V else d

/-- A trim re-check (R61): the code takes effect at the comparator's next frame. -/
def trimRecheck (d : Dev) (m : Mech) (c : Fin 5) (code : BitVec 10) : Dev :=
  if d.ox.step = .off then d
  else d.modOx fun o => { o with trimNext := o.trimNext.set (5 * m.val + c.val) (some code) (by omega) }

/-! ### Sleep -/

/-- Index of a wake source in OXA_WAKE_SRC. -/
def wakeBit : WakeSrc → Nat
  | .portA => 0 | .portB => 1 | .smbus => 2 | .timer => 3 | .mechEvent => 4 | .temperature => 5

/-- A port is in L1.2 or has its link down (R58). -/
def portIdle (d : Dev) (p : Port) : Bool := !(d.px p).linkUp || (d.px p).linkPm == .l12

/-- Whether the conditions of R58 that registers and state show hold. -/
def deepIdleOk (d : Dev) : Bool :=
  d.on Reg.OXA_PCTL_DEEP_EN &&
  (List.finRange 16).all (fun m => d.mstate m == .off || d.mstate m == .parked) &&
  (List.finRange 24).all (fun c => (d.get (Reg.BUF_CH_STAT_STATE c) != 2 && d.get (Reg.BUF_CH_STAT_STATE c) != 3) || d.on (Reg.BUF_CH_STAT_SR c)) &&
  d.portIdle .A && d.portIdle .B && d.slots.isEmpty && !d.on Reg.DMA_RUN_LO_RUN && !d.on Reg.DMA_RUN_HI_RUN

/-- DEEP_IDLE (R58): the system PLL stops, with it every domain that it feeds, and T_OX carries time. -/
def deepIdle (d : Dev) : Dev :=
  if d.up ∧ d.ox.pllOn ∧ d.get Reg.OXA_STATE_DEPTH ≠ 2 ∧ d.deepIdleOk then
    (d.set Reg.OXA_STATE_DEPTH 2).modOx fun o => { o with pllOn := false, pllWait := false, acc := 0, clk := ⟨false, false, false, false⟩ }
  else d

/-- OXA_TIMER (R59, R65): 0 in both words disables it. -/
def timerMatch (d : Dev) : Dev :=
  let t := d.get Reg.OXA_TIMER_LO_TIMER + 2 ^ 32 * d.get Reg.OXA_TIMER_HI_TIMER
  if t ≠ 0 ∧ t ≤ d.now then d.wake 3 else d

/-! ### Temperature -/

/-- The sensor with the highest reading among those not marked BAD. -/
def hotSensor (d : Dev) : Nat :=
  (((List.finRange 8).find? (fun k => !d.on (Reg.OXA_TEMP_BAD k) && d.hottest == some (d.getS (Reg.OXA_TEMP_TEMP k)))).map Fin.val).getD 0

/-- The warning of R62. -/
def tempWarn (d : Dev) (t : Int) : Dev :=
  let w : Int := d.get Reg.OXA_TEMP_CFG_WARN
  if d.ox.warnArmed ∧ 16 * w ≤ t then
    let d := d.modOx fun o => { o with warnArmed := false }
    ((d.elogAdd 0x62 0x0A 0x0A01 [(16, 1, d.hottestC), (17, 1, d.hotSensor)]).fireEvt 145).wake 5
  else if t < 16 * (w - 5) then d.modOx fun o => { o with warnArmed := true }
  else d

/-- How far throttle step `n` falls at reading `t` (R62). -/
def throttleFall (thr t : Int) : Nat → Nat
  | 0 => 0
  | n + 1 => if t < 16 * (thr + (n + 1) - 5) then throttleFall thr t n else n + 1

/-- The throttle step of R62. -/
def tempThrottle (d : Dev) (t : Int) : Dev :=
  let thr : Int := d.get Reg.OXA_TEMP_CFG_THROTTLE
  let up := (clampInt 0 10 (t / 16 - thr)).toNat
  d.modOx fun o => { o with throttle := throttleFall thr t (max o.throttle up) }

/-- The reading of sensor `k` from its conversion `t`: less the sensor's offset, of which one found since the last conversion takes effect
now (R69), within the register. -/
def tempValue (d : Dev) (k : Fin 8) (t : BitVec 16) : Int := sat16 (t.toInt - (d.ox.tempNext[k.val]).getD d.ox.tempOfs[k.val])

/-- A conversion of sensor `k` (R62, R69): warning, throttle and trip. -/
def temperature (d : Dev) (b : Memory) (k : Fin 8) (t : BitVec 16) : Dev × Memory :=
  if d.ox.step = .off then (d, b)
  else
    let trip : Int := 16 * (d.get Reg.OXA_TEMP_CFG_TRIP : Int)
    let before := match d.hottest with
      | some h => decide (trip ≤ h)
      | none => false
    let v := d.tempValue k t
    let d := d.modOx fun o => { o with tempOfs := o.tempOfs.set k.val ((o.tempNext[k.val]).getD o.tempOfs[k.val]), tempNext := o.tempNext.set k.val none }
    let d := d.setS (Reg.OXA_TEMP_TEMP k) v
    match d.hottest with
    | none => (d, b)
    | some h =>
      let d := (d.tempWarn h).tempThrottle h
      if decide (trip ≤ h) && !before then d.oxOnlyBuf b 2 else (d, b)

/-! ### SMBus -/

/-- A reply on the bus. -/
def smbReply (d : Dev) (l : List Byte) : Dev := d.modOx fun o => { o with smbReply := some l }

/-- A transaction with a wrong PEC (R64). -/
def smbPec (d : Dev) (cmd : Nat) (f : SmbFrame) : Dev :=
  ((d.count Reg.OXA_SMB_STAT_PEC_ERR).vlogAdd 0x12 0x1002 0 [(0, 1, cmd), (1, 1, f.pecRx.toNat), (2, 1, f.pecExp.toNat)]).modOx
    fun o => { o with smbReply := none }

/-- A command discarded for its length or value (R64). -/
def smbBad (d : Dev) (cmd : Nat) (f : SmbFrame) : Dev :=
  ((d.count Reg.OXA_SMB_STAT_BAD_CMD).vlogAdd 0x12 0x1003 0 [(0, 1, cmd), (1, 1, f.count), (2, 1, (f.data.headD 0).toNat)]).modOx
    fun o => { o with smbReply := none }

/-- A command that Ox serves: nothing before VAON; the PEC first (R64). -/
def smb (d : Dev) (cmd : Nat) (f : SmbFrame) (act : Dev → Dev) : Dev :=
  if d.ox.step = .off then d
  else if f.pecRx ≠ f.pecExp then d.smbPec cmd f
  else act d

/-- As `smb`, for a command that may enter the Ox-only state or reset the device. -/
def smbBuf (d : Dev) (b : Memory) (cmd : Nat) (f : SmbFrame) (act : Dev → Dev × Memory) : Dev × Memory :=
  if d.ox.step = .off then (d, b)
  else if f.pecRx ≠ f.pecExp then (d.smbPec cmd f, b)
  else act d

/-- Whether a Write Byte carries the value of R63. -/
def smbValue (f : SmbFrame) (v : Byte) : Bool := f.count == 1 && f.data == [v]

/-- The mask of the mechanisms that satisfy a test; none while the main domains are down. -/
def mechMask (d : Dev) (ok : MState → Bool) : Nat :=
  if d.up then (List.finRange 16).foldl (fun n m => if ok (d.mstate m) then n + 2 ^ m.val else n) 0 else 0

/-- GCTL_IMG_STAT.STATE as Ox last knew it (R63). -/
def imgKnown (d : Dev) : Nat := if d.mainsUp then d.get Reg.GCTL_IMG_STAT_STATE else d.ox.imgState

/-- The 16 bytes of STATUS (R63). -/
def statusBytes (d : Dev) : List Byte :=
  fieldBytes 16 [(0, 1, d.get Reg.OXA_STATE_MODE), (1, 1, d.get Reg.OXA_STATE_CAUSE), (2, 1, d.imgKnown), (3, 1, d.hottestC),
    (4, 2, d.mechMask (fun s => s == .fault)), (6, 2, d.mechMask (fun s => s != .off && s != .parked)),
    (8, 1, b2n d.ox.recoverRefused)]

/-- The eight readings of TEMPS (R63). -/
def tempsBytes (d : Dev) : List Byte := (List.finRange 8).flatMap (fun k => leBytes 2 (d.get (Reg.OXA_TEMP_TEMP k)))

/-- The bytes of a log chunk (R63). -/
def logChunk (d : Dev) (log pos chunk : Nat) : List Byte :=
  if log = 0 then ((ringBytes 64 pos (d.elog.entries.map (fun e => (e.seq, ebytes e)))).drop (32 * chunk)).take 32
  else ringBytes 32 pos (d.vlog.entries.map (fun e => (e.seq, vbytes e)))

/-- LOG_READ (R63, R64). -/
def smbLogRead (d : Dev) (f : SmbFrame) : Dev := d.smb 4 f fun d =>
  let log := (f.data.getD 0 0).toNat
  let chunk := (f.data.getD 2 0).toNat
  if f.count ≠ 3 ∨ f.data.length ≠ 3 ∨ 1 < log ∨ (if log = 0 then 1 else 0) < chunk then (d.smbBad 4 f).smbReply []
  else d.smbReply (d.logChunk log (f.data.getD 1 0).toNat chunk)

/-- Whether the temperature admits a RECOVER (R85): the highest reading is at least 10 °C below TRIP. -/
def recoverCool (d : Dev) : Bool := match d.hottest with
  | some t => decide (t ≤ 16 * ((d.get Reg.OXA_TEMP_CFG_TRIP : Int) - 10))
  | none => true

/-- RECOVER (R85, R81): power-up restarts from step 3 after a whole-device reset, or the command is refused and logged. -/
def smbRecover (d : Dev) (b : Memory) (f : SmbFrame) : Dev × Memory := d.smbBuf b 0x11 f fun d =>
  if ¬ smbValue f 0x5A then (d.smbBad 0x11 f, b)
  else if d.ox.step ≠ .oxOnly then (d.vlogAdd 0x12 0x1006 0 [(0, 1, d.get Reg.OXA_STATE_MODE)], b)
  else if d.recoverCool then
    let d := d.wholeReset.set Reg.OXA_STATE_MODE 2
    let d := d.modOx fun o => { o with step := .mainEn, mainEn := true, recoverRefused := false }
    (d.logMode 1 2 (d.get Reg.OXA_STATE_CAUSE), [])
  else
    let d := d.modOx fun o => { o with recoverRefused := true }
    (d.vlogAdd 0x12 0x1005 0 [(0, 1, d.get Reg.OXA_STATE_CAUSE), (1, 1, d.hottestC)], b)

/-- ENTER_OX_ONLY (R63). -/
def smbEnter (d : Dev) (b : Memory) (f : SmbFrame) : Dev × Memory := d.smbBuf b 0x10 f fun d =>
  if smbValue f 0xA5 then d.oxOnlyBuf b 6 else (d.smbBad 0x10 f, b)

/-- WAKE (R63): DEEP_IDLE ends. -/
def smbWake (d : Dev) (f : SmbFrame) : Dev := d.smb 0x12 f fun d => if smbValue f 1 then d.wake 2 else d.smbBad 0x12 f

/-- A command byte not in R63 (R64). -/
def smbUnknown (d : Dev) (cmd : Byte) : Dev :=
  if d.ox.step = .off ∨ cmd.toNat ∈ [1, 2, 3, 4, 5, 0x10, 0x11, 0x12] then d
  else (d.vlogAdd 0x12 0x1001 5 [(0, 1, cmd.toNat)]).emit .smbNack

/-- The clock is held low past the timeout (R507). -/
def smbTimeout (d : Dev) (cmd : Option Byte) : Dev :=
  if d.ox.step = .off then d
  else d.vlogAdd 0x12 0x1004 0 [(0, 1, match cmd with
    | some c => c.toNat
    | none => 0xFF)]

end Dev

/-! ### Meanings -/

/-- POWER_UP (R66). -/
def execPowerUp (trims : List (BitVec 10)) (s : State) : Host.Outcome State Fault Refusal := liftDev (fun d => d.powerUp trims) s
/-- MAIN_PG_ASSERT (R22). -/
def execMainPgAssert (s : State) : Host.Outcome State Fault Refusal := liftBuf Dev.mainPgAssert s
/-- MAIN_PG_TIMEOUT (R66). -/
def execMainPgTimeout (s : State) : Host.Outcome State Fault Refusal := liftBuf Dev.mainPgTimeout s
/-- MAIN_PG_LOSS (R54). -/
def execMainPgLoss (s : State) : Host.Outcome State Fault Refusal := liftBuf Dev.mainPgLoss s
/-- VAON_LOSS (R57). -/
def execVaonLoss (s : State) : Host.Outcome State Fault Refusal := liftBuf (fun d _ => (d.vaonLoss, [])) s
/-- SYSTEM_PLL_LOCK (R56). -/
def execSystemPllLock (s : State) : Host.Outcome State Fault Refusal := liftDev Dev.systemPllLock s
/-- PLL_LOCK_LOSS_TIMEOUT (R81). -/
def execPllLockLossTimeout (s : State) : Host.Outcome State Fault Refusal := liftBuf (fun d b => d.mainsCause b 3) s
/-- HEARTBEAT_TIMEOUT (R81). -/
def execHeartbeatTimeout (s : State) : Host.Outcome State Fault Refusal := liftBuf (fun d b => d.mainsCause b 5) s
/-- UNPARTITIONED_UE (R81). -/
def execUnpartitionedUe (s : State) : Host.Outcome State Fault Refusal := liftBuf (fun d b => d.mainsCause b 7) s
/-- OX_FRAME (R83). -/
def execOxFrame (m : Mech) (i : OxInputs) (s : State) : Host.Outcome State Fault Refusal := liftDev (fun d => d.oxFrame m i) s
/-- COMPARATOR_TRIM_RECHECK (R61). -/
def execComparatorTrimRecheck (m : Mech) (c : Fin 5) (code : BitVec 10) (s : State) : Host.Outcome State Fault Refusal :=
  liftDev (fun d => d.trimRecheck m c code) s
/-- TEMPERATURE_READING (R62). -/
def execTemperatureReading (k : Fin 8) (t : BitVec 16) (s : State) : Host.Outcome State Fault Refusal :=
  liftBuf (fun d b => d.temperature b k t) s
/-- SMB_STATUS (R63). -/
def execSmbStatus (f : SmbFrame) (s : State) : Host.Outcome State Fault Refusal :=
  liftDev (fun d => d.smb 1 f fun d => d.smbReply d.statusBytes) s
/-- SMB_TIME (R63). -/
def execSmbTime (f : SmbFrame) (s : State) : Host.Outcome State Fault Refusal :=
  liftDev (fun d => d.smb 2 f fun d => d.smbReply (leBytes 8 d.ox.tox)) s
/-- SMB_TEMPS (R63). -/
def execSmbTemps (f : SmbFrame) (s : State) : Host.Outcome State Fault Refusal :=
  liftDev (fun d => d.smb 3 f fun d => d.smbReply d.tempsBytes) s
/-- SMB_LOG_READ (R63). -/
def execSmbLogRead (f : SmbFrame) (s : State) : Host.Outcome State Fault Refusal := liftDev (fun d => d.smbLogRead f) s
/-- SMB_HEALTH (R63). -/
def execSmbHealth (f : SmbFrame) (s : State) : Host.Outcome State Fault Refusal :=
  liftDev (fun d => d.smb 5 f fun d => d.smbReply (d.health.take 32)) s
/-- SMB_ENTER_OX_ONLY (R63). -/
def execSmbEnterOxOnly (f : SmbFrame) (s : State) : Host.Outcome State Fault Refusal := liftBuf (fun d b => d.smbEnter b f) s
/-- SMB_RECOVER (R85). -/
def execSmbRecover (f : SmbFrame) (s : State) : Host.Outcome State Fault Refusal := liftBuf (fun d b => d.smbRecover b f) s
/-- SMB_WAKE (R63). -/
def execSmbWake (f : SmbFrame) (s : State) : Host.Outcome State Fault Refusal := liftDev (fun d => d.smbWake f) s
/-- SMB_UNKNOWN_COMMAND (R64). -/
def execSmbUnknownCommand (cmd : Byte) (s : State) : Host.Outcome State Fault Refusal := liftDev (fun d => d.smbUnknown cmd) s
/-- SMB_CLOCK_TIMEOUT (R507). -/
def execSmbClockTimeout (cmd : Option Byte) (s : State) : Host.Outcome State Fault Refusal := liftDev (fun d => d.smbTimeout cmd) s
/-- DEEP_IDLE_ENTRY (R58). -/
def execDeepIdleEntry (s : State) : Host.Outcome State Fault Refusal := liftDev Dev.deepIdle s
/-- WAKE_EVENT (R59). -/
def execWakeEvent (src : WakeSrc) (m : Mech) (s : State) : Host.Outcome State Fault Refusal :=
  liftDev (fun d => if src = .mechEvent then d.wakeMech m else d.wake (Dev.wakeBit src)) s
/-- OXA_TIMER_MATCH (R59). -/
def execOxaTimerMatch (s : State) : Host.Outcome State Fault Refusal := liftDev Dev.timerMatch s
/-- CRYSTAL_VALID (R65). -/
def execCrystalValid (s : State) : Host.Outcome State Fault Refusal :=
  liftDev (fun d => if d.ox.step = .off then d else d.set Reg.OXA_STATE_XTAL_OK 1) s
/-- CRYSTAL_STOP (R65): T_OX advances from the RC oscillator again. -/
def execCrystalStop (s : State) : Host.Outcome State Fault Refusal :=
  liftDev (fun d => if d.ox.step = .off then d else d.set Reg.OXA_STATE_XTAL_OK 0) s

end Sys2Proof.Machine
end

