-- ==== Sys2Proof/Machine/Clocks.lean ====
section
/-! DEFINITION. The clock domains of R55: what there is, what feeds each and at which frequency, and which of them run (R55–R59). -/
namespace Sys2Proof.Machine

/-- The 384 clock domains of R55. -/
inductive ClockDomain where
  | beam (m : Mech) (b : Beam)      -- timing of one global beam
  | lane (m : Mech) (k : Fin 4)     -- Head Link lane
  | buffer (c : Chan)
  | pcie (p : Port)
  | mule (m : Mech)
  | motor (m : Mech)                -- SPN and SLD
  | core
  | service
  | security
  | calibration
  | oxFast
  | oxSlow
deriving DecidableEq, Repr

/-- The clock sources, with the recovered clock of a beam. -/
inductive ClockSource where
  | beamRecovered (m : Mech) (b : Beam) | lanePll (m : Mech) | systemPll | portReference (p : Port) | rcOscillator | alwaysOnCrystal
deriving DecidableEq, Repr

namespace ClockDomain

/-- Every domain. -/
def all : List ClockDomain :=
  (List.finRange 16).flatMap (fun m => (List.finRange 16).map (beam m)) ++ (List.finRange 16).flatMap (fun m => (List.finRange 4).map (lane m)) ++
    (List.finRange 24).map buffer ++ [pcie .A, pcie .B] ++ (List.finRange 16).map mule ++ (List.finRange 16).map motor ++
    [core, service, security, calibration, oxFast, oxSlow]

/-- What feeds a domain (R55). -/
def source : ClockDomain → ClockSource
  | beam m b => .beamRecovered m b
  | lane m _ => .lanePll m
  | pcie p => .portReference p
  | oxFast => .rcOscillator
  | oxSlow => .alwaysOnCrystal
  | buffer _ | mule _ | motor _ | core | service | security | calibration => .systemPll

/-- Frequency of a domain in Hz (R55); that of a beam is its channel bit rate `rate` divided by 16. -/
def hz (rate : Nat) : ClockDomain → Nat
  | beam _ _ => rate / 16
  | lane _ _ => 830078125
  | buffer _ => 533250000
  | pcie _ => 1000000000
  | mule _ => 800000000
  | motor _ => 200000000
  | core => 1000000000
  | service => 1600000000
  | security => 400000000
  | calibration => 200000000
  | oxFast => 4000000
  | oxSlow => 32768

end ClockDomain

namespace Dev

/-- Whether a channel serves requests: active, or being retired (R331–R333). -/
def chanOn (d : Dev) (c : Chan) : Bool := d.get (Reg.BUF_CH_STAT_STATE c) == 2 || d.get (Reg.BUF_CH_STAT_STATE c) == 3

/-- Whether a domain's clock runs: its source runs and its gate is open. A buffer channel is gated in self-refresh, a port with its link
down or in an L1 substate (R58, R59). -/
def clockRuns (d : Dev) : ClockDomain → Bool
  | .beam m b => d.mainsUp && tbit (d.mx m).clk.beams b.val
  | .lane m k => d.mainsUp && tbit (d.mx m).clk.lanes k.val
  | .buffer c => d.ox.pllOn && d.chanOn c && !d.on (Reg.BUF_CH_STAT_SR c)
  | .pcie p => d.mainsUp && (d.px p).linkUp && ((d.px p).linkPm == .l0 || (d.px p).linkPm == .l1)
  | .mule m => d.ox.pllOn && (d.mx m).clk.mule
  | .motor m => d.ox.pllOn && (d.mx m).clk.motor
  | .core => d.ox.pllOn && d.ox.clk.core
  | .service => d.ox.pllOn && d.ox.clk.service
  | .security => d.ox.pllOn && d.ox.clk.security
  | .calibration => d.ox.pllOn && d.ox.clk.calib
  | .oxFast => d.ox.step != .off
  | .oxSlow => d.ox.step != .off && d.on Reg.OXA_STATE_XTAL_OK

/-- Whether nothing waits for the device: IDLE (R58, R65). The spec does not say which work counts: a command in a slot or in progress at a
mechanism, a media request, a mechanism that is not OFF or PARKED, a running DMA channel (DESIGN CHOICE, log entry 41). -/
def nothingToDo (d : Dev) : Bool :=
  (List.finRange 16).all (fun m => (d.mstate m == .off || d.mstate m == .parked) && !d.cmdBusy m && (d.mx m).mch.held.isEmpty) &&
    d.slots.isEmpty && !d.on Reg.DMA_RUN_LO_RUN && !d.on Reg.DMA_RUN_HI_RUN

/-- OXA_STATE.DEPTH as it reads (R65): IDLE while the system PLL runs and nothing waits for the device. -/
def depthNow (d : Dev) : Nat := if d.get Reg.OXA_STATE_DEPTH = 2 then 2 else b2n (d.up && d.nothingToDo)

/-- A host access in DEEP_IDLE wakes the device as its port does (R59). -/
def wakePort (d : Dev) (p : Port) : Dev :=
  if d.get Reg.OXA_STATE_DEPTH = 2 then (d.modPort p fun x => { x with linkPm := .l0 }).wake p.idx else d

/-- The service processors are needed: their clock runs (R59). -/
def wakeService (d : Dev) : Dev := d.modCore fun c => { c with service := true }

/-- The security domain runs or is gated. -/
def clkSecurity (d : Dev) (b : Bool) : Dev := d.modCore fun c => { c with security := b }

end Dev
end Sys2Proof.Machine
end

