-- ==== Sys2Proof/Machine/MetaCache.lean ====
section
/-! DEFINITION. The metadata cache (R432–R444): requests, fills and their waiters, allocation and eviction, maintenance, the loading of
the Mules' banks into locked lines (R46, R49, R437), and the accesses of the device's own engines. -/
namespace Sys2Proof.Machine
namespace Dev

def modMdc (d : Dev) (f : MdcX → MdcX) : Dev := { d with mdc := f d.mdc }

/-- The set of a line (R433). -/
def setOf (line : Nat) : Nat := line / 128 % 4096

/-- `data` with `bs` written at offset `o`. -/
def patch (data : List Byte) (o : Nat) (bs : List Byte) : List Byte := data.take o ++ bs ++ data.drop (o + bs.length)

/-- Writes a line in place. -/
def setLine (d : Dev) (x : Line) : Dev :=
  d.modMdc fun c => { c with lines := c.lines.map (fun y => if y.addr = x.addr then x else y) }

/-- Drops a line. -/
def dropLine (d : Dev) (line : Nat) : Dev := d.modMdc fun c => { c with lines := c.lines.filter (fun y => decide (y.addr ≠ line)) }

/-- Writes bytes to the buffer. -/
def bufPut (d : Dev) (b : Memory) (a : Nat) (bs : List Byte) : Dev × Memory := ((d.unpoison a bs.length).touch a, b.writeBytes a bs)

/-- Writes a dirty line back. -/
def writeBack (d : Dev) (b : Memory) (x : Line) : Dev × Memory := if x.dirty then d.bufPut b x.addr x.data else (d, b)

/-- The miss register that holds the fill of a line. -/
def missOf (d : Dev) (line : Nat) : Option Miss := d.mdc.misses.find? (fun m => decide (m.line = line))

/-- Whether the buffer group of an address is IN_RESET. -/
def groupDown (d : Dev) (a : Nat) : Bool := d.inReset ⟨20 + d.groupOf a % 6, by omega⟩

/-- MDC_MISS_FULL: core cycles at 1 GHz while a miss waits for a register (R434). -/
def tickFull (d : Dev) : Dev :=
  let d := match d.mdc.fullSince with
    | some t => d.count Reg.MDC_MISS_FULL_CYCLES (d.now - t)
    | none => d
  d.modMdc fun c => { c with fullSince := if c.waiting = [] then none else some d.now }

/-- Publishes what the MDC registers show of the cache; the unlocked ways stop serving when the cache is disabled and the fills held
have completed (R442). -/
def syncMdc (d : Dev) : Dev :=
  let d := d.setAll [(Reg.MDC_LOCKED_LINES, (d.mdc.lines.filter (fun x => x.lock)).length), (Reg.MDC_STAT_MISS_USED, d.mdc.misses.length)]
  if ¬ d.on Reg.MDC_CTL_EN ∧ d.mdc.misses = [] then d.set Reg.MDC_STAT_ENABLED 0 else d

/-! ### Requests (R433–R436) -/

/-- A request that hits a valid line. -/
def cacheHit (d : Dev) (b : Memory) (r : MdcReq) (x : Line) : Dev × Memory :=
  let d := d.count Reg.MDC_HIT_HITS
  let d := if ¬ x.lock ∧ d.on Reg.MDC_STAT_STALE_RISK then d.count Reg.MDC_STALE_HITS_HITS else d
  let d := if x.prefetched then d.count Reg.MDC_PF_USED else d
  match r.data with
  | none => (d.setLine { x with prefetched := false }, b)
  | some bs =>
    let x := { x with prefetched := false, data := patch x.data (r.addr % 128) bs, dirty := !x.lock }
    if x.lock then (d.setLine x).bufPut b r.addr bs else (d.setLine x, b)

/-- A request that goes to the buffer directly (R442). -/
def direct (d : Dev) (b : Memory) (r : MdcReq) : Dev × Memory := match r.data with
  | none => (d.touch r.addr, b)
  | some bs => d.bufPut b r.addr bs

/-- A miss takes a register, and a prefetch may follow (R434, R435). -/
def takeMiss (d : Dev) (r : MdcReq) : Dev :=
  let l := lineOf r.addr
  let d := (d.modMdc fun c => { c with misses := c.misses ++ [⟨l, [r], [], false⟩] }).count Reg.MDC_MISS_MISSES
  if d.on Reg.MDC_CTL_PREFETCH ∧ d.findLine (l + 128) = none ∧ d.missOf (l + 128) = none ∧ d.mdc.misses.length + 8 ≤ 64 then
    (d.modMdc fun c => { c with misses := c.misses ++ [⟨l + 128, [], [], true⟩] }).count Reg.MDC_PF_ISSUED
  else d

/-- A metadata-class request within one line: it hits, merges, misses, waits or passes the cache by. While partition 19 is IN_RESET
only reads of locked lines are served, and every other request completes with PARTITION_RESET (R24, R74). -/
def demand (d : Dev) (b : Memory) (r : MdcReq) : Dev × Memory :=
  if d.inReset 19 then
    (if r.data.isNone ∧ (d.findLine (lineOf r.addr)).any Line.lock then d else d.emit (.partReply 19 true), b)
  else match d.findLine (lineOf r.addr) with
    | some x => if x.lock ∨ d.on Reg.MDC_STAT_ENABLED then d.cacheHit b r x else d.direct b r
    | none => match d.missOf (lineOf r.addr) with
      | some m =>
        let full := 16 ≤ m.waiters.length
        let d := d.modMdc fun c =>
          { c with misses := c.misses.map (fun y => if y.line ≠ m.line then y
              else if full then { y with later := y.later ++ [r] } else { y with waiters := y.waiters ++ [r] }) }
        (if full then d else d.count Reg.MDC_MERGE_MERGED, b)
      | none =>
        if ¬ d.on Reg.MDC_CTL_EN then d.direct b r
        else if 64 ≤ d.mdc.misses.length then (d.modMdc fun c => { c with waiting := c.waiting ++ [r] }, b)
        else (d.takeMiss r, b)

/-! ### Allocation and fills -/

/-- The unlocked ways in the order of the pointer `p` (R436). -/
def wayOrder (lw p : Nat) : List Nat := (List.range (16 - lw)).map (fun i => lw + (p - lw + i) % (16 - lw))

/-- Allocates an unlocked line (R436): the victim is written back when dirty. -/
def allocLine (d : Dev) (b : Memory) (l : Nat) (data : List Byte) (prefetch dirty : Bool) : Dev × Memory :=
  let lw := d.get Reg.MDC_STAT_LOCKED_WAYS
  let p := max lw (Sparse.get 0 d.mdc.ptr (setOf l))
  let mine := d.mdc.lines.filter (fun x => decide (setOf x.addr = setOf l))
  let w := ((wayOrder lw p).find? (fun w => !mine.any (fun x => decide (x.way = w)))).getD p
  let (d, b) := match mine.find? (fun x => decide (x.way = w)) with
    | some v =>
      let (d, b) := d.writeBack b v
      ((if v.dirty then d.count Reg.MDC_EVICT_DIRTY else d).dropLine v.addr, b)
    | none => (d, b)
  (d.modMdc fun c =>
    { c with
      lines := ⟨l, w, data, dirty, false, prefetch⟩ :: c.lines
      ptr := Sparse.put 0 c.ptr (setOf l) (lw + (w + 1 - lw) % (16 - lw)) }, b)

/-- A waiter receives the filled line; a write merges into it (R436). -/
def serveWaiter (d : Dev) (l : Nat) (r : MdcReq) : Dev := match r.data, d.findLine l with
  | some bs, some x => d.setLine { x with data := patch x.data (r.addr % 128) bs, dirty := true }
  | _, _ => d

/-- The misses that wait take the registers that are free. -/
def retryMisses (d : Dev) (b : Memory) : (fuel : Nat) → Dev × Memory
  | 0 => (d, b)
  | n + 1 => match d.mdc.waiting with
    | [] => (d, b)
    | r :: t =>
      if 64 ≤ d.mdc.misses.length then (d, b)
      else
        let x := (d.modMdc fun c => { c with waiting := t }).demand b r
        retryMisses x.1 x.2 n

/-! ### Maintenance (R438–R440) -/

/-- A line of the host's operation counts as acted on or as skipped. -/
def maintDone (d : Dev) : Dev := d.count Reg.MDC_MAINT_DONE_DONE
def maintSkip (d : Dev) : Dev := d.count Reg.MDC_MAINT_SKIP_SKIPPED

/-- The first locked way of a set whose LOCK is 0, but for an unlocked line that stands above the locked ways. -/
def lockPos (d : Dev) (l : Nat) : Option Nat :=
  (List.range (d.get Reg.MDC_STAT_LOCKED_WAYS)).find? (fun w => !d.mdc.lines.any (fun x => decide (setOf x.addr = setOf l ∧ x.way = w)))

/-- A maintenance operation acts on one line (R438). -/
def actLine (d : Dev) (b : Memory) (op : Nat) (force : Bool) (l : Nat) : Dev × Memory :=
  match d.findLine l with
  | some x =>
    if x.lock then
      if op = 1 ∨ op = 4 then (d, b)
      else if force ∧ op ≠ 0 then ((d.dropLine l).maintDone, b)
      else (d.maintSkip, b)
    else if op = 0 then ((d.setLine { x with data := List.replicate 128 0, dirty := true, prefetched := false }).maintDone, b)
    else if op = 1 then
      let (d, b) := d.writeBack b x
      ((d.setLine { x with dirty := false }).maintDone, b)
    else if op = 3 then
      let (d, b) := d.writeBack b x
      ((d.dropLine l).maintDone, b)
    else if op = 4 then
      match d.lockPos l with
      | none => (d.maintSkip, b)
      | some w =>
        let (d, b) := d.writeBack b x
        ((d.setLine { x with way := w, dirty := false, lock := true, prefetched := false }).maintDone, b)
    else (((if x.dirty then d.count Reg.MDC_DISCARD_LINES else d).dropLine l).maintDone, b)
  | none =>
    if op = 0 then
      let (d, b) := d.allocLine b l (List.replicate 128 0) false true
      (d.maintDone, b)
    else if op = 4 then
      match d.lockPos l with
      | none => (d.maintSkip, b)
      | some w =>
        if d.poisoned l 128 then (d.maintSkip, b)
        else (((d.modMdc fun c => { c with lines := ⟨l, w, b.readBytes l 128, false, true, false⟩ :: c.lines }).touch l).maintDone, b)
    else (d, b)

/-- A fill completes (R434–R436, R441): the line is allocated unless its data is poisoned, its waiters are served, then those that waited
for the fill and for a register; a maintenance operation deferred for the line acts last (R440). A fill from a group IN_RESET waits. -/
def fillDone (d : Dev) (b : Memory) (l : Nat) : Dev × Memory := match d.missOf l with
  | none => (d, b)
  | some m =>
    if d.groupDown l then (d, b)
    else
      let d := (d.touch l).modMdc fun c => { c with misses := c.misses.filter (fun y => decide (y.line ≠ l)) }
      let (d, b) := if d.poisoned l 128 then (d, b)
        else
          let (d, b) := d.allocLine b l (b.readBytes l 128) m.prefetch false
          (m.waiters.foldl (fun d r => d.serveWaiter l r) d, b)
      let (d, b) := m.later.foldl (fun x r => x.1.demand x.2 r) (d, b)
      let (d, b) := d.tickFull.retryMisses b (d.mdc.waiting.length + 1)
      let (d, b) := match d.mdc.maint with
        | some x =>
          if x.deferred.contains l then
            (d.modMdc fun c => { c with maint := some { x with deferred := x.deferred.filter (· ≠ l) } }).actLine b x.op x.force l
          else (d, b)
        | none => (d, b)
      (d.tickFull.syncMdc, b)

/-- Whether the MDC block takes register accesses; a discarded write is logged (R72, R510). -/
def mdcOpen (d : Dev) : Bool := d.up && !d.inReset 19

def mdcClosed (d : Dev) (off : Nat) : Dev := if d.up then d.vlogAdd 0x14 0x0E02 0 [(0, 4, off), (4, 1, 19), (5, 1, 1)] else d

/-- MDC_MAINT_ADDR. -/
def maintAddr (d : Dev) : Nat := lineOf (d.get Reg.MDC_MAINT_ADDR_LO_ADDR + 4294967296 * d.get Reg.MDC_MAINT_ADDR_HI_ADDR)

/-- The lines on which an operation acts: by address, by range, or every valid line and every fill held; absent lines only where the
operation acts on them. -/
def maintLines (d : Dev) (op : Nat) : List Nat :=
  let a := d.maintAddr
  let here := d.mdc.lines.map (fun x => x.addr) ++ d.mdc.misses.map (fun x => x.line)
  if op = 5 then here
  else if ¬ d.on Reg.MDC_MAINT_CMD_RANGE then [a]
  else
    let n := d.get Reg.MDC_MAINT_LEN_LEN
    if op = 0 ∨ op = 4 then (List.range n).map (fun i => a + 128 * i)
    else here.filter (fun l => decide (a ≤ l ∧ l < a + 128 * n))

/-- Holds the fills that LOCK_LOAD waits for while their group is IN_RESET (R441). -/
def holdFills (d : Dev) (ls : List Nat) : Dev :=
  ls.foldl (fun d l => if d.groupDown l ∧ d.findLine l = none ∧ d.missOf l = none ∧ d.mdc.misses.length < 64 then
    d.modMdc fun c => { c with misses := c.misses ++ [⟨l, [], [], false⟩] } else d) d

/-- A GO of the maintenance engine (R438, R439): each line with no fill held is acted on now, the others after their fills. -/
def maintGo (d : Dev) (b : Memory) (op : Nat) : Dev × Memory :=
  if ¬ d.mdcOpen then (d.mdcClosed 0x200014, b)
  else if d.get Reg.MDC_MAINT_STAT_RESULT = 1 then (d.vlogAdd 0x14 0x0B01 0, b)
  else
    let d := d.set Reg.MDC_MAINT_CMD_OP op
    if 5 < op then (d.set Reg.MDC_MAINT_STAT_RESULT 3, b)
    else
      let d := d.setAll [(Reg.MDC_MAINT_SKIP_SKIPPED, 0), (Reg.MDC_MAINT_DONE_DONE, 0)]
      if op ≠ 5 ∧ d.on Reg.MDC_MAINT_CMD_RANGE ∧ d.get Reg.MDC_MAINT_LEN_LEN = 0 then (d.set Reg.MDC_MAINT_STAT_RESULT 2, b)
      else
        let ls := d.maintLines op
        let d := if op = 4 then d.holdFills ls else d
        let held := ls.filter (fun l => (d.missOf l).isSome)
        let force := d.on Reg.MDC_MAINT_CMD_FORCE
        let d := (d.modMdc fun c => { c with maint := some ⟨op, force, held⟩ }).set Reg.MDC_MAINT_STAT_RESULT 1
        let (d, b) := (ls.filter (fun l => !held.contains l)).foldl (fun x l => x.1.actLine x.2 op force l) (d, b)
        (d.syncMdc, b)

/-- MAINT_DONE (R439): INV_ALL also ends the risk of stale data (R443). -/
def maintEnd (d : Dev) : Dev := match d.mdc.maint with
  | some x =>
    if x.deferred = [] then
      let d := (d.modMdc fun c => { c with maint := none }).set Reg.MDC_MAINT_STAT_RESULT 2
      if x.op = 5 then (d.set Reg.MDC_STAT_STALE_RISK 0).modMdc fun c => { c with disabledValid := false } else d
    else d
  | none => d

/-- MDC_CTL.EN cleared (R442). -/
def mdcOff (d : Dev) : Dev :=
  if ¬ d.mdcOpen then d.mdcClosed 0x200000
  else if ¬ d.on Reg.MDC_CTL_EN then d
  else ((d.set Reg.MDC_CTL_EN 0).modMdc fun c => { c with disabledValid := c.lines.any (fun x => !x.lock) }).syncMdc

/-- MDC_CTL.EN set (R443). -/
def mdcOn (d : Dev) : Dev :=
  if ¬ d.mdcOpen then d.mdcClosed 0x200000
  else if d.on Reg.MDC_CTL_EN then d
  else
    let d := d.setAll [(Reg.MDC_CTL_EN, 1), (Reg.MDC_STAT_ENABLED, 1)]
    if d.mdc.disabledValid then d.set Reg.MDC_STAT_STALE_RISK 1 else d

/-- Writes back every dirty unlocked line, before an orderly reset (R71, R439). -/
def cleanAll (d : Dev) (b : Memory) : Dev × Memory :=
  let (e, b) := d.mdc.lines.foldl (fun x l => x.1.writeBack x.2 l) (d, b)
  (e.modMdc fun c => { c with lines := c.lines.map (fun x => { x with dirty := false }) }, b)

/-! ### Accesses of the device's own engines -/

/-- The part of `n` bytes from `a` that lies in each line. -/
def lineParts (a n : Nat) : List (Nat × Nat) :=
  (List.range ((a + n + 127) / 128 - a / 128)).map (fun i =>
    let lo := max a (lineOf a + 128 * i)
    (lo, min (a + n) (lineOf a + 128 * i + 128) - lo))

/-- Whether an access cannot complete: its line's group or partition 19 is IN_RESET, but for reads of locked lines (R74). -/
def metaBlocked (d : Dev) (wr : Bool) (a n : Nat) : Bool := (lineParts a n).any fun p =>
  match d.findLine (lineOf p.1) with
  | some x => d.inReset 19 && (wr || !x.lock)
  | none => d.inReset 19 || d.groupDown p.1

/-- One access within a line; a fill that it waits for completes. -/
def metaOne (d : Dev) (b : Memory) (r : MdcReq) : Dev × Memory :=
  let (d, b) := d.demand b r
  if (d.missOf (lineOf r.addr)).isSome then d.fillDone b (lineOf r.addr) else (d, b)

/-- What a reader of the cache sees of one byte. -/
def metaByte (d : Dev) (b : Memory) (a : Nat) : Byte := match d.findLine (lineOf a) with
  | some x => if x.lock ∨ d.on Reg.MDC_STAT_ENABLED then x.data.getD (a % 128) 0 else b.read a
  | none => b.read a

/-- Whether a reader of the cache meets poison: a line that is not cached and holds a poisoned burst (R441). -/
def metaPoison (d : Dev) (a n : Nat) : Bool := (lineParts a n).any fun p =>
  (d.findLine (lineOf p.1)).isNone && d.poisoned (lineOf p.1) 128

/-- Reads through the cache. -/
def metaRead (d : Dev) (b : Memory) (a n : Nat) : (Dev × Memory) × List Byte :=
  let x := (lineParts a n).foldl (fun x p => x.1.metaOne x.2 ⟨p.1, none⟩) (d, b)
  (x, (List.range n).map (fun i => x.1.metaByte x.2 (a + i)))

/-- Writes through the cache. -/
def metaWrite (d : Dev) (b : Memory) (a : Nat) (bs : List Byte) : Dev × Memory :=
  (lineParts a bs.length).foldl (fun x p => x.1.metaOne x.2 ⟨p.1, some ((bs.drop (p.1 - a)).take p.2)⟩) (d, b)

/-! ### Banks and region tables (R46, R49, R437) -/

/-- `n` bytes of little-endian words. -/
def padWords (n : Nat) (ws : List Nat) : List Byte := (ws.flatMap (leBytes 4) ++ List.replicate n 0).take n

/-- The banks of a mechanism, one 32-byte slot each. -/
def bankBytes (d : Dev) (m : Mech) : List Byte := (List.finRange 25).flatMap fun n => (List.range 8).flatMap fun k =>
  padWords 32 (match Img.bankRec (d.msec m) n.val k with
    | some r => r.ws.drop 1
    | none => [])

/-- The region tables of a mechanism. -/
def tableBytes (d : Dev) (m : Mech) : List Byte := (List.finRange 25).flatMap fun n =>
  padWords 160 (match (Img.ofType (d.msec m) 0x42).find? (fun r => decide (r.f 0 0 8 = n.val)) with
    | some r => r.ws
    | none => [])

/-- Writes a backing copy and holds its lines locked. -/
def lockRange (d : Dev) (b : Memory) (a : Nat) (bs : List Byte) : Dev × Memory :=
  let ls := (lineParts a bs.length).map (fun p => lineOf p.1)
  let (d, b) := ls.foldl (fun (x : Dev × Memory) l => match x.1.findLine l with
    | some y => x.1.writeBack x.2 y
    | none => x) (d, b)
  let (d, b) := d.bufPut b a bs
  let d := ls.foldl (fun (d : Dev) l =>
    let way := match d.findLine l with
      | some y => if y.lock then some y.way else (d.dropLine l).lockPos l
      | none => d.lockPos l
    match way with
    | some w => (d.dropLine l).modMdc fun c => { c with lines := ⟨l, w, b.readBytes l 128, false, true, false⟩ :: c.lines }
    | none => d.dropLine l) d
  (d.syncMdc, b)

/-- Loads the banks and region tables of every mechanism, after a whole image is admitted (R46). -/
def loadAllBanks (d : Dev) (b : Memory) : Dev × Memory :=
  let lw := d.get Reg.MDC_STAT_LOCKED_WAYS
  let gone (x : Line) : Bool := x.lock || decide (x.way < lw)
  let (d, b) := (d.mdc.lines.filter gone).foldl (fun x l => x.1.writeBack x.2 l) (d, b)
  let d := d.modMdc fun c => { c with lines := c.lines.filter (fun x => !gone x) }
  let (d, b) := d.lockRange b (bankAddr 0 0 0) ((List.finRange 16).flatMap d.bankBytes)
  d.lockRange b (tableAddr 0 0) ((List.finRange 16).flatMap d.tableBytes)

/-- Replaces the banks and region tables of one mechanism (step 4 of R49). -/
def loadBanks (d : Dev) (b : Memory) (m : Mech) : Dev × Memory :=
  let (d, b) := d.lockRange b (bankAddr m 0 0) (d.bankBytes m)
  d.lockRange b (tableAddr m 0) (d.tableBytes m)

/-- What follows an image load: a whole image admitted in this step takes the metadata cache's locked ways (R46). -/
def afterLoad (before d : Dev) (b : Memory) : Dev × Memory :=
  let atStart := before.ox.step == .cal && d.ox.step == .image
  let reload : Bool := match before.fw.reload with
    | some r => r.mech.isNone && d.fw.reload.isNone
    | none => false
  if (atStart ∨ reload) ∧ d.get Reg.GCTL_IMG_STAT_STATE = 1 then d.loadAllBanks b else (d, b)

/-- BANK_PREFETCH_DONE (R124): a prefetch completes, having missed when its line was not in the cache; poisoned data keeps the old bank
(R329). -/
def prefetchDone (d : Dev) (b : Memory) (m : Mech) (n : LoopId) : Dev × Memory :=
  if d.on (Reg.SRV_LSTAT_SWITCH_PENDING m n) ∧ (d.mx m).srv.loops[n.val].shadow = none then
    let k := d.get (Reg.SRV_LSTAT_PEND_BANK m n)
    let a := bankAddr m n k
    let len := match Img.bankRec (d.msec m) n.val k with
      | some r => r.ws.length - 1
      | none => 0
    if d.metaBlocked false a 32 then (d, b)
    else
      let d := if (d.findLine (lineOf a)).isNone then d.count (Reg.SRV_BANK_MISS_MISS m) else d
      let ((d, b), bytes) := d.metaRead b a 32
      if d.metaPoison a 32 then (d.set (Reg.SRV_LSTAT_SWITCH_PENDING m n) 0, b)
      else (d.modLoop m n fun x => { x with shadow := some (k, (List.range len).map (fun i => byteField bytes (4 * i) 4)) }, b)
  else (d, b)

end Dev
end Sys2Proof.Machine
end

