-- ==== Sys2Proof/Machine/Ucode.lean ====
section
/-! DEFINITION. Signed images (R469, R470), microcode images and their checks (R447–R454, R462), legacy patches (R465, R477) and
loading a control-store bank (R460, R463). -/
namespace Sys2Proof.Machine

namespace Ucode

/-- A field of a micro-word (R447). -/
def fld (w : BitVec 128) (lo n : Nat) : Nat := bits w.toNat lo n

def next (w : BitVec 128) : Nat := fld w 0 12
def seq (w : BitVec 128) : Nat := fld w 12 4
def cond (w : BitVec 128) : Nat := fld w 16 6
def commit (w : BitVec 128) : Bool := fld w 22 1 == 1
def alu (w : BitVec 128) : Nat := fld w 24 4
def dst (w : BitVec 128) : Nat := fld w 28 4
def srca (w : BitVec 128) : Nat := fld w 32 4
def srcb (w : BitVec 128) : Nat := fld w 36 4
def ctr (w : BitVec 128) : Nat := fld w 40 2
def gate (w : BitVec 128) : Nat := fld w 42 3
def mask (w : BitVec 128) : Nat := fld w 48 16
def req (w : BitVec 128) : Nat := fld w 64 8
def rarg (w : BitVec 128) : Nat := fld w 72 4
def imm (w : BitVec 128) : Nat := fld w 80 32

/-- The checks of R462 on one word of an image of `n` words. -/
def wordOk (n : Nat) (w : BitVec 128) : Bool :=
  decide (seq w ≤ 9) && (decide (cond w ≤ 21) || decide (48 ≤ cond w)) && decide (alu w ≤ 13) && decide (gate w ≤ 4) &&
  decide (req w ≤ 9) && fld w 23 1 == 0 && fld w 45 3 == 0 && fld w 76 4 == 0 && fld w 112 8 == 0 && fld w 120 8 == 0 &&
  (!(decide (seq w ∈ [1, 2, 3, 4, 7, 8])) || decide (next w < n)) && (gate w != 1 || commit w)

/-- Entries 0 to 9 are present: no vector of theirs is an END word (R455, R462, R464). -/
def entriesOk (l : List (BitVec 128)) : Bool := (l.take 10).all (fun w => seq w != 9)

/-- The checks of R462 on the words of an image. -/
def wordsOk (l : List (BitVec 128)) : Bool :=
  decide (16 ≤ l.length ∧ l.length ≤ 4096) && l.all (wordOk l.length) && entriesOk l

/-- Header bytes 0 to 63 (R462). -/
def header (version rollback words mask : Nat) : List Byte :=
  [0x46, 0x53, 0x51, 0x55] ++ fieldBytes 60 [(0, 4, version), (4, 2, rollback), (6, 2, words), (8, 2, mask)]

/-- The bytes of micro-words (R447). -/
def wordBytes (l : List (BitVec 128)) : List Byte := l.flatMap (fun w => leBytes 16 w.toNat)

/-- What R462 checks of an image beside its trailer; `present` are the mechanisms that MECH_MASK may name. -/
def imageOk (present : Nat) (u : UcodeImage) : Bool :=
  u.magicOk && u.reservedOk && decide (u.rollback = u.trailer.rollback) && wordsOk u.words &&
  decide (andNot u.mechMask.toNat present = 0) &&
  decide (Crypto.shake256 (header u.version.toNat u.rollback u.words.length u.mechMask.toNat ++ wordBytes u.words) = u.digest)

/-- Entry count of a container's plain text (R465). -/
def patchCount (l : List Byte) : Nat := byteField l 4 2

/-- Entries of a container's plain text: address and word. -/
def patches (l : List Byte) : List (Nat × BitVec 128) :=
  (List.range (patchCount l)).map (fun k => (byteField l (6 + 18 * k) 2, BitVec.ofNat 128 (byteField l (8 + 18 * k) 16)))

/-- The words with a container's entries applied; `none` where an address lies beyond them. -/
def patchWords : List (BitVec 128) → List (Nat × BitVec 128) → Option (List (BitVec 128))
  | l, [] => some l
  | l, (a, w) :: t => if a < l.length then patchWords (l.set a w) t else none

/-- Applies decrypted containers in flash order to an image (R465): the words, containers and words applied, the flash indices
applied and those skipped. -/
def applyAll (version : Nat) : List (Nat × BitVec 512 × List Byte) → List (BitVec 128) → List (BitVec 128) × Nat × List Nat × List Nat
  | [], l => (l, 0, [], [])
  | (i, _, p) :: t, l =>
    match (if byteField p 0 4 = version then (patchWords l (patches p)).filter wordsOk else none) with
    | some l' =>
      let r := applyAll version t l'
      (r.1, r.2.1 + patchCount p, i :: r.2.2.1, r.2.2.2)
    | none =>
      let r := applyAll version t l
      (r.1, r.2.1, r.2.2.1, i :: r.2.2.2)

end Ucode

namespace Dev

/-! ### Signature trailers -/

/-- Whether Gornodom's key slot 0 is revoked (R472). -/
def revoked (d : Dev) (slot1 : Bool) : Bool := !slot1 && d.sec.gk0Revoked

/-- R470 but for ROLLBACK: MAGIC, TYPE, reserved bits, key hash, revocation and signature. -/
def trailerSig (d : Dev) (s : SignedImage) (ty : Nat) : Bool :=
  s.magicOk && decide (s.type = ty) && (!s.revokeGk0 || decide (ty = 0)) && decide (s.pubkey.length = 1793) &&
  decide (Crypto.shake256 s.pubkey = Config.gkHash s.gkSlot) && !d.revoked s.gkSlot &&
  Crypto.falconVerify s.pubkey s.sig s.digest

/-- ROLLBACK of R470: at or above the counter of the type, or 0 for a container. -/
def rollbackOk (d : Dev) (s : SignedImage) (ty : Nat) : Bool :=
  if ty = 3 then decide (s.rollback = 0) else decide (d.sec.arb.toList.getD ty 0 ≤ s.rollback)

/-- R470. -/
def trailerOk (d : Dev) (s : SignedImage) (ty : Nat) : Bool := d.trailerSig s ty && d.rollbackOk s ty

/-! ### Banks -/

/-- The bank that an image gives, with the patches of the decrypted containers applied, and the flash indices skipped (R462,
R465). -/
def bankFor (d : Dev) (u : UcodeImage) : Bank × List Nat × List Nat :=
  let r := Ucode.applyAll u.version.toNat d.sec.containers u.words
  (⟨r.1, u.version.toNat, u.rollback, u.mechMask.toNat, r.2.2.1.length, r.2.1, true⟩, r.2.2.1, r.2.2.2)

/-- Logs the containers that an image skipped (R465). -/
def logSkips (d : Dev) (l : List Nat) : Dev := l.foldl (fun d _ => d.elogAdd 0x61 0x0A 0x0AFF) d

/-- Writes a bank of a sequencer. -/
def setBank (d : Dev) (m : Mech) (i : Fin 2) (b : Bank) : Dev := d.modFsq m fun x => { x with banks := x.banks.set i.val b }

/-- Publishes the registers of the two banks (R466). -/
def bankRegs (d : Dev) (m : Mech) : Dev :=
  let a := d.get (Reg.FSQ_UCODE_STAT_ACTIVE m) % 2
  let act := (d.mx m).fsq.banks.toList.getD a Bank.reset
  let ina := (d.mx m).fsq.banks.toList.getD (1 - a) Bank.reset
  d.setAll [(Reg.FSQ_UCODE_VER_VERSION m, act.version), (Reg.FSQ_UCODE_STAGED_VERSION m, ina.version),
    (Reg.FSQ_UCODE_STAT_STAGED m, b2n ina.loaded), (Reg.FSQ_UCODE_STAT_PATCHES m, act.patches),
    (Reg.FSQ_UCODE_STAT_PATCH_WORDS m, act.patchWords)]

/-- The word of a bank with its stored ECC (R447, R466). -/
def storedWord (b : Bank) (a : Nat) : Nat := match b.words[a]? with
  | some w => Ucode.fld w 0 120 + 2 ^ 120 * (Config.wordEcc (BitVec.ofNat 120 w.toNat)).toNat
  | none => 0

end Dev
end Sys2Proof.Machine
end

