-- ==== Sys2Proof/Machine/Boot.lean ====
section
/-! DEFINITION. Start-up (R66–R70): secure boot (R467–R478), calibration (R69, R331), the start-time image load (R43–R46) and step
9, with the capability list (R489–R491). -/
namespace Sys2Proof.Machine
namespace Dev

/-! ### Step 5: boot firmware -/

/-- The boot ROM tries the preferred slot, then the other (R471). -/
def bootRom (d : Dev) (b : Memory) (pref : Bool) (s0 s1 : Option SignedImage) : Dev × Memory :=
  if d.ox.step ≠ .pll then (d, b)
  else
    let good (s : Option SignedImage) : Bool := match s with
      | some i => d.trailerOk i 0
      | none => false
    let order : List (Nat × Option SignedImage) := if pref then [(1, s1), (0, s0)] else [(0, s0), (1, s1)]
    match order.find? (fun x => good x.2) with
    | some (n, some i) =>
      let d := (d.modSec fun x => { x with boot := some (n, i) }).modOx fun o => { o with step := .boot }
      ((d.setAll [(Reg.SEC_STAT_BOOT_SLOT, n), (Reg.SEC_STAT_GK_SLOT, b2n i.gkSlot)]).fuseRegs, b)
    | _ => d.oxOnlyBuf b 4

/-! ### Step 6: firmware -/

/-- Logs a start failure at step 6 or later (R68, R511). -/
def startFail (d : Dev) (item : Nat) : Dev := d.elogAdd 0x61 0x0A 0x0A0E [(16, 1, item)]

/-- The plain text of a container that R477 admits. -/
def containerText (d : Dev) (c : LegacyContainer) : Option (List Byte) :=
  let aad := [0x4C, 0x50, 0x43, 0x48] ++ leBytes 4 c.clen ++ leBytes 12 c.iv.toNat ++ List.replicate 44 0
  if c.magicOk ∧ d.trailerOk c.trailer 3 ∧ c.cipher.length = c.clen ∧ ¬ Config.legacyDis then
    match Crypto.gcmOpen (leBytes 32 Config.familyKey.toNat) c.iv aad c.cipher c.tag with
    | some p => if c.clen = 6 + 18 * Ucode.patchCount p ∧ p.length = c.clen ∧ 1 ≤ Ucode.patchCount p ∧ Ucode.patchCount p ≤ 256 then some p else none
    | none => none
  else none

/-- Decrypts the containers in flash order, at most 16; the others are skipped and logged (R477). -/
def loadContainers (d : Dev) : List (Nat × LegacyContainer) → Dev
  | [] => d
  | (i, c) :: t =>
    match (if 16 ≤ i then none else d.containerText c) with
    | some p => loadContainers (d.modSec fun x => { x with containers := x.containers ++ [(i, c.trailer.digest, p)] }) t
    | none => loadContainers (d.elogAdd 0x61 0x0A 0x0D20 [(16, 4, i)]) t

/-- Loads the flash microcode image into bank 0 of every sequencer (R463). -/
def loadUcode (d : Dev) (u : Option UcodeImage) : Dev := match u with
  | some u =>
    if d.trailerOk u.trailer 2 ∧ Ucode.imageOk 0xFFFF u then
      let (b, used, skipped) := d.bankFor u
      let d := (d.logSkips skipped).modSec fun x => { x with applied := used, ucodeRollback := some u.rollback }
      (List.finRange 16).foldl (fun d m => (d.setBank m 0 b).bankRegs m) d
    else d.startFail 2
  | none => d.startFail 2

/-- Loads the service firmware. -/
def loadSvc (d : Dev) (s : Option SignedImage) : Dev := match s with
  | some i => if d.trailerOk i 1 then d.modSec fun x => { x with svc := some i, svcAtStart := true } else d.startFail 1
  | none => d.startFail 1

/-- Reads the key record of the active owner slot (R474). -/
def loadOwner (d : Dev) (key : Option (List Byte)) : Dev := match d.ownerHash with
  | none => d.modSec fun x => { x with ownerKey := none }
  | some h => match key with
    | some k => if Crypto.shake256 k = h then (d.modSec fun x => { x with ownerKey := some k }).set Reg.SEC_STAT_OWNER_MISSING 0
        else (d.modSec fun x => { x with ownerKey := none }).set Reg.SEC_STAT_OWNER_MISSING 1
    | none => (d.modSec fun x => { x with ownerKey := none }).set Reg.SEC_STAT_OWNER_MISSING 1

/-- The identity key pair (R478). -/
def deriveId (d : Dev) : Dev :=
  if Crypto.shake256 Config.idPublic = Config.idHash then d.set Reg.SEC_STAT_ID_OK 1
  else (d.set Reg.SEC_STAT_ID_BAD 1).elogAdd 0x61 0x0A 0x0D30

/-- Step 6 of R66. -/
def bootFw (d : Dev) (svc : Option SignedImage) (u : Option UcodeImage) (legacy : List LegacyContainer) (key : Option (List Byte)) : Dev :=
  if d.ox.step ≠ .boot then d
  else
    let d := ((d.loadOwner key).loadSvc svc).loadContainers (legacy.zipIdx.map (fun x => (x.2, x.1)))
    (d.loadUcode u).deriveId.modOx fun o => { o with step := .fw, clk := { o.clk with calib := true } }

/-! ### Step 7: calibration -/

/-- The offset of a temperature sensor waits for its next conversion (R69); one beyond ±4 °C marks the sensor BAD (R70). -/
def checkSensor (d : Dev) (k : Fin 8) (ofs : BitVec 16) : Dev :=
  let d := d.modOx fun o => { o with tempNext := o.tempNext.set k.val (some ofs.toInt) }
  if 64 < ofs.toInt.natAbs then
    (d.set (Reg.OXA_TEMP_BAD k) 1).elogAdd 0x62 0x0A 0x0A02 [(16, 1, k.val), (17, 2, ofs.toNat)]
  else d.set (Reg.OXA_TEMP_BAD k) 0

/-- Key of a row of a channel in the repair lists. -/
def rowKey (c row : Nat) : Nat := c + 24 * row

/-- Hard repair of one candidate row (R331): its bank's resource is used up, or the row stays soft-repaired. -/
def hardRepair (d : Dev) (key : Nat) : Dev :=
  let c : Chan := ⟨key % 24, Nat.mod_lt _ (by decide)⟩
  let bank := Config.bufBank (key / 24) % 8
  if d.bit (Reg.BUF_CH_STAT_PPR_LEFT c) bank then
    (d.setBit (Reg.BUF_CH_STAT_PPR_LEFT c) bank false).modBufx fun x => { x with candidates := x.candidates.filter (· ≠ key) }
  else (d.modBufx fun x => { x with soft := x.soft ++ [key] }).count (Reg.BUF_CH_STAT_SOFT_USED c)

/-- The trainings of step 7 (R69): each channel's ZQ code and delay taps, and the taps of each Head Link whose training succeeded. -/
def storeTaps (d : Dev) (phy : List (Word × Word)) (heads : List TrainResult) : Dev :=
  let d := d.modBufx fun x => { x with phy := Vector.ofFn fun c => match phy[c.val]? with
    | some (zq, taps) => ⟨zq.toNat, none, taps.toNat, none, none⟩
    | none => x.phy[c.val] }
  (List.finRange 16).foldl (fun d m => match heads[m.val]? with
    | some r => if r.linkOk then d.modHlk m fun x => { x with taps := some r.eq } else d
    | none => d) d

/-- Step 7 of R66: channels trained or retired (R70), repairs (R331), sensors (R70) and taps (R69). With fewer than 20 channels the
calibration has failed, and the error log says so (R68). -/
def calDone (d : Dev) (trained : BitVec 24) (ofs : List (BitVec 16)) (ppr : List (Chan × Nat)) (phy : List (Word × Word))
    (heads : List TrainResult) : Dev :=
  if d.ox.step ≠ .fw then d
  else
    let d := (List.finRange 24).foldl (fun d c => d.set (Reg.BUF_CH_STAT_STATE c) (if trained.toNat.testBit c.val then 2 else 4)) d
    let d := (d.set Reg.BUF_CH_ACTIVE_MASK trained.toNat).set Reg.BUF_STAT_ACTIVE (popcount 24 trained.toNat)
    let d := ppr.foldl (fun d x => d.set (Reg.BUF_CH_STAT_PPR_LEFT x.1) x.2) d
    let d := d.bufx.candidates.foldl (fun d k => d.hardRepair k) d
    let d := (List.finRange 8).foldl (fun d k => d.checkSensor k (ofs.getD k.val 0)) d
    let d := d.storeTaps phy heads
    let d := if popcount 24 trained.toNat < 20 then d.startFail 3 else d
    d.modOx fun o => { o with step := .cal, clk := { o.clk with calib := false } }

/-! ### Step 8: the image -/

/-- What the loader knows of the owner (R51, R474). -/
def owner (d : Dev) : Img.Owner := match d.ownerHash, d.sec.ownerKey with
  | none, _ => .none
  | some _, none => .missing
  | some h, some k => if d.on Reg.SEC_STAT_OWNER_MISSING then .missing else .key h k

/-- Reports a refusal (R41, R44): image registers and error log. Where the spec states no bound, DETAIL1 takes a free value. -/
def reportRefusal (d : Dev) (e : ImgRefusal) (part : Option Nat) (start slotB : Bool) : Dev :=
  let d1 := e.d1.getD (d.freeVal % 2 ^ 32)
  let d := if e.d1.isNone then d.useFree else d
  let d := d.setAll [(Reg.GCTL_IMG_STAT_CODE, e.code), (Reg.GCTL_IMG_FIRST_RECORD_INDEX, e.idx), (Reg.GCTL_IMG_FIRST_RECORD_TYPE, e.ty),
    (Reg.GCTL_IMG_OFFSET_WORD_OFFSET, e.off), (Reg.GCTL_IMG_DETAIL0_DETAIL0, e.d0), (Reg.GCTL_IMG_DETAIL1_DETAIL1, d1)]
  d.elogAdd 0x63 2 e.code [(16, 2, e.idx), (18, 2, e.ty), (20, 4, e.off), (24, 4, e.d0), (28, 4, d1),
    (32, 1, match part with
      | some m => 1 + 2 * m
      | none => 0), (33, 1, b2n start + 2 * b2n slotB)]

/-- Publishes B_EFF, D_PEAK and the reservable bandwidth (R39) for the channels in use. -/
def publishBw (d : Dev) (resmax : Bool) : Dev :=
  let secs := d.img.sections.toList.filterMap (fun s => s.map (fun s => s.recs))
  let dp := Img.dPeak (d.grec 0x70) secs
  let ch := min (d.get Reg.BUF_STAT_ACTIVE) ((d.grec 0x10).f 0 24 5)
  let d := d.setAll [(Reg.GCTL_IMG_BWEFF_BWEFF, Img.nearest (Img.bEff5 ch ((d.grec 0x80).f 7 0 16)) 5),
    (Reg.GCTL_IMG_DRAIN_DPEAK, Img.nearest dp.1 dp.2)]
  if resmax then d.set Reg.GCTL_IMG_RESMAX_RESMAX ((d.grec 0x80).f 5 0 32) else d

/-- Applies a whole image (R46): image-derived fields, banks and region tables, then STATE. -/
def applyWhole (d : Dev) (i : Image) : Dev :=
  let secOf (m : Nat) : Option Section := (i.sections.find? (fun s => decide (Img.secMech s = m))).map (fun s => ⟨s, i.serial, i.digest, false⟩)
  let d := { d with img := ⟨i.globals, Vector.ofFn (fun m => secOf m.val), i.serial, i.digest⟩ }
  let d := (List.finRange 16).foldl (fun d m => d.imageMech m) d
  let d := d.imageGlobal.publishBw true
  let d := (d.set512 Reg.GCTL_IMG_DIGEST_DIGEST i.digest).set512 Reg.ID_IMG_DIGEST_DIGEST i.digest
  d.setAll [(Reg.GCTL_IMG_SERIAL_SERIAL, i.serial), (Reg.GCTL_IMG_STAT_SIG_CHECKED, b2n (d.ownerHash.isSome)),
    (Reg.GCTL_IMG_STAT_CODE, 0), (Reg.GCTL_IMG_STAT_STATE, 1)]

/-- LAST_PARTIAL and LAST_MECH after an attempt: FLAGS.PARTIAL of the image, and FLAGS.MECH of a partial one (R42). -/
def noteAttempt (d : Dev) (img : List Byte) : Dev :=
  let flags := byteField img 12 4
  let d := d.set Reg.GCTL_IMG_STAT_LAST_PARTIAL (bits flags 1 1)
  if tbit flags 1 then d.set Reg.GCTL_IMG_STAT_LAST_MECH (bits flags 2 4) else d

/-- The loader's verdict on the image of a flash slot; an empty slot is none (R43, R44). -/
def checkSlot (d : Dev) (l : Option (List Byte)) : Option (Except ImgRefusal Image) :=
  l.map (Img.checkWhole d.owner (d.get Reg.BUF_STAT_ACTIVE))

/-- Step 8 of R66 (R43, R70). -/
def imageLoad (d : Dev) (a b : Option (List Byte)) : Dev :=
  if d.ox.step ≠ .cal then d
  else
    let d := d.modOx fun o => { o with step := .image }
    if d.get Reg.BUF_STAT_ACTIVE < 20 then d
    else
      let note (d : Dev) (l : Option (List Byte)) : Dev := match l with
        | some img => d.noteAttempt img
        | none => d
      let tryB (d : Dev) (refusedA : Bool) : Dev :=
        let d := note d b
        match d.checkSlot b with
        | some (.ok i) => (d.applyWhole i).setAll [(Reg.GCTL_IMG_STAT_SLOT, 1), (Reg.GCTL_IMG_STAT_FALLBACK, b2n refusedA)]
        | some (.error e) => (d.reportRefusal e none true true).set Reg.GCTL_IMG_STAT_STATE 2
        | none => if refusedA then d.set Reg.GCTL_IMG_STAT_STATE 2 else d
      let d := note d a
      match d.checkSlot a with
      | some (.ok i) => d.applyWhole i
      | some (.error e) => tryB (d.reportRefusal e none true false) true
      | none => tryB d false

/-! ### Step 9 -/

/-- Word `k` of the capability entry with identifier `i + 1` (R490). -/
def capField (i k : Nat) : Field := ⟨0x100 + 16 * i + 4 * k, 0, 32, 0, .RO⟩

/-- The body of each capability (R490). -/
def capBody (d : Dev) (i : Nat) : Nat × Nat := match i with
  | 0 => ((d.grec 0xA0).f 0 0 14 + 65536 * (d.grec 0xA0).f 0 16 11, 0x700000)
  | 1 => (d.sec.applied.length, 0)
  | 2 => (1, 0)
  | 3 => (2, 0x100004)
  | 4 => (20 + 256 * 112, 0)
  | 7 => (37, 0)
  | _ => (0, 0)

/-- Which capabilities are present (R490). -/
def capPresent (d : Dev) (i : Nat) : Bool := match i with
  | 0 => d.get Reg.ARC_STAT_STATE == 1
  | 1 => !Config.legacyDis
  | 7 => Config.bar2Implemented
  | _ => true

/-- Rebuilds the capability list (R491). -/
def rebuildCaps (d : Dev) : Dev :=
  let here := (List.range 8).filter d.capPresent
  let one (d0 : Dev) (d : Dev) (i : Nat) : Dev :=
    if here.contains i then
      let nxt := match here.find? (fun j => decide (i < j)) with
        | some j => 0x100 + 16 * j
        | none => 0
      d.setAll [(capField i 0, i + 1 + 65536), (capField i 1, nxt), (capField i 2, (d0.capBody i).1), (capField i 3, (d0.capBody i).2)]
    else d.setAll [(capField i 0, 0), (capField i 1, 0), (capField i 2, 0), (capField i 3, 0)]
  ((List.range 8).foldl (one d) d).countWrap Reg.ID_LIST_GEN_GEN

/-- The burns of step 9 (R472, R473). -/
def startBurns (d : Dev) (ok : Bool) : Dev :=
  let d := match d.sec.boot with
    | some (_, i) =>
      let d := if i.gkSlot ∧ i.revokeGk0 then (d.modSec fun x => { x with gk0Revoked := true }).fuseRegs else d
      d.advanceArb 0 i.rollback ok
    | none => d
  let d := match d.sec.svc with
    | some i => if d.sec.svcAtStart then d.advanceArb 1 i.rollback ok else d
    | none => d
  let d := d.modSec fun x => { x with svcAtStart := false }
  match d.sec.ucodeRollback with
  | some r => d.advanceArb 2 r ok
  | none => d

/-- The identity block (R488). -/
def identity (d : Dev) : Dev :=
  d.setAll [(Reg.ID_SERIAL_LO_SERIAL, Config.idHash.toNat), (Reg.ID_SERIAL_HI_SERIAL, Config.idHash.toNat >>> 32),
    (Reg.ID_CONFIG_MECH_PRESENT, (d.grec 0x10).f 1 0 16), (Reg.ID_CONFIG_CHANNELS, d.get Reg.BUF_STAT_ACTIVE)]

/-- Step 9 of R66: NORMAL. -/
def startDone (d : Dev) (ok : Bool) : Dev :=
  if d.ox.step ≠ .image then d
  else
    let prev := d.get Reg.OXA_STATE_MODE
    let d := (d.modOx fun o => { o with step := .up, clk := { o.clk with security := false, service := d.sec.svc.isSome } }).set Reg.OXA_STATE_MODE 0
    let d := if prev = 2 then d.logMode 2 0 (d.get Reg.OXA_STATE_CAUSE) else d
    let d := { d with ports := d.ports.map (fun (x : PortX) => { x with crs := false }) }
    let d := d.startBurns ok
    let d := (d.setB Reg.ARC_STAT_STATE d.sec.svc.isSome).set Reg.MDC_STAT_ENABLED 1
    let d := (d.identity.rebuildCaps).setAll [(Reg.DMA_HOST_BASE_LO_BASE, 0x200000), (Reg.DMA_HOST_SIZE_SIZE, 0x100000)]
    (List.finRange 16).foldl (fun d m => ((d.checkBeams m).autoInit m).settle m) d

end Dev

/-! ### Meanings -/

/-- BOOT_ROM_VERIFY (R471). -/
def execBootRomVerify (pref : Bool) (slot0 slot1 : Option SignedImage) (s : State) : Host.Outcome State Fault Refusal :=
  liftBuf (fun d b => d.bootRom b pref slot0 slot1) s
/-- BOOT_FW_LOAD (R66). -/
def execBootFwLoad (svc : Option SignedImage) (ucode : Option UcodeImage) (legacy : List LegacyContainer) (ownerKey : Option (List Byte)) (s : State) :
    Host.Outcome State Fault Refusal := liftDev (fun d => d.bootFw svc ucode legacy ownerKey) s
/-- CALIBRATION_DONE (R69). -/
def execCalibrationDone (trained : BitVec 24) (sensorOfs : List (BitVec 16)) (pprBanks : List (Chan × Nat)) (phy : List (Word × Word))
    (heads : List TrainResult) (s : State) : Host.Outcome State Fault Refusal :=
  liftDev (fun d => d.calDone trained sensorOfs pprBanks phy heads) s
/-- START_IMAGE_LOAD (R43). -/
def execStartImageLoad (slotA slotB : Option (List Byte)) (s : State) : Host.Outcome State Fault Refusal :=
  liftBuf (fun d b => Dev.afterLoad d (d.imageLoad slotA slotB) b) s
/-- START_COMPLETE (R66). -/
def execStartComplete (burnOk : Bool) (s : State) : Host.Outcome State Fault Refusal := liftDev (fun d => d.startDone burnOk) s

end Sys2Proof.Machine
end

