-- ==== Sys2Proof/Machine/GroupCode.lean ====
section
/-! DEFINITION. Decoding of a parity group (R274, R312, R313): Reed–Solomon over GF(2^16), one column of symbols at a time. A member is
known by the exponent of x at which its symbols stand in the group's code word. -/
namespace Sys2Proof.Machine
namespace GroupCode

/-- Exponent of a member: data member m at q + 31 − m, parity block j (member 32 + j) at q − 1 − j (R274). -/
def exponent (q member : Nat) : Nat := if member < 32 then q + 31 - member else q - 1 - (member - 32)

/-- a^n. -/
def gfPowN (a : Nat) : (n : Nat) → Nat
  | 0 => 1
  | n + 1 => Codec.gfMul a (gfPowN a n)

/-- a^(2^n − 1), by squaring. -/
def gfOnes (a : Nat) : (n : Nat) → Nat
  | 0 => 1
  | n + 1 => let b := gfOnes a n; Codec.gfMul a (Codec.gfMul b b)

/-- Inverse: a^(2^16 − 2), the square of a^(2^15 − 1). -/
def gfInv (a : Nat) : Nat := let b := gfOnes a 15; Codec.gfMul b b

/-- Syndrome j of one column: the sum of each symbol times α^(j e). -/
def syndrome (j : Nat) (col : List (Nat × Nat)) : Nat :=
  (col.map (fun es => Codec.gfMul es.2 (Codec.gfPow (j * es.1)))).foldl (fun a b => a ^^^ b) 0

/-- Eliminates column `i` of a system of rows. -/
def eliminate (i : Nat) (rows : List (List Nat)) : List (List Nat) :=
  let p := rows.getD i []
  let inv := gfInv (p.getD i 0)
  let p := p.map (Codec.gfMul inv)
  rows.zipIdx.map (fun r => if r.2 = i then p else List.zipWith (fun a b => a ^^^ Codec.gfMul (r.1.getD i 0) b) r.1 p)

/-- Solves for the symbols of the exponents `es` from the first syndromes, and says whether the remaining of the q agree (R312). -/
def solveColumn (q : Nat) (es : List Nat) (col : List (Nat × Nat)) : List Nat × Bool :=
  let k := es.length
  let rows := (List.range k).map (fun j => es.map (fun e => Codec.gfPow (j * e)) ++ [syndrome j col])
  let x := ((List.range k).foldl (fun r i => eliminate i r) rows).map (fun r => r.getD k 0)
  let whole := col ++ es.zip x
  (x, (List.range (q - k)).all (fun j => syndrome (k + j) whole == 0))

/-- The columns of a range: symbol i of every member that is known. -/
def columns (known : List (Nat × List Nat)) (n : Nat) : List (List (Nat × Nat)) :=
  (List.range n).map (fun i => known.map (fun m => (m.1, m.2.getD i 0)))

/-- Solves a range of `n` columns: the symbols of each exponent of `es`, and whether every column's check passed. -/
def solveRange (q n : Nat) (es : List Nat) (known : List (Nat × List Nat)) : List (Nat × List Nat) × Bool :=
  let cols := (columns known n).map (solveColumn q es)
  (es.zipIdx.map (fun e => (e.1, cols.map (fun c => c.1.getD e.2 0))), cols.all Prod.snd)

/-- Adds suspects to the erasures, one at a time, until a solution passes its check or cannot be checked (R313): the solution, if there is
one, whether it was accepted unchecked, and the size of the erasure set. -/
def recover (q n : Nat) (known : List (Nat × List Nat)) : (suspects : List Nat) → (es : List Nat) → Option (List (Nat × List Nat)) × Bool × Nat
  | sus, es =>
    if q < es.length then (none, false, es.length)
    else
      let r := solveRange q n es (known.filter (fun m => !es.contains m.1))
      if es.length = q then (some r.1, true, es.length)
      else if r.2 then (some r.1, false, es.length)
      else match sus with
        | [] => (none, false, es.length)
        | s :: t => recover q n known t (es ++ [s])

end GroupCode
end Sys2Proof.Machine
end

