-- ==== Sys2Proof/Machine/Detect.lean ====
section
/-! DEFINITION. What every frame adds to the optical control (R141–R163): scaled samples, the generators that drive the slots of disabled
loops, S-curves, the runs that decide losses and slips, defects in force, the runout measure, and erasure hints (R157). -/
namespace Sys2Proof.Machine

/-- A raw 14-bit sample scaled by a gain (R141). -/
def scaleRaw (raw : BitVec 14) (gain : Nat) : Int := sat16 (raw.toInt * 4 * gain / 16384)

namespace Dev

/-! ### Samples -/

/-- The samples of a cell, scaled by the set of the layer in focus (R112, R141). -/
def samples (d : Dev) (m : Mech) (c : ServoCell) : Sv where
  fe := scaleRaw c.fe 16384
  fs := scaleRaw c.fs (d.get (Reg.SRV_CAL_FOC_SUM_GAIN m (d.layer m)))
  te := (List.finRange 16).map (fun b => scaleRaw (c.te.getD b.val 0) (d.get (Reg.SRV_CAL_GAIN_TE_GAIN m (d.layer m) b)))
  bs := (List.finRange 16).map (fun b => scaleRaw (c.bs.getD b.val 0) (d.get (Reg.SRV_CAL_GAIN_BSUM_GAIN m (d.layer m) b)))
  rt := scaleRaw c.rt 16384
  tt := scaleRaw c.tt 16384

/-- A loop of the kinds given is enabled. -/
def kindOn (d : Dev) (m : Mech) (kinds : List Nat) : Bool := (d.loopsOf m kinds).any (fun n => d.loopOn m n)

/-! ### Erasure hints (R157, R158) -/

/-- Channel-bit counts of the beams at the start of frame `f`, counted as `frameCount` counts; 0 before the revolution mark. -/
def stampAt (d : Dev) (m : Mech) (f : Nat) : List Nat :=
  let x := (d.mx m).opt
  x.stamps.getD (x.frameCount - f) []

/-- Adds an affected frame, or span of frames, to a hint that waits with the same beams and cause, or begins a hint PRE frames before it. -/
def hintSpan (d : Dev) (m : Mech) (beams last cause : Nat) (start : List Nat) (first : Nat) : Dev :=
  let near := d.get (Reg.SRV_DEF_CFG2_PRE m) + d.get (Reg.SRV_DEF_CFG2_POST m) + 1
  let same (h : HintW) : Bool := decide (h.beams = beams ∧ h.cause = cause ∧ first ≤ h.last + near)
  if beams = 0 then d
  else d.modOpt m fun x => { x with
    pend := if x.pend.any same then x.pend.map (fun h => if same h then { h with last := max h.last last } else h)
      else ⟨beams, start, last, cause⟩ :: x.pend }

/-- The frame in progress is affected. In WRITING the fragment holds the span, and there is no separate hint (R158). -/
def hint (d : Dev) (m : Mech) (beams cause : Nat) : Dev :=
  if d.mstate m = .writing then d
  else
    let f := (d.mx m).opt.frameCount
    d.hintSpan m beams f cause (d.stampAt m (f - d.get (Reg.SRV_DEF_CFG2_PRE m))) f

/-- Hands the FSQ the hints whose POST frames have passed, one for each beam (R157). -/
def handHints (d : Dev) (m : Mech) : Dev :=
  let post := d.get (Reg.SRV_DEF_CFG2_POST m)
  let due (h : HintW) : Bool := decide (h.last + post < (d.mx m).opt.frameCount)
  let mk (h : HintW) : List Hint :=
    ((List.range 16).filter (tbit h.beams)).map fun b =>
      ⟨b, h.start.getD b 0, (d.stampAt m (h.last + post + 1)).getD b 0, h.cause⟩
  d.modOpt m fun x => { x with
    hints := ((x.pend.filter due).flatMap mk ++ x.hints).take 1024
    pend := x.pend.filter (fun h => !due h) }

/-- The Mule stamps the frame that begins with the channel-bit count of each beam (R157). -/
def stamp (d : Dev) (m : Mech) (cb : List Nat) : Dev :=
  (d.modOpt m fun x => { x with stamps := (cb :: x.stamps).take 64 }).handHints m

/-- The timing domains count anew from the revolution mark, and the hints of the revolution that has ended are spent. -/
def hintsAtMark (d : Dev) (m : Mech) : Dev :=
  d.modOpt m fun x => { x with hints := [], stamps := [], pend := x.pend.map (fun h => { h with start := [] }) }

/-! ### Defects (R155, R156) -/

/-- The beams of a defect. -/
def defectBeams : Defect → Nat
  | .dropout b | .bright b => 1 <<< b.val
  | .focus => 0xFFFF

/-- Cause of a defect's hint (R157). -/
def defectCause : Defect → Nat
  | .dropout _ => 1
  | .bright _ => 2
  | .focus => 3

/-- Whether a defect holds a loop (R156). -/
def defectHolds (r : Rec) : Defect → Bool
  | .dropout b | .bright b => decide (Img.loopKind r = 1 ∧ Img.loopBeam r = b.val)
  | .focus => [0, 1, 3, 4].contains (Img.loopKind r)

/-- The onset condition of a defect in the samples of a frame (R155). -/
def defectBegins (d : Dev) (m : Mech) (v : Sv) : Defect → Bool
  | .dropout b => decide (v.bs.getD b.val 0 < d.get (Reg.SRV_DEF_CFG_DEF_LO m))
  | .bright b => decide ((d.get (Reg.SRV_DEF_CFG2_DEF_BRIGHT m) : Int) < v.bs.getD b.val 0)
  | .focus => decide (v.fs < d.get (Reg.SRV_DEF_CFG_DEF_LO m))

/-- The end condition of a defect in the samples of a frame (R155). -/
def defectOver (d : Dev) (m : Mech) (v : Sv) : Defect → Bool
  | .dropout b => decide ((d.get (Reg.SRV_DEF_CFG_DEF_HI m) : Int) ≤ v.bs.getD b.val 0)
  | .bright b => decide ((d.get (Reg.SRV_DEF_CFG_DEF_HI m) : Int) ≤ v.bs.getD b.val 0 ∧ v.bs.getD b.val 0 ≤ d.get (Reg.SRV_DEF_CFG2_DEF_BRIGHT m))
  | .focus => decide ((d.get (Reg.SRV_DEF_CFG_DEF_HI m) : Int) ≤ v.fs)

/-- A frame that was not lost meets the end conditions of the defects in force, or extends them (R155). -/
def followDefects (d : Dev) (m : Mech) (v : Sv) : Dev :=
  d.modOpt m fun x => { x with defects := x.defects.map (fun y =>
    (y.1, if d.defectOver m v y.1 then { y.2 with clear := y.2.clear + 1 } else { y.2 with clear := 0, last := x.frameCount })) }

/-- Whether a beam is in a defect. -/
def inDefect (d : Dev) (m : Mech) (b : Nat) : Bool := d.bit (Reg.SRV_DEF_ACTIVE_BEAM m) b || d.on (Reg.SRV_DEF_ACTIVE_FOCUS m)

/-- Whether a loop keeps its defect hold in this frame: at most DEF_MAX frames from the onset of a defect that holds it (R156). -/
def heldByDefect (d : Dev) (m : Mech) (r : Rec) (n : LoopId) : Bool :=
  let x := (d.mx m).opt
  (d.mx m).srv.loops[n.val].defHold && x.defects.any (fun y =>
    y.2.hold && defectHolds r y.1 && decide (x.frameCount < y.2.onset + d.get (Reg.SRV_DEF_CFG2_DEF_MAX m)))

/-! ### The generators (R143, R144, R146, R152) -/

/-- Drives the slots of the loops of a kind. -/
def driveKind (d : Dev) (m : Mech) (kind : Nat) (v : Int) : Dev :=
  (d.loopsOf m [kind]).foldl (fun d n => d.setS (Reg.SRV_LOUT_OUT m n) (sat16 v)) d

/-- Drives the focus slot, within the clamp of the focus loop. -/
def driveFocus (d : Dev) (m : Mech) (v : Int) : Dev :=
  (d.loopsOf m [0]).foldl (fun d n => d.setS (Reg.SRV_LOUT_OUT m n)
    (clampInt (d.getS (Reg.SRV_LCLAMP_CLAMP_LO m n)) (d.getS (Reg.SRV_LCLAMP_CLAMP_HI m n)) v)) d

/-- Clamp of the focus loop. -/
def focusClamp (d : Dev) (m : Mech) : Int × Int := match d.focusLoop m with
  | some n => (d.getS (Reg.SRV_LCLAMP_CLAMP_LO m n), d.getS (Reg.SRV_LCLAMP_CLAMP_HI m n))
  | none => (0, 0)

/-- Frames of the sweep's ramp: SWEEP_MS. -/
def sweepFrames (d : Dev) (m : Mech) : Nat := 800 * d.get (Reg.SRV_FOC_CFG_SWEEP_MS m)

/-- The sweep has reached CLAMP_HI (R145). -/
def sweepDone (d : Dev) (m : Mech) : Bool := decide (2000 + d.sweepFrames m ≤ (d.mx m).opt.det.frames)

/-- The sweep generator's output in frame `k` of an acquisition (R144 steps 1 to 3): 0.5 ms still, 2 ms to CLAMP_LO, then the ramp. -/
def sweepLevel (d : Dev) (m : Mech) (k : Nat) : Int :=
  let (lo, hi) := d.focusClamp m
  let held := (d.mx m).opt.focHeld
  let n := d.sweepFrames m
  if k ≤ 400 then held
  else if k ≤ 2000 then held + (lo - held) * (k - 400 : Nat) / 1600
  else if n ≤ k - 2000 then hi
  else lo + (hi - lo) * (k - 2000 : Nat) / n

/-- The sweep generator's output in frame `k` of a jump (R146 steps 2 and 3): the kick until the first peak of the target layer's S-curve,
for KICK_FR frames at most, and then the opposite kick for KICK_FR frames. -/
def jumpLevel (d : Dev) (m : Mech) (k : Nat) : Int :=
  let x := (d.mx m).opt
  let kick : Int := if x.jumpFrom.val < x.target.val then d.get (Reg.SRV_JUMP_CFG_KICK m) else -(d.get (Reg.SRV_JUMP_CFG_KICK m) : Int)
  let n := d.get (Reg.SRV_JUMP_CFG_KICK_FR m)
  match x.det.peak with
  | none => if k ≤ n then x.focHeld + kick else x.focHeld
  | some p => if k ≤ p + n then x.focHeld - kick else x.focHeld

/-- Groove crossings of the short seek in progress: two changes of sign of the tracking error each (R152). -/
def crossings (d : Dev) (m : Mech) : Nat := (d.mx m).opt.det.crossed / 2

/-- The seek generator's output (R152): towards 0 in step 3, over frames that the spec does not count; in step 4 accelerating for the first
half of the tracks and braking for the second, at a strength that the spec does not give (free values, log entry 188). -/
def seekDrive (d : Dev) (m : Mech) : Dev :=
  let x := (d.mx m).opt
  match x.seek with
  | .sledMove => ((d.loopsOf m [2]).foldl (fun d n =>
      let v := d.getS (Reg.SRV_LOUT_OUT m n)
      let s : Int := min v.natAbs (d.freeVal % 65536)
      d.setS (Reg.SRV_LOUT_OUT m n) (if 0 ≤ v then v - s else v + s)) d).useFree
  | .short =>
    let a : Int := d.freeVal % 32768
    let first := decide (2 * d.crossings m < x.tracks.natAbs)
    (d.driveKind m 2 (if first = decide (0 ≤ x.tracks) then a else -a)).useFree
  | _ => d

/-- SUM_GAIN that makes the mean focus sum of the last 800 frames read 0x4000 (R144 step 5); a mean that no gain brings there
leaves a free value. -/
def setSumGain (d : Dev) (m : Mech) (l : Layer) : Dev :=
  let h := (d.mx m).opt.fsHist
  let sum := h.foldl (· + ·) 0
  let g : Int := if sum ≤ 0 then 0 else 268435456 * h.length / sum
  if 0 < g ∧ g < 65536 then d.set (Reg.SRV_CAL_FOC_SUM_GAIN m l) g.toNat
  else (d.set (Reg.SRV_CAL_FOC_SUM_GAIN m l) d.freeVal).useFree

/-- Step 5 of R144, 1 ms after the capture: the gain of the layer in focus, or its set. -/
def captureSet (d : Dev) (m : Mech) : Dev :=
  let l := (d.mx m).opt.target
  (if d.on (Reg.MCH_STATE_CAL_VALID m) then d.loadSet m l else d.setSumGain m l).modDet m fun x => { x with good := 0 }

/-- A frame, lost or not, passes for the sweep, jump, capture or seek in progress. -/
def advance (d : Dev) (m : Mech) : Dev :=
  let x := (d.mx m).opt
  let k := x.det.frames + 1
  let d := d.modDet m fun x => { x with frames := k }
  let d := if x.focus = .sweep then d.driveFocus m (d.sweepLevel m k)
    else if x.jump = .kick then d.driveFocus m (d.jumpLevel m k)
    else if x.focus = .settle ∧ k = 800 then d.captureSet m
    else d
  d.seekDrive m

/-! ### Runs -/

/-- Sign of a number. -/
def signOf (v : Int) : Int := if v < 0 then -1 else if v = 0 then 0 else 1

/-- S-curves (R144): a change of sign of the focus error with the raw focus sum at ACQ_SUM or above is the zero crossing of a valid one. In
a jump the first peak of the target layer's curve is where the focus error first falls back, once the sum has been low between the layers
(DEDUCED, log entry 188); its zero crossing follows. -/
def followCurve (d : Dev) (m : Mech) (v : Sv) (rawFs : Int) : Dev :=
  let x := (d.mx m).opt
  let acq : Int := d.get (Reg.SRV_FOC_CFG_ACQ_SUM m)
  d.modDet m fun y =>
    let s := signOf v.fe
    let zero := decide (s ≠ 0 ∧ y.sign ≠ 0 ∧ s ≠ y.sign ∧ acq ≤ rawFs)
    let cross := zero && decide (x.jump = .kick → y.peak.isSome)
    { y with
      sign := if s = 0 then y.sign else s
      cross := cross
      curves := if x.focus = .sweep ∧ 2000 < y.frames ∧ cross then y.curves + 1 else y.curves
      dark := y.dark || decide (rawFs < acq)
      peak := if y.peak = none ∧ y.dark ∧ acq ≤ rawFs ∧ v.fe.natAbs < y.sv.fe.natAbs then some y.frames else y.peak }

/-- Whether the focus sum lies within the limits of the focus loop. -/
def sumWithin (d : Dev) (m : Mech) (v : Sv) : Bool := match d.focusLoop m with
  | some n => decide (d.getS (Reg.SRV_LLIMIT_LIMIT_LO m n) ≤ v.fs ∧ v.fs ≤ d.getS (Reg.SRV_LLIMIT_LIMIT_HI m n))
  | none => false

/-- The runs of a frame that was not lost: focus sum within limits and below LOSS_LVL (R144, R146, R147), tracking errors at SLIP_LVL (R150),
groove crossings of a short seek (R152). -/
def followRuns (d : Dev) (m : Mech) (v : Sv) : Dev :=
  let on := d.kindOn m [0]
  let ok := d.sumWithin m v
  let lvl := d.get (Reg.SRV_TRK_CFG_SLIP_LVL m)
  let fine (b : Nat) : Bool := tbit (d.beamsInUse m) b && !d.inDefect m b && (d.loopsOf m [1]).any (fun n => d.loopOn m n && (match d.loopRec m n with
    | some r => Img.loopBeam r == b
    | none => false))
  let short := decide ((d.mx m).opt.seek = .short)
  let s := signOf (v.te.getD (d.lowBeam m) 0)
  d.modDet m fun y => { y with
    sv := v
    good := if on ∧ ok then y.good + 1 else 0
    bad := y.bad || (on && !ok)
    low := if on ∧ v.fs < d.get (Reg.SRV_FOC_LVL_LOSS_LVL m) then y.low + 1 else 0
    slips := Vector.ofFn (fun b => if fine b.val ∧ lvl ≤ (v.te.getD b.val 0).natAbs then y.slips[b] + 1 else 0)
    teSign := if s = 0 then y.teSign else s
    crossed := if short ∧ s ≠ 0 ∧ y.teSign ≠ 0 ∧ s ≠ y.teSign then y.crossed + 1 else y.crossed }

/-- The runout measure of a frame (R161 step 1): a lost frame and a beam in a defect give no sample (R163). -/
def followRunout (d : Dev) (m : Mech) (c : Option ServoCell) : Dev :=
  let x := (d.mx m).opt
  if x.cal = .runout ∧ x.jump = .none ∧ d.mstate m = .focused then
    d.modOpt m fun x => { x with meas :=
      { x.meas with
        total := x.meas.total + 1
        beams := match c with
          | none => x.meas.beams
          | some c => Vector.ofFn (fun b =>
              let y := x.meas.beams[b]
              let t := (c.te.getD b.val 0).toInt * 4
              if d.inDefect m b.val then y
              else ⟨y.n + 1, if y.n = 0 then t else min y.lo t, if y.n = 0 then t else max y.hi t, y.sum + t,
                y.bsum + (c.bs.getD b.val 0).toInt * 4⟩) } }
  else d

/-- What a frame that was not lost adds to everything that follows the samples. -/
def followFrame (d : Dev) (m : Mech) (c : ServoCell) (v : Sv) : Dev :=
  ((((d.followDefects m v).followCurve m v (c.fs.toInt * 4)).followRuns m v).followRunout m (some c))

/-- What a lost frame does to them (R144, R145): the run within limits breaks, and the second in a row ends a sweep. -/
def followLost (d : Dev) (m : Mech) (run : Nat) : Dev :=
  (d.modDet m fun y => { y with good := 0, cross := false, failed := y.failed || decide ((d.mx m).opt.focus = .sweep ∧ 2 ≤ run) }).followRunout m none

end Dev
end Sys2Proof.Machine
end

