-- ==== Sys2Proof/Machine/Mule.lean ====
section
/-! DEFINITION. The Mule (R107–R136): arithmetic, inputs, governors, one servo frame, lost frames, bank switching, and the write
inhibit that a frame produces (R114, R118, R135, R148, R158–R160). -/
namespace Sys2Proof.Machine

/-! ### Arithmetic (R109–R111) -/

/-- Saturates to the state format s8.31 (R109). -/
def satState (i : Int) : Int := clampInt (-549755813888) 549755813887 i

/-- A product of a coefficient and an input, 36 fractional bits, rounded to 31 (R110). -/
def roundIn (coef e : Int) : Int := (coef * e + 16) / 32

/-- A product of a coefficient and a state, 52 fractional bits, rounded to 31 (R110). -/
def roundFb (coef y : Int) : Int := (coef * y + 1048576) / 2097152

/-- The output of a clamped state value (R110). -/
def roundOut (yc : Int) : Int := (yc + 32768) / 65536

/-- What one sample of a compensator gives: its states, output, and whether it clamped or saturated. -/
structure CompOut where
  s1 : Int
  s2 : Int
  s3 : Int
  out : Int
  clamped : Bool
  sat : Bool

/-- Coefficient `i` of a bank. -/
def coefAt (cs : List Nat) (i : Nat) : Int := toSigned 32 (cs.getD i 0)

/-- One sample of a compensator in direct form II transposed (R110, R111); `three` for three poles and zeros. -/
def compensate (three : Bool) (cs : List Nat) (s1 s2 s3 lo hi e : Int) : CompOut :=
  let c := coefAt cs
  let b3 := if three then c 3 else 0
  let a1 := if three then c 4 else c 3
  let a2 := if three then c 5 else c 4
  let a3 := if three then c 6 else 0
  let r0 := roundIn (c 0) e + s1
  let yf := satState r0
  let yc := clampInt (lo * 65536) (hi * 65536) yf
  let r1 := roundIn (c 1) e - roundFb a1 yc + s2
  let r2 := roundIn (c 2) e - roundFb a2 yc + (if three then s3 else 0)
  let r3 := if three then roundIn b3 e - roundFb a3 yc else 0
  ⟨satState r1, satState r2, satState r3, roundOut yc, decide (yc ≠ yf),
    decide (satState r0 ≠ r0 ∨ satState r1 ≠ r1 ∨ satState r2 ≠ r2 ∨ satState r3 ≠ r3)⟩

namespace Dev

/-! ### Inputs -/

/-- One in the format of a weight, s2.21. -/
def weightOne : Int := 2097152

/-- The cascade value of a target loop (R127): weighted means, exact, rounded as round15 rounds. -/
def cascade (d : Dev) (m : Mech) (n : LoopId) : Int :=
  let edges := (Img.ofType (d.msec m) 0x43).filter (fun r => decide (r.f 0 8 8 = n.val))
  let w (r : Rec) : Int := toSigned 32 (r.ws.getD 1 0)
  let all := (edges.map w).foldl (· + ·) 0
  let live := edges.filterMap (fun r =>
    let src : LoopId := ⟨r.f 0 0 8 % 25, Nat.mod_lt _ (by decide)⟩
    let h := (d.mx m).srv.loops[src.val].hist.take (r.f 0 16 12)
    if d.loopOn m src ∧ h ≠ [] then some (w r, h.foldl (· + ·) 0, (h.length : Int)) else none)
  let act := (live.map (fun x => x.1)).foldl (· + ·) 0
  if act = 0 then 0
  else
    let den := (live.map (fun x => x.2.2)).foldl (· * ·) 1
    let num := (live.map (fun x => x.1 * x.2.1 * (den / x.2.2))).foldl (· + ·) 0
    let q := den * act * weightOne
    sat16 (Int.fdiv (2 * num * all + q) (2 * q))

/-- The MIN_SELECT group that a loop heads, if any. -/
def headGroup (d : Dev) (m : Mech) (n : LoopId) : Option Rec :=
  (Img.ofType (d.msec m) 0x44).find? (fun r => decide (r.f 0 0 8 = n.val))

/-- `round(v × 32,767 ÷ max)` (R130). -/
def fraction (v max : Nat) : Int := if max = 0 then 0 else ((2 * v * 32767 + max) / (2 * max) : Nat)

/-- The profile source of the group of a head: that of the spindle or of the sled (R130). -/
def profileFrac (d : Dev) (m : Mech) (sled : Bool) : Int :=
  if sled then fraction ((d.srec m 0x51).f 5 16 16) ((d.srec m 0x51).f 0 16 16)
  else fraction (d.profileRpm m) ((d.srec m 0x50).f 0 0 16)

/-- The fraction that entry `i` of a group brings to a selection (R131). -/
def candFrac (d : Dev) (m : Mech) (sled : Bool) (g : Rec) (i : Nat) : Int :=
  let src := g.f (1 + i) 0 8
  if src = 0xFF then d.profileFrac m sled else d.getS (Reg.SRV_LOUT_OUT m ⟨src % 25, Nat.mod_lt _ (by decide)⟩)

/-- The lowest of the fractions, a tie to the lower index. -/
def lowest : (i : Nat) → List Int → Option (Nat × Int)
  | _, [] => none
  | i, v :: t => match lowest (i + 1) t with
    | some (j, w) => if w < v then some (j, w) else some (i, v)
    | none => some (i, v)

/-- A head's selection (R131, R133): the winner and the fraction selected. -/
def select (d : Dev) (m : Mech) (sled : Bool) (g : Rec) : Dev × Int :=
  let k : Fin 2 := if sled then 1 else 0
  match lowest 0 ((List.range (g.f 0 8 3)).map (d.candFrac m sled g)) with
  | none => (d, 0)
  | some (i, v) =>
    let old := (d.mx m).srv.govs[k.val].winner
    let d := d.setAll [(Reg.SRV_GOV_WINNER m k, i), (Reg.SRV_GOV_SRC m k, g.f (1 + i) 0 8)]
    let d := d.setS (Reg.SRV_GOV_SEL m k) v
    let d := if old ≠ none ∧ old ≠ some i then d.count (if sled then Reg.SRV_GOV_CHG_SLD_CHG m else Reg.SRV_GOV_CHG_SPN_CHG m) else d
    (d.modSrv m fun x => { x with govs := x.govs.set k.val { x.govs[k.val] with winner := some i } }, v)

/-- One frame of the winner's time (R133): 800 frames won by an entry are 1 ms. -/
def govTime (d : Dev) (m : Mech) (k : Fin 2) : Dev :=
  let g := (d.mx m).srv.govs[k.val]
  match g.winner with
  | none => d
  | some i =>
    let e : Fin 4 := ⟨i % 4, Nat.mod_lt _ (by decide)⟩
    let done := decide (799 ≤ g.frames[e.val])
    let d := if done then d.count (Reg.SRV_GOVT_MS m k e) else d
    d.modSrv m fun x => { x with govs := x.govs.set k.val { g with frames := g.frames.set e.val (if done then 0 else g.frames[e.val] + 1) } }

/-- r of the spindle loop in 0.5 rpm (R112, R130, R192), from the fraction selected, if a group selects one. -/
def spinRef (d : Dev) (m : Mech) (sel : Option Int) : Int :=
  let mx : Int := ((d.srec m 0x50).f 0 0 16 : Nat)
  let r : Int := match sel with
    | some s => 2 * mx * s / 32767
    | none => 2 * (d.profileRpm m : Int)
  let r := if d.on (Reg.SPN_STATE_ABSORB m) then min (2 * mx) (r + 2 * (d.get (Reg.SPN_ABSORB_CFG_ABSORB_RPM m) : Int)) else r
  if d.on (Reg.SPN_STATE_ABSORB m) ∧ d.on (Reg.SPN_STATE_KE_BAD m) then min mx r else r

/-- The device power budget in force, mW (R62, R129). -/
def budget (d : Dev) : Nat :=
  let c := Sparse.get 112 d.feats 3
  1000 * c - d.ox.throttle * 100 * c

/-- User bytes a second that a mechanism drains at the present zone and speed (R129). -/
def drainRate (d : Dev) (m : Mech) : Nat :=
  d.get (Reg.WCH_DSLOTS_DATA m) * 65536 * (d.mx m).spn.speed.natAbs / 120

/-- Bytes staged for a mechanism that its sequencer has not taken (R129). -/
def stagedFor (d : Dev) (m : Mech) : Nat :=
  blkBytes * (d.bufx.blocks.filter (fun b => b.2.mech = some m.val ∧ b.2.phase = .placed)).length

/-- `n ÷ den` in Q15, saturated; none where the denominator is 0. -/
def q15 (n den : Int) : Option Int := if den = 0 then none else some (sat16 (n * 32768 / den))

/-- The headroom of a measure (R129); none where its denominator is 0. -/
def headroom (d : Dev) (m : Mech) (meas par : Nat) : Option Int := match meas with
  | 0 => q15 ((d.budget : Int) - d.pest) d.budget
  | 1 =>
    let es := (d.mx m).srv.eSq
    let l : Int := par * max 1 es.length * 16384
    q15 (l - (es.foldl (· + ·) 0 : Nat)) l
  | _ =>
    if d.mstate m ≠ .writing then some 32767
    else
      let dr : Int := (d.drainRate m * par / 1000 : Nat)
      q15 ((d.stagedFor m : Int) - dr) dr

/-- The group entry that names a governor loop. -/
def govEntry (d : Dev) (m : Mech) (n : LoopId) : Nat × Nat :=
  match ((Img.ofType (d.msec m) 0x44).flatMap Img.groupEntries).find? (fun e => decide (bits e.2 0 8 = n.val)) with
  | some e => (bits e.2 8 3, bits e.2 16 16)
  | none => (0, 0)

/-- The input of a governor: its headroom, reported; an undefined one is a free value (log entry 3). -/
def govInput (d : Dev) (m : Mech) (n : LoopId) : Dev × Int :=
  let (meas, par) := d.govEntry m n
  let (d, h) := match d.headroom m meas par with
    | some h => (d, h)
    | none => (d.useFree, toSigned 16 d.freeVal)
  (d.setS (match meas with
    | 0 => Reg.SRV_MEAS_PWR_H m
    | 1 => Reg.SRV_MEAS_VIB_H m
    | _ => Reg.SRV_MEAS_DATA_H m) h, h)

/-- Whether a governor may deliver a new output (R132): in each of its groups it won, no selection has been made, or the new
output is no more than the old. -/
def mayUpdate (d : Dev) (m : Mech) (n : LoopId) (old new : Int) : Bool :=
  decide (new ≤ old) ||
    ((Img.ofType (d.msec m) 0x44).filter (fun g => (Img.groupEntries g).any (fun e => decide (bits e.2 0 8 = n.val)))).all (fun g =>
      let k : Fin 2 := if Img.loopKind (((Img.loop (d.msec m) (g.f 0 0 8))).getD ⟨0, 0, 0, []⟩) = 5 then 1 else 0
      match (d.mx m).srv.govs[k.val].winner with
      | none => true
      | some i => g.f (1 + i) 0 8 == n.val)

/-! ### One sample -/

/-- What a frame carries while its loops run. -/
structure Run where
  d : Dev
  t : Nat                 -- cycles since frame start
  inh : Nat               -- write inhibit
  hint : Nat              -- beams whose focus or fine sample was skipped or held
  faults : List LoopId    -- loops whose MISS_RUN reached MISS_LIMIT, or whose states had an uncorrectable error
  fin : List (Nat × Nat)  -- loops whose output was delivered in this frame, with the cycle at which it was

/-- Beams that a KIND 0 or 1 loop governs. -/
def loopBeams (r : Rec) : Nat := if Img.loopKind r = 0 then 0xFFFF else if Img.loopKind r = 1 then 1 <<< Img.loopBeam r else 0

/-- A delivered output enters the means (R127). -/
def deliverOut (d : Dev) (m : Mech) (n : LoopId) (out : Int) : Dev := d.modLoop m n fun x => { x with hist := (out :: x.hist).take 800 }

/-- A sample that keeps output and states: the kept output enters the means, once the loop has delivered one since it was enabled
(R127). -/
def keepSample (d : Dev) (m : Mech) (n : LoopId) : Dev :=
  if (d.mx m).srv.loops[n.val].hist = [] then d else d.deliverOut m n (d.getS (Reg.SRV_LOUT_OUT m n))

/-- A skipped sample (R115, R116, R118); a lost frame never counts toward MISS_RUN (R136). -/
def skipSample (c : Run) (m : Mech) (r : Rec) (n : LoopId) (ue lost : Bool) : Run :=
  let run := c.d.get (Reg.SRV_LSTAT_MISS_RUN m n) + 1
  let d := (if lost then c.d else c.d.count (Reg.SRV_LSTAT_MISS_RUN m n)).count (Reg.SRV_LMISS_MISS m n)
  let d := if ue then d else (d.set (Reg.SRV_LSTAT_LATE m n) 1).setBit (Reg.SRV_LATE_SUM_LATE m) n.val true
  let d := if ue then d.modLoop m n fun x => { x with s1 := 0, s2 := 0, s3 := 0 } else d
  { c with
    d := d.keepSample m n
    inh := c.inh ||| loopBeams r
    hint := c.hint ||| loopBeams r
    faults := if ue ∨ (¬ lost ∧ run = c.d.get (Reg.SRV_LTIME_MISS_LIMIT m n)) then c.faults ++ [n] else c.faults }

/-- The bank switch that waits takes effect (R124). -/
def takeSwitch (d : Dev) (m : Mech) (n : LoopId) : Dev :=
  match (d.mx m).srv.loops[n.val].shadow with
  | none => d
  | some (b, cs) =>
    ((d.setAll [(Reg.SRV_LSTAT_BANK m n, b), (Reg.SRV_LSTAT_SWITCH_PENDING m n, 0)]).count (Reg.SRV_LSWITCH_CNT_SWITCH m n)).modLoop
      m n fun x => { x with coef := cs, shadow := none }

/-- The input of a loop (R112), `sv` being the frame's samples; `none`: predicted (R134). -/
def loopInput (d : Dev) (m : Mech) (r : Rec) (n : LoopId) (sv : Option Sv) : Dev × Int × Option Int :=
  let setp := d.getS (Reg.SRV_LSETP_SETP m n)
  let x := (d.mx m).srv.loops[n.val]
  let link (f : Sv → Int) : Dev × Int × Option Int := match sv with
    | some s => (d, sat16 (f s - setp), none)
    | none => (d.count (Reg.SRV_PRED_CNT_PRED m), sat16 (2 * x.e1 - x.e2), none)
  match Img.loopKind r with
  | 0 => link (fun s => s.fe)
  | 1 => link (fun s => s.te.getD (Img.loopBeam r) 0)
  | 3 => link (fun s => s.rt)
  | 4 => link (fun s => s.tt)
  | 6 =>
    let (d, sel) := match d.headGroup m n with
      | some g => let (d, v) := d.select m false g; (d, some v)
      | none => (d, none)
    let ref := d.spinRef m sel
    (d.setS (Reg.SPN_SPEED_REF m) ref, sat16 (ref - (d.mx m).spn.speed), none)
  | 7 => let (d, h) := d.govInput m n; (d, h, none)
  | k =>
    let c := d.cascade m n
    let d := d.setS (Reg.SRV_LIN_CASC m n) c
    if k = 5 then match d.headGroup m n with
      | some g => let (d, v) := d.select m true g; (d, sat16 (c + setp), some ((d.srec m 0x51).f 0 16 16 * v / 32767))
      | none => (d, sat16 (c + setp), none)
    else (d, sat16 (c + setp), none)

/-- A completed sample of a loop (R110–R113, R116, R131, R132). -/
def runSample (c : Run) (m : Mech) (r : Rec) (n : LoopId) (sv : Option Sv) (t : Nat) : Run :=
  let d := c.d
  let clear := decide (d.get (Reg.SRV_LCTL_MODE m n) = 3)
  let d := if clear then (d.set (Reg.SRV_LCTL_MODE m n) 0).modLoop m n fun x => { x with s1 := 0, s2 := 0, s3 := 0 } else d
  let (d, e, bound) := d.loopInput m r n sv
  let x := (d.mx m).srv.loops[n.val]
  let old := d.getS (Reg.SRV_LOUT_OUT m n)
  let o := compensate (Img.loopOrder3 r) x.coef x.s1 x.s2 x.s3 (d.getS (Reg.SRV_LCLAMP_CLAMP_LO m n))
    (d.getS (Reg.SRV_LCLAMP_CLAMP_HI m n)) e
  let keep := Img.loopKind r == 7 && !d.mayUpdate m n old o.out
  let out := if keep then old else match bound with
    | some b => clampInt (-b) b o.out
    | none => o.out
  let clamped := o.clamped || (!keep && decide (out ≠ o.out))
  let d := (d.setS (Reg.SRV_LOUT_OUT m n) out).setS (Reg.SRV_LIN_E m n) e
  let d := d.setAll [(Reg.SRV_LSTAT_CLAMPED m n, b2n clamped), (Reg.SRV_LSTAT_MISS_RUN m n, 0), (Reg.SRV_LFINISH_LAST m n, t),
    (Reg.SRV_LFINISH_WORST m n, max t (d.get (Reg.SRV_LFINISH_WORST m n)))]
  let d := if o.clamped then d.count (Reg.SRV_LCLAMP_CNT_CLAMP m n) else d
  let d := if o.sat ∧ ¬ keep then d.set (Reg.SRV_LSTAT_STATE_SAT m n) 1 else d
  let d := (d.deliverOut m n out).modLoop m n fun y =>
    let y := { y with e1 := e, e2 := y.e1, clampRun := if clamped then y.clampRun + 1 else 0 }
    if keep then y else { y with s1 := o.s1, s2 := o.s2, s3 := o.s3 }
  let d := if Img.loopKind r = 6 then d.modSpn m fun y => { y with tstar := out } else d
  { c with d := d, t := t, fin := (n.val, t) :: c.fin }

/-- A sample in HOLD or OPEN (R120): charged, never skipped, write inhibit asserted. -/
def testSample (c : Run) (m : Mech) (r : Rec) (n : LoopId) (opened : Bool) (t : Nat) : Run :=
  let c := { c with t := t, inh := c.inh ||| loopBeams r, hint := c.hint ||| loopBeams r }
  if opened then
    let out := c.d.getS (Reg.SRV_LOUT_MANUAL m n)
    let d := (c.d.setS (Reg.SRV_LOUT_OUT m n) out).deliverOut m n out
    { c with d := if Img.loopKind r = 6 then d.modSpn m fun y => { y with tstar := out } else d, fin := (n.val, t) :: c.fin }
  else { c with d := c.d.keepSample m n }

/-- A due sample of an enabled loop (R115–R120, R124, R134, R156). `lost` is the count of consecutive lost frames, 0 in a good one. A bank
switch takes effect at the start of any sample but a skipped one. -/
def dueSample (c : Run) (m : Mech) (r : Rec) (n : LoopId) (sv : Option Sv) (lost : Nat) (stop : Bool) (ue : List LoopId) : Run :=
  let cost := Img.cost (c.d.msec m) r
  let mode := c.d.get (Reg.SRV_LCTL_MODE m n)
  let link := [0, 1, 3, 4].contains (Img.loopKind r)
  let held := c.d.heldByDefect m r n
  let stays := decide (0 < lost) && link && (stop || decide (2 < lost) || !c.d.on (Reg.SRV_LCTL_LOST_MODE m n))
  let late := decide (min (c.d.get (Reg.SRV_LTIME_DEADLINE m n)) 900 < c.t + cost)
  let sw := { c with d := c.d.takeSwitch m n }
  if ue.contains n then skipSample c m r n true (decide (0 < lost))
  else if mode = 1 ∨ mode = 2 then testSample sw m r n (mode == 2) (c.t + cost)
  else if held then { sw with d := sw.d.keepSample m n, t := c.t + cost }
  else if stays then { sw with d := sw.d.keepSample m n }
  else if late then skipSample c m r n false (decide (0 < lost))
  else runSample sw m r n sv (c.t + cost)

/-- The due samples of a frame in schedule order (R108); states with an uncorrectable error are cleared and their loop's fault raised, due
or not (R117). -/
def runLoops (c : Run) (m : Mech) (idx : Nat) (sv : Option Sv) (lost : Nat) (stop : Bool) (ue : List LoopId) : List Rec → Run
  | [] => c
  | r :: t =>
    let n : LoopId := ⟨Img.loopId r % 25, Nat.mod_lt _ (by decide)⟩
    runLoops (if ¬ c.d.loopOn m n then c
        else if idx % max 1 (Img.loopDivider r) = Img.loopPhase r then dueSample c m r n sv lost stop ue
        else if ue.contains n then skipSample c m r n true (decide (0 < lost))
        else c)
      m idx sv lost stop ue t

/-! ### Comparisons (R114, R148) -/

/-- The limit comparison of one loop (R114): the beams it inhibits. -/
def limitCheck (d : Dev) (m : Mech) (r : Rec) (sv : Sv) : Dev × Nat :=
  let n : LoopId := ⟨Img.loopId r % 25, Nat.mod_lt _ (by decide)⟩
  if d.loopOn m n ∧ Img.loopKind r ≤ 1 then
    let v := if Img.loopKind r = 0 then sv.fs else sv.te.getD (Img.loopBeam r) 0
    let out := decide (v < d.getS (Reg.SRV_LLIMIT_LIMIT_LO m n) ∨ d.getS (Reg.SRV_LLIMIT_LIMIT_HI m n) < v)
    let d := d.setB (Reg.SRV_LSTAT_LIMIT m n) out
    if out then (d.count (Reg.SRV_LLIM_CNT_LIMIT m n), loopBeams r) else (d, 0)
  else (d, 0)

/-- Every limit comparison of a frame. -/
def limitChecks (d : Dev) (m : Mech) (sv : Sv) : (inh : Nat) → List Rec → Dev × Nat
  | i, [] => (d, i)
  | i, r :: t =>
    let (d, k) := d.limitCheck m r sv
    limitChecks d m sv (i ||| k) t

/-- The tilt comparison (R148). -/
def tiltOut (d : Dev) (m : Mech) (sv : Sv) : Bool :=
  (d.loopsOf m [3, 4]).any (fun n =>
    let v := if d.loopKind m n = 3 then sv.rt else sv.tt
    d.loopOn m n && decide (d.get (Reg.SRV_TILT_CFG_TILT_INH m) < (v - d.getS (Reg.SRV_LSETP_SETP m n)).natAbs))

/-- Beams inhibited because a loop that governs them is not enabled, or a defect is in force (R159). -/
def standingInhibit (d : Dev) (m : Mech) : Nat :=
  let on := d.get (Reg.SRV_ENABLE_EN m)
  let foc := (d.loopsOf m [0]).any (fun n => tbit on n.val)
  let fine := ((d.loopsOf m [1]).filter (fun n => tbit on n.val)).foldl (fun a n => match d.loopRec m n with
    | some r => setb a (Img.loopBeam r)
    | none => a) 0
  if ¬ foc ∨ d.on (Reg.SRV_DEF_ACTIVE_FOCUS m) then 0xFFFF else andNot 0xFFFF fine ||| d.get (Reg.SRV_DEF_ACTIVE_BEAM m)

/-- Write inhibit of a frame in force (R16 step 2, R159, R160): gates drop, and the runs within limits move on. -/
def applyInhibit (d : Dev) (m : Mech) (inh : Nat) (lost : Bool) : Dev :=
  let d := d.dropGates m inh
  d.modSrv m fun x => { x with
    inhibit := inh
    okRun := Vector.ofFn (fun b => if lost ∨ tbit inh b.val then 0 else min 255 (x.okRun[b.val] + 1)) }

/-- Reports the loop faults of a frame (R116, R103). -/
def loopFaults (d : Dev) (m : Mech) : List LoopId → Dev
  | [] => d
  | n :: t =>
    loopFaults (match d.loopRec m n with
      | none => d
      | some r =>
        if Img.loopKind r = 6 then d.raiseFault m 6
        else if Img.loopKind r = 1 ∧ d.on (Reg.MCH_CTL_AUTO_RETIRE m) then
          if d.bit (Reg.MCH_BEAM_RETIRED m) (Img.loopBeam r) then d
          else (d.mchEvent m Reg.MCH_EVENT_RETIRED).retire m (Img.loopBeam r)
        else d.raiseFault m 0) m t

/-! ### Frames -/

/-- The next FRAME_INDEX (R108), 0 at the first frame after gating; the frame is stamped with the beams' channel-bit counts (R157). -/
def nextFrame (d : Dev) (m : Mech) (cb : List Nat) : Dev :=
  let i := if d.on (Reg.SRV_STAT_RUNNING m) then (d.get (Reg.SRV_STAT_FRAME_INDEX m) + 1) % 800 else 0
  ((d.setAll [(Reg.SRV_STAT_RUNNING m, 1), (Reg.SRV_STAT_FRAME_INDEX m, i)]).modOpt m fun x => { x with frameCount := x.frameCount + 1 }).stamp m cb

/-- Fine loops that a slip disabled are enabled again, while tracking is closed (R150). -/
def reenable (d : Dev) (m : Mech) : Dev :=
  ((List.finRange 25).filter (fun n => (d.mx m).srv.loops[n.val].reenable)).foldl (fun d n =>
    match d.loopRec m n with
    | some r => if d.mayEnable m n ∧ d.on (Reg.SRV_OPT_STAT_TRACK_ON m) then
        d.enableLoop m n (some (d.fineMean m (Img.loopBeam r)))
      else d.modLoop m n fun x => { x with reenable := false }
    | none => d) d

/-- One output of the actuator cell: what the loop delivered by cycle 240, else what it held before the frame (R113). -/
def latched (before after : Dev) (m : Mech) (fin : List (Nat × Nat)) (n : LoopId) : Nat :=
  if fin.any (fun x => decide (x.1 = n.val ∧ 240 < x.2)) then before.get (Reg.SRV_LOUT_OUT m n) else after.get (Reg.SRV_LOUT_OUT m n)

/-- LASER of the actuator cell (R238): off with LDEN low, write enabled in WRITING, else read power. -/
def laserCode (d : Dev) (m : Mech) : Nat :=
  if ¬ (d.mx m).pins.lden then 0 else if d.mstate m = .writing then 2 else 1

/-- The actuator cell of a frame (R113, R238). -/
def actuatorCell (before after : Dev) (m : Mech) (fin : List (Nat × Nat)) : BitVec 384 :=
  let place (r : Rec) : Nat := match Img.loopKind r with
    | 0 => 0
    | 1 => 16 + 16 * Img.loopBeam r
    | 2 => 272
    | 3 => 288
    | _ => 304
  let vals := (Img.ofType (after.msec m) 0x40).foldl (fun a r =>
    if Img.loopKind r ≤ 4 then a + latched before after m fin ⟨Img.loopId r % 25, Nat.mod_lt _ (by decide)⟩ * 2 ^ place r else a) 0
  BitVec.ofNat 384 (vals + (after.mx m).gate.wopen * 2 ^ 320 + after.laserCode m * 2 ^ 336)

/-- What every frame ends with: cycles used, governors' time, faults, the actuator cell. -/
def closeFrame (before : Dev) (m : Mech) (c : Run) : Dev :=
  let d := c.d.setAll [(Reg.SRV_FRAME_LAST m, c.t), (Reg.SRV_FRAME_MAX m, max c.t (c.d.get (Reg.SRV_FRAME_MAX m)))]
  let d := (d.govTime m 0).govTime m 1
  let d := if d.linkUp m then d.sendCell m (actuatorCell before d m c.fin) else d
  d.loopFaults m c.faults

/-- A lost frame (R107, R117, R134–R136, R147). While GATE_LOST leaves it without write inhibit, a write's lost frame has its hint
(log entry 189). -/
def lostFrame (d : Dev) (m : Mech) (eccCe : Nat) (eccUe : List LoopId) (cb : List Nat) : Dev :=
  if d.get (Reg.HLK_STATE_LINK m) = 0 then d
  else
    let before := d
    let d := d.nextFrame m cb
    let k := (d.mx m).srv.lostRun + 1
    let d := (d.modSrv m fun x => { x with lostRun := k }).modHlk m fun x => { x with cellSeen := false }
    let d := d.set (Reg.SRV_STAT_LOST m) 1
    let d := (d.count (Reg.SRV_LOST_CNT_LOST m)).set (Reg.SRV_LOST_CNT_MAX_RUN m) (min 65535 (max k (d.get (Reg.SRV_LOST_CNT_MAX_RUN m))))
    let d := ((d.reenable m).followLost m k).advance m
    let gate := max 1 (d.get (Reg.SRV_CFG_GATE_LOST m))
    let f := (d.mx m).opt.frameCount
    let d := if gate ≤ k then d.hint m (d.beamsInUse m) 7
      else d.hintSpan m (d.beamsInUse m) f 7 (d.stampAt m (f - d.get (Reg.SRV_DEF_CFG2_PRE m))) f
    let stop := decide (d.get (Reg.SRV_CFG_LOST_LIMIT m) ≤ k)
    let d := d.count (Reg.SRV_BANK_MISS_ECC m) eccCe
    let c : Run := ⟨d, 12 + d.get (Reg.SRV_CFG_STALL_INJ m) + 6 * eccCe, d.standingInhibit m, 0, [], []⟩
    let c := runLoops c m (d.get (Reg.SRV_STAT_FRAME_INDEX m)) none k stop eccUe (Img.schedule (d.msec m))
    let d := c.d.hint m (c.hint &&& c.d.beamsInUse m) 6
    let d := d.setB (Reg.SRV_STAT_INHIBIT_LOST m) (decide (gate ≤ k))
    let d := d.applyInhibit m (if gate ≤ k then 0xFFFF else c.inh) true
    let d := closeFrame before m { c with d := d }
    let d := if k = d.get (Reg.SRV_CFG_LOST_LIMIT m) then (d.set (Reg.SRV_STAT_RETRAIN_REQ m) 1).train m false else d
    if 4 * d.get (Reg.SRV_CFG_LOSS_FOCUS m) ≤ 5 * k ∧ d.running m ∧ d.mstate m ≠ .spun then
      d.focusLost m (if (d.mx m).opt.jump = .none then d.layer m else (d.mx m).opt.target)
    else d

/-- HF_SDLY moves with the mean arrival offset (R243). -/
def sdlyAdjust (d : Dev) (m : Mech) (arrival : Int) : Dev :=
  let d := d.modHlk m fun x => { x with offs := (arrival :: x.offs).take 16, adjWait := x.adjWait - 1 }
  let x := (d.mx m).hlk
  if x.offs.length < 16 then d
  else
    let sum := x.offs.foldl (· + ·) 0
    let d := d.setS (Reg.HLK_ARRIVE_MEAN m) (sum / 16)
    let s := d.get (Reg.HLK_TIMING_SDLY m)
    if 0 < x.adjWait then d
    else
      let v := if -12 * 16 < sum then s - 1 else if sum < -28 * 16 then min 2047 (s + 1) else s
      if v = s then d
      else ((((d.set (Reg.HLK_TIMING_SDLY m) v).count (Reg.HLK_ARRIVE_ADJ m)).headWrite m 0x10 v).modHlk m fun y =>
        { y with adjWait := 16 })

/-- The head temperature carried by a cell (R237), and its average's samples (R123). -/
def headTemp (d : Dev) (m : Mech) (c : ServoCell) : Dev :=
  let d := if ¬ c.phase then d.modHlk m fun x => { x with tempLow := some c.temp.toNat }
    else match (d.mx m).hlk.tempLow with
      | some lo => (d.setS (Reg.HLK_TEMP_TEMP m) (2 * toSigned 12 (lo + 64 * c.temp.toNat))).modHlk m fun x => { x with tempLow := none }
      | none => d
  let t := d.getS (Reg.HLK_TEMP_TEMP m)
  d.modSrv m fun x => { x with headTemp := (t :: x.headTemp).take 1024 }

/-- A servo cell whose head has lost write authority (R244): every beam drops. -/
def dnBad (d : Dev) (m : Mech) (c : ServoCell) : Dev :=
  if c.dnBad then (d.count (Reg.HLK_WERR_DN_BAD m)).dropGates m 0xFFFF else d

/-- The vibration energy and its register (R129). -/
def noteEnergy (d : Dev) (m : Mech) (c : ServoCell) : Dev :=
  let e := scaleRaw c.fe 16384
  let d := d.modSrv m fun x => { x with eSq := ((e * e).toNat :: x.eSq).take 800 }
  let es := (d.mx m).srv.eSq
  let d := d.set (Reg.SRV_MEAS_VIB_E m) (min 65535 (es.foldl (· + ·) 0 / (max 1 es.length * 16384)))
  d.modOpt m fun x => { x with fsHist := (c.fs.toInt * 4 :: x.fsHist).take 800 }

/-- A servo frame with its cell (R107–R118, R131–R133, R141, R148, R159, R160, R243). A cell outside its window is discarded, and
its frame is lost. -/
def servoFrame (d : Dev) (m : Mech) (cell : ServoCell) (arrival : Int) (eccCe : Nat) (eccUe : List LoopId) (cb : List Nat) : Dev :=
  if ¬ d.linkUp m then d
  else if arrival < -100 ∨ 40 < arrival then (d.count (Reg.HLK_LOST_LATE m)).lostFrame m eccCe eccUe cb
  else
    let before := d
    let d := d.nextFrame m cb
    let d := d.modHlk m fun x => { x with cellSeen := false }
    let d := (((d.sdlyAdjust m arrival).headTemp m cell).dnBad m cell).noteEnergy m cell
    let d := (d.modSrv m fun x => { x with lostRun := 0 }).setAll [(Reg.SRV_STAT_LOST m, 0), (Reg.SRV_STAT_INHIBIT_LOST m, 0)]
    let d := d.reenable m
    let sv := d.samples m cell
    let order := Img.schedule (d.msec m)
    let (d, lim) := d.limitChecks m sv 0 order
    let d := ((d.hint m (lim &&& d.beamsInUse m) 4).followFrame m cell sv).advance m
    let inh := lim ||| d.standingInhibit m ||| (if d.tiltOut m sv then 0xFFFF else 0)
    let d := d.count (Reg.SRV_BANK_MISS_ECC m) eccCe
    let c : Run := ⟨d, 12 + d.get (Reg.SRV_CFG_STALL_INJ m) + 6 * eccCe, inh, 0, [], []⟩
    let c := runLoops c m (d.get (Reg.SRV_STAT_FRAME_INDEX m)) (some sv) 0 false eccUe order
    let d := c.d.hint m (c.hint &&& c.d.beamsInUse m) 6
    closeFrame before m { c with d := d.applyInhibit m c.inh false }

/-! ### Banks -/

/-- The bank that a loop is to use, and its bands (R123–R125). -/
def wantedBank (d : Dev) (m : Mech) (n : LoopId) : Nat × Nat × Nat :=
  let (b, s, t) := d.regionBank m n
  (if d.forced m n then d.get (Reg.SRV_LCTL_FORCE_BANK m n) else b, s, t)

/-- The selection of one loop (R124, R125); that of a disabled loop keeps its bands. -/
def regionLoop (d : Dev) (m : Mech) (n : LoopId) : Dev :=
    let (b, s, t) := d.wantedBank m n
    let d := d.modLoop m n fun x => { x with speedBand := s, tempBand := t }
    if ¬ d.loopOn m n then d
    else if b = d.get (Reg.SRV_LSTAT_BANK m n) then
      (d.set (Reg.SRV_LSTAT_SWITCH_PENDING m n) 0).modLoop m n fun x => { x with shadow := none }
    else if d.on (Reg.SRV_LSTAT_SWITCH_PENDING m n) ∧ b = d.get (Reg.SRV_LSTAT_PEND_BANK m n) then d
    else (d.setAll [(Reg.SRV_LSTAT_SWITCH_PENDING m n, 1), (Reg.SRV_LSTAT_PEND_BANK m n, b)]).modLoop m n fun x => { x with shadow := none }

/-- The evaluation of the region tables, in a frame whose index is a multiple of 80 (R123, R124). -/
def regionEvaluation (d : Dev) (m : Mech) : Dev :=
  if d.on (Reg.SRV_STAT_RUNNING m) ∧ d.get (Reg.SRV_STAT_FRAME_INDEX m) % 80 = 0 then
    let d := d.setAll [(Reg.SRV_REGION_ZONE m, d.regionZone m), (Reg.SRV_REGION_SPEED m, (d.mx m).spn.speed.natAbs)]
    let d := d.setS (Reg.SRV_TEMP_TEMP m) (d.regionTemp m)
    (List.finRange 25).foldl (fun d n => d.regionLoop m n) d
  else d

/-- A write of SRV_LCTL (R120, R125, R139). The code of the violation is not stated (log entry 3). -/
def lctlWrite (d : Dev) (m : Mech) (n : LoopId) (w : Nat) : Dev :=
  let d := d.setAll [(Reg.SRV_LCTL_MODE m n, bits w 0 2), (Reg.SRV_LCTL_LOST_MODE m n, bits w 2 1),
    (Reg.SRV_LCTL_FORCE_EN m n, bits w 3 1), (Reg.SRV_LCTL_FORCE_BANK m n, bits w 4 3)]
  if tbit w 3 ∧ ¬ d.forced m n ∧ (d.loopRec m n).isSome then
    ((d.set (Reg.SRV_LSTAT_FORCE_BAD m n) 1).vlogAdd 0x14 (d.freeVal % 65536) 0).useFree
  else d

end Dev

/-! ### Meanings -/

/-- SERVO_FRAME (R107). -/
def execServoFrame (m : Mech) (c : BitVec 512) (arrival : Int) (eccCe : Nat) (eccUe : List LoopId) (cb : List Nat) (s : State) : Host.Outcome State Fault Refusal :=
  liftMech m (fun d => d.servoFrame m (Link.servoCell c) arrival eccCe eccUe cb) s
/-- LOST_FRAME (R134): a cell missing or bad, counted in HLK_LOST.LOST (R249). -/
def execLostFrame (m : Mech) (eccCe : Nat) (eccUe : List LoopId) (cb : List Nat) (s : State) : Host.Outcome State Fault Refusal := liftMech m (fun d =>
    if d.get (Reg.HLK_STATE_LINK m) = 0 then d else (d.count (Reg.HLK_LOST_LOST m)).lostFrame m eccCe eccUe cb) s
/-- SRV_MODE_WRITE (R120, R125): a write of SRV_LCTL. -/
def execSrvModeWrite (m : Mech) (l : LoopId) (w : Word) (s : State) : Host.Outcome State Fault Refusal :=
  liftDev (fun d => d.mechWrite m (0x810100 + 0x40 * l.val) fun d => d.lctlWrite m l w.toNat) s
/-- REGION_EVALUATION (R124). -/
def execRegionEvaluation (m : Mech) (s : State) : Host.Outcome State Fault Refusal := liftMech m (fun d => d.regionEvaluation m) s

end Sys2Proof.Machine
end

