-- ==== Sys2Proof/Machine/Optics.lean ====
section
/-! DEFINITION. Focus, tilt and beam tracking (R141–R167): acquisition, layer jumps, losses, slips, seeks and address checks,
defects, full and quick calibration with write power calibration (R270, R271). -/
namespace Sys2Proof.Machine
namespace Dev

/-! ### Focus -/

/-- Zero crossing of the target layer's S-curve (R144 step 4), in the last frame: the loops take over from the sweep's present output. -/
def focusCapture (d : Dev) (m : Mech) : Dev :=
  let x := (d.mx m).opt
  if x.focus = .sweep ∧ d.mstate m = .spun ∧ x.det.cross ∧ ¬ x.det.failed ∧ x.det.curves = x.target.val + 1 then
    let d := (d.enableKinds m [0, 3, 4]).setAll
      [(Reg.SRV_OPT_STAT_LAYER m, x.target.val), (Reg.SRV_OPT_STAT_FOCUS_ON m, 1)]
    d.modOpt m fun x => { x with focus := .settle, fsHist := [], det := x.det.restart }
  else d

/-- The swath of the next unused test pair of the layer under focus (R270). -/
def calSwath (d : Dev) (m : Mech) : Nat := 2 * min 63 (d.get (Reg.WCH_CAL_CURSOR m (d.layer m)))

/-- Step 2 of R161: tracking is closed on the deepest layer found, and the head seeks to the calibration zone: the sled moves there with
the fine, coarse and sled loops disabled (R152). -/
def calStep2 (d : Dev) (m : Mech) (found : Nat) : Dev :=
  let d := (d.setAll [(Reg.SRV_OPT_STAT_LAYERS m, found), (Reg.SRV_OPT_STAT_CAL_STEP m, 2)]).enableTracking m
  let d := ((d.disableKinds m [1, 2, 5]).set (Reg.SRV_OPT_STAT_TRACK_ON m) 0).modOpt m fun x => { x with cal := .seekCal, retreat := false }
  d.sldMove m (d.sledTarget m (d.calSwath m)) false

/-- A jump has succeeded (R146 step 5): the seek or the calibration that asked for it goes on. A jump of step 3(e) of R161 recaptures
tracking. -/
def jumpDone (d : Dev) (m : Mech) : Dev :=
  let x := (d.mx m).opt
  let d := (d.set (Reg.SRV_OPT_STAT_JUMP m) 0).modOpt m fun y => { y with jump := .none }
  match x.cal with
  | .runout => if x.retreat then d.calStep2 m ((d.layer m).val + 1) else d
  | .layer => d.enableTracking m
  | .none => if x.seek = .jump ∧ (d.layer m).val = d.get (Reg.SRV_SEEK_STAT_TLAYER m) then d.seekMove m else d
  | _ => d

/-- Focus is acquired: FOCUSED, after 800 consecutive frames within limits and no sooner than 1 ms after step 5 (R144 step 6). -/
def acquired (d : Dev) (m : Mech) : Dev :=
  let d := (d.setMstate m .focused).applyLoops m .focused
  let d := (d.modOpt m fun y => { y with focus := .none }).modMch m fun y => { y with relock := false }
  if ¬ d.on (Reg.MCH_STATE_CAL_VALID m) then d.startCal m else if d.cmdOp m = 4 then d.endCmd m 2 else d

/-- The focus sum has stayed within limits (R144 step 6, R146 step 5: SETTLE × 10 frames from the capture). -/
def focusAcquired (d : Dev) (m : Mech) : Dev :=
  let x := (d.mx m).opt
  if x.focus = .settle ∧ d.mstate m = .spun then
    if 1600 ≤ x.det.frames ∧ 800 ≤ x.det.good then d.acquired m else d
  else if x.jump = .settle ∧ ¬ x.det.bad ∧ 10 * d.get (Reg.SRV_JUMP_CFG_SETTLE m) ≤ x.det.frames then d.jumpDone m
  else d

/-- A sweep fails (R145), at CLAMP_HI or by two consecutive lost frames: the lens is retracted and swept again, until REACQ sweeps have
failed. -/
def focusSweepFail (d : Dev) (m : Mech) : Dev :=
  let x := (d.mx m).opt
  if x.focus ≠ .sweep ∨ ¬ (x.det.failed ∨ d.sweepDone m) then d
  else if d.get (Reg.MCH_CFG_REACQ m) ≤ x.sweeps + 1 then d.raiseFault m 1
  else (d.startFocus m x.target).modOpt m fun y => { y with sweeps := x.sweeps + 1, det := { y.det with frames := 400 } }

/-- Whether focus is lost (R146, R147): the focus sum below LOSS_LVL for LOSS_FR frames, or outside limits after a jump's capture. -/
def focusGone (d : Dev) (m : Mech) : Bool :=
  let x := (d.mx m).opt
  decide (0 < x.det.low ∧ d.get (Reg.SRV_FOC_CFG_LOSS_FR m) ≤ x.det.low) || (decide (x.jump = .settle) && x.det.bad)

/-- Focus lost (R87, R147, R154): a jump in progress is reacquired on its new layer. -/
def focusLoss (d : Dev) (m : Mech) : Dev :=
  if d.running m ∧ d.mstate m ≠ .spun ∧ d.focusGone m then
    d.focusLost m (if (d.mx m).opt.jump = .none then d.layer m else (d.mx m).opt.target)
  else d

/-! ### Layer jumps -/

/-- Whether a jump in that direction is what the seek or the calibration needs next (R146, R152 step 2, R161). -/
def jumpWanted (d : Dev) (m : Mech) (deeper : Bool) : Bool :=
  let x := (d.mx m).opt
  let l := (d.layer m).val
  let t := d.get (Reg.SRV_SEEK_STAT_TLAYER m)
  x.jump == .none && (match x.cal with
    | .runout => deeper && decide (x.calLayer.val = l + 1)
    | .layer => !deeper && decide (x.calLayer.val + 1 = l)
    | .none => x.seek == .jump && decide (l ≠ t) && (deeper == decide (l < t))
    | _ => false)

/-- Step 1 of R146 towards a layer; the generator kicks from the focus output held, from the next frame on. -/
def startJump (d : Dev) (m : Mech) (target : Layer) : Dev :=
  let d := (d.closeGates m).disableKinds m [1, 2]
  let d := (d.loopsOf m [3, 4]).foldl (fun d n => d.set (Reg.SRV_LCTL_MODE m n) 1) (d.set (Reg.SRV_OPT_STAT_TRACK_ON m) 0)
  let held := d.focusOut m
  let from_ := d.layer m
  ((d.disableKinds m [0]).set (Reg.SRV_OPT_STAT_JUMP m) 1).modOpt m fun x =>
    { x with jump := .kick, jumpFrom := from_, target := target, focHeld := held, det := x.det.restart }

/-- A layer jump (R146). -/
def layerJump (d : Dev) (m : Mech) (deeper : Bool) : Dev :=
  let l := (d.layer m).val
  if d.jumpWanted m deeper then
    d.startJump m (if deeper then ⟨(l + 1) % 4, Nat.mod_lt _ (by decide)⟩ else ⟨(l - 1) % 4, Nat.mod_lt _ (by decide)⟩)
  else d

/-- Step 4 of R146, at a zero crossing in the last frame. -/
def jumpCapture (d : Dev) (m : Mech) : Dev :=
  let x := (d.mx m).opt
  if x.jump = .kick ∧ x.det.cross then
    let d := d.enableKinds m [0]
    let d := (d.loopsOf m [3, 4]).foldl (fun d n => d.set (Reg.SRV_LCTL_MODE m n) 0) d
    ((d.set (Reg.SRV_OPT_STAT_LAYER m) x.target.val).loadSet m x.target).modOpt m fun y => { y with jump := .settle, det := y.det.restart }
  else d

/-- The focus output has reached the clamp of the focus loop (R162). -/
def atClamp (d : Dev) (m : Mech) : Bool :=
  let (lo, hi) := d.focusClamp m
  decide (d.focusOut m = lo ∨ d.focusOut m = hi)

/-- No zero crossing within 2 ms, 1,600 frames, of a jump's start, or in a probe before the focus output reaches its clamp (R146, R162): a
focus loss, or the end of a probe, from which the head returns. -/
def jumpTimeout (d : Dev) (m : Mech) : Dev :=
  let x := (d.mx m).opt
  let probe := decide (x.cal = .runout ∧ ¬ x.retreat)
  if x.jump = .kick ∧ (1600 ≤ x.det.frames ∨ (probe ∧ d.atClamp m)) then
    if probe then
      ((d.driveFocus m x.focHeld).startJump m x.jumpFrom).modOpt m fun y => { y with retreat := true }
    else d.focusLost m x.target
  else d

/-! ### Slips and tracking loss -/

/-- The fine loop of a beam. -/
def fineLoop (d : Dev) (m : Mech) (b : Nat) : Option LoopId :=
  (d.loopsOf m [1]).find? (fun n => match d.loopRec m n with
    | some r => decide (Img.loopBeam r = b)
    | none => false)

/-- A slip of beam `b` (R150): its tracking error has stood at SLIP_LVL for SLIP_N frames. -/
def slip (d : Dev) (m : Mech) (b : Beam) : Dev :=
  match d.fineLoop m b.val with
  | none => d
  | some n =>
    let run := (d.mx m).opt.det.slips[b.val]
    if tbit (d.beamsInUse m) b.val ∧ ¬ d.inDefect m b.val ∧ d.loopOn m n ∧ 0 < run ∧ d.get (Reg.SRV_TRK_CFG_SLIP_N m) ≤ run then
      let f := (d.mx m).opt.frameCount
      let d := (d.dropGates m (1 <<< b.val)).modSrv m fun x => { x with inhibit := setb x.inhibit b.val, okRun := x.okRun.set b.val 0 }
      let d := (d.disableLoop m n).modLoop m n fun x => { x with reenable := true }
      let d := (d.count (Reg.SRV_BEAM_SLIP_CNT m b)).modOpt m fun x =>
        { x with slips := (f, b.val) :: x.slips.filter (fun s => decide (f < s.1 + 16)), det := { x.det with slips := x.det.slips.set b.val 0 } }
      d.hint m (1 <<< b.val) 5
    else d

/-- Mask of the beams that slipped in the last 16 frames (R151). -/
def slipMask (d : Dev) (m : Mech) : Nat :=
  let x := (d.mx m).opt
  (x.slips.filter (fun s => decide (x.frameCount < s.1 + 16))).foldl (fun a s => setb a s.2) 0

/-- An address check fails (R153): a correction short seek, or SEQ_TIMEOUT after RETRY corrections. -/
def checkFailed (d : Dev) (m : Mech) (tracks : Int) : Dev :=
  let n := d.get (Reg.SRV_SEEK_STAT_TRIES m)
  if n < d.get (Reg.SRV_SEEK_CFG_RETRY m) then
    let d := ((d.set (Reg.SRV_SEEK_STAT_TRIES m) (n + 1)).disableKinds m [1, 2, 5]).setAll
      [(Reg.SRV_OPT_STAT_TRACK_ON m, 0), (Reg.SRV_OPT_STAT_CAL_STEP m, 0)]
    d.modOpt m fun x => { x with seek := .short, cal := .none, tracks := tracks, det := x.det.restartSeek }
  else d.raiseFault m 3

/-- Whether tracking is lost (R151): slips on LOSS_BEAMS beams within 16 frames, or the coarse loop clamped for 200 samples. -/
def trackGone (d : Dev) (m : Mech) : Bool :=
  let n := popcount 16 (d.slipMask m)
  decide (0 < n ∧ d.get (Reg.SRV_TRK_CFG_LOSS_BEAMS m) ≤ n) ||
    (d.loopsOf m [2]).any (fun n => d.loopOn m n && decide (200 ≤ (d.mx m).srv.loops[n.val].clampRun))

/-- Tracking lost while a full calibration has it closed in FOCUSED: the loops are disabled, and the calibration closes tracking again, from
its step 2 (log entry 188). -/
def calTrackingLost (d : Dev) (m : Mech) : Dev :=
  let d := d.elogAdd (0x40 + m.val) 0x0A 0x0A04 [(16, 1, d.get (Reg.MCH_STATE_STATE m)), (18, 2, d.slipMask m)]
  let d := (d.count (Reg.SRV_OPT_EVT_TRK_LOSS m)).disableKinds m [1, 2, 5]
  ((d.set (Reg.SRV_OPT_STAT_CAL_STEP m) 2).enableTracking m).modOpt m fun x => { x with cal := .seekCal, slips := [] }

/-- Tracking lost (R87, R151, R154). -/
def trackingLoss (d : Dev) (m : Mech) : Dev :=
  let x := (d.mx m).opt
  if ¬ d.trackGone m ∨ ¬ d.on (Reg.SRV_OPT_STAT_TRACK_ON m) then d
  else if d.following m then d.trackingLost m (d.slipMask m)
  else if x.cal = .seekCal ∨ x.cal = .layer then d.calTrackingLost m
  else if x.seek = .settle ∨ x.cal = .quick then (d.count (Reg.SRV_OPT_EVT_TRK_LOSS m)).checkFailed m 0
  else d

/-! ### Seeks -/

/-- The short seek ends when its tracks have been crossed (R152 step 5). -/
def shortSeekDone (d : Dev) (m : Mech) : Dev :=
  if (d.mx m).opt.seek = .short ∧ (d.mx m).opt.tracks.natAbs ≤ d.crossings m then d.settleTrack m else d

/-- SLD rebases its position on the decoded swath (R222). -/
def sledResync (d : Dev) (m : Mech) (swath : Nat) : Dev :=
  let diff := d.sledTarget m swath - d.sledTarget m (d.sledSwath m)
  if (d.get (Reg.SLD_CFG2_RESYNC_LIM m) : Int) < diff.natAbs then
    let d := (d.modSld m fun x => { x with pos := x.pos + diff * ustep, phase := x.phase + diff }).count (Reg.SLD_RESYNC_COUNT m)
    ((d.setS (Reg.SLD_RESYNC_LAST m) (sat16 diff)).sldEvent m Reg.SLD_EVENT_RESYNC).sldPublish m
  else d

/-- On track at the target: TRACKING, after a quick calibration where the layer has had none since the spin-up (R165). -/
def onTrack (d : Dev) (m : Mech) : Dev :=
  if d.on (Reg.SRV_CAL_STAT_QUICK m (d.layer m)) then d.enterTracking m
  else (d.set (Reg.SRV_OPT_STAT_CAL_STEP m) 5).modOpt m fun x => { x with cal := .quick, seek := .none }

/-- A SEEK has named another layer since the jumps of this seek (R154): step 2 again. -/
def rejump (d : Dev) (m : Mech) : Dev := (d.applyLoops m .seeking).modOpt m fun x => { x with seek := .jump }

/-- The address check (R153, R222): the first groove address decoded after the settle, with groove start `k`. -/
def addressCheck (d : Dev) (m : Mech) (swath : Nat) (k : Beam) : Dev :=
  if (d.mx m).opt.seek = .settle ∧ swath ≤ 6874 then
    let any := decide (d.cmdOp m = 5)
    let t := d.get (Reg.SRV_SEEK_STAT_TARGET m)
    let b := d.lowBeam m
    let d := (d.set (Reg.SRV_SEEK_STAT_LAST_K m) k.val).modFsq m fun x => { x with addrCheck := false }
    let d := d.modOpt m fun x => { x with swath := swath }
    if d.mstate m = .seeking ∧ d.get (Reg.SRV_SEEK_STAT_TLAYER m) ≠ (d.layer m).val then d.rejump m
    else if k.val = b ∧ (swath = t ∨ any) then ((d.set (Reg.SRV_SEEK_STAT_TARGET m) swath).sledResync m swath).onTrack m
    else d.checkFailed m (((if any then (swath : Int) else (t : Int)) - (swath : Int)) * 16 + ((b : Int) - (k.val : Int)))
  else d

/-! ### Defects -/

/-- Publishes the defects in force (R155). -/
def defectSync (d : Dev) (m : Mech) : Dev :=
  let l := (d.mx m).opt.defects
  let mask := l.foldl (fun a x => if x.1 = .focus then a else a ||| defectBeams x.1) 0
  (d.set (Reg.SRV_DEF_ACTIVE_BEAM m) mask).setB (Reg.SRV_DEF_ACTIVE_FOCUS m) (l.any (fun x => decide (x.1 = .focus)))

/-- Loops keep their defect hold only while a held defect affects them. -/
def holdSync (d : Dev) (m : Mech) : Dev :=
  let l := (d.mx m).opt.defects
  (List.finRange 25).foldl (fun d n => match d.loopRec m n with
    | some r => d.modLoop m n fun x => { x with defHold := x.defHold && l.any (fun y => y.2.hold && defectHolds r y.1) }
    | none => d) d

/-- Whether a defect is watched: the focus loop is enabled, and a beam's defect is of a beam in use (R155). -/
def defectWatched (d : Dev) (m : Mech) (x : Defect) : Bool :=
  (d.loopsOf m [0]).any (fun n => d.loopOn m n) && (match x with
    | .focus => true
    | y => (defectBeams y &&& d.beamsInUse m) != 0)

/-- The affected loops enter defect hold (R156). -/
def holdLoops (d : Dev) (m : Mech) (x : Defect) : Dev :=
  (List.finRange 25).foldl (fun d n => match d.loopRec m n with
    | some r => if defectHolds r x ∧ d.loopOn m n then d.modLoop m n fun y => { y with defHold := true } else d
    | none => d) d

/-- Onset of a defect (R155, R156, R159), in the last frame: one that was not lost and that meets the onset condition. -/
def defectOnset (d : Dev) (m : Mech) (x : Defect) : Dev :=
  if d.defectWatched m x ∧ ¬ ((d.mx m).opt.defects.any (fun y => decide (y.1 = x))) ∧ (d.mx m).srv.lostRun = 0 ∧
      d.defectBegins m (d.mx m).opt.det.sv x then
    let f := (d.mx m).opt.frameCount
    let start := d.stampAt m (f - d.get (Reg.SRV_DEF_CFG2_PRE m))
    let d := match x with
      | .dropout b | .bright b => d.count (Reg.SRV_BEAM_DEF_CNT m b)
      | .focus => d
    let d := ((d.modOpt m fun y => { y with defects := (x, ⟨f, f, 0, start, true⟩) :: y.defects }).defectSync m).holdLoops m x
    let k := defectBeams x
    (d.dropGates m k).modSrv m fun y => { y with
      inhibit := y.inhibit ||| k
      okRun := Vector.ofFn (fun b => if tbit k b.val then 0 else y.okRun[b.val]) }
  else d

/-- End of a defect (R155, R157): two consecutive frames have met its end condition; its hint lasts to the frame before them. -/
def defectEnd (d : Dev) (m : Mech) (x : Defect) : Dev :=
  match (d.mx m).opt.defects.find? (fun y => decide (y.1 = x)) with
  | none => d
  | some y =>
    if y.2.clear < 2 then d
    else
      let d := (d.modOpt m fun z => { z with defects := z.defects.filter (fun w => decide (w.1 ≠ x)) }).defectSync m
      let d := d.holdSync m
      if d.mstate m = .writing then d
      else (d.hintSpan m (defectBeams x &&& d.beamsInUse m) y.2.last (defectCause x) y.2.start y.2.onset).handHints m

/-- DEF_MAX frames after onset (R156): the loops run again, the defect stays in force. -/
def defectHoldExpiry (d : Dev) (m : Mech) (x : Defect) : Dev :=
  let f := (d.mx m).opt.frameCount
  (d.modOpt m fun y => { y with defects := y.defects.map (fun w =>
    if w.1 = x ∧ w.2.onset + d.get (Reg.SRV_DEF_CFG2_DEF_MAX m) ≤ f then (w.1, { w.2 with hold := false }) else w) }).holdSync m

/-! ### Calibration -/

/-- Beams in use, as indexes. -/
def beamList (mask : Nat) : List Beam := (List.finRange 16).filter (fun b => tbit mask b.val)

/-- A beam that a calibration finds bad (R163, R271): logged; retired when AUTO_RETIRE is 1. -/
def flagBeam (d : Dev) (m : Mech) (b : Beam) (l : Layer) (reason : Nat) (retireIt : Bool) : Dev :=
  let d := d.elogAdd (0x40 + m.val) 0x0A 0x0A0D [(16, 1, b.val), (17, 1, l.val), (18, 1, reason)]
  if retireIt ∧ d.on (Reg.MCH_CTL_AUTO_RETIRE m) ∧ ¬ d.bit (Reg.MCH_BEAM_RETIRED m) b.val then
    (d.mchEvent m Reg.MCH_EVENT_RETIRED).retire m b.val
  else d

/-- Beams to be calibrated: those in use and those restored (R104). -/
def calBeams (d : Dev) (m : Mech) : Nat := andNot (d.get (Reg.MCH_BEAM_ENABLE m)) (d.get (Reg.MCH_BEAM_RETIRED m))

/-- Peak-to-peak raw tracking error of a beam in the runout measure. -/
def runoutPp (x : RunoutX) : Nat := min 65535 (x.hi - x.lo).toNat

/-- Whether a beam's amplitude is below a quarter of the mean of the other beams' (R163). -/
def lowPp (pp : List Nat) (bs : List Beam) (b : Beam) : Bool :=
  let others := (bs.filter (fun x => decide (x ≠ b))).map (fun x => pp.getD x.val 0)
  decide (4 * pp.getD b.val 0 * others.length < others.foldl (· + ·) 0)

/-- A gain that brings `n ÷ den` of full scale to 0x4000; a free value where no gain does (log entry 3). -/
def gainFor (d : Dev) (n den : Int) : Nat :=
  let g : Int := if den ≤ 0 then 0 else 268435456 * n / den
  if 0 < g ∧ g < 65536 then g.toNat else d.freeVal % 65536

/-- Writes what the runout measured of a beam into the set of a layer (R161 step 1): TE_GAIN so that half the peak-to-peak reads 0x4000,
TE_OFS the mean at that gain, BSUM_GAIN so that the mean beam sum reads 0x4000. -/
def runoutSet (d : Dev) (m : Mech) (l : Layer) (b : Beam) : Dev :=
  let y := (d.mx m).opt.meas.beams[b.val]
  let te := d.gainFor 2 (y.hi - y.lo)
  let bg := d.gainFor y.n y.bsum
  let mean : Int := if y.n = 0 then 0 else sat16 (y.sum * te / (y.n * 16384 : Nat))
  (d.setAll [(Reg.SRV_CAL_GAIN_TE_GAIN m l b, te), (Reg.SRV_CAL_TOFS_TE_OFS m l b, ofSigned 16 mean),
    (Reg.SRV_CAL_GAIN_BSUM_GAIN m l b, bg), (Reg.SRV_CAL_TOFS_PP m l b, runoutPp y)]).useFree

/-- Step 1 of R161 on a layer, whose 4 revolutions are over. A measure with fewer than half its samples on some beam is repeated once
(R163). -/
def calRunout (d : Dev) (m : Mech) (l : Layer) : Dev :=
  let bs := beamList (d.calBeams m)
  let x := (d.mx m).opt.meas
  if ¬ x.again ∧ bs.any (fun b => decide (2 * (x.beams[b.val]).n < x.total)) then d.modOpt m fun x => { x with meas := MeasX.empty true }
  else
    let pp := x.beams.toList.map runoutPp
    let d := (bs.foldl (fun d b => d.runoutSet m l b) d).modOpt m fun x => { x with meas := MeasX.empty false }
    let d := (bs.filter (lowPp pp bs)).foldl (fun d b => d.flagBeam m b l 1 true) (d.calSetp m l)
    if d.mstate m ≠ .focused then d
    else
      let known := d.get (Reg.SRV_OPT_STAT_LAYERS m)
      let found := if known ≠ 0 then known else (d.srec m 0x20).f 0 4 3
      if l.val + 1 < found then d.modOpt m fun x => { x with calLayer := ⟨(l.val + 1) % 4, Nat.mod_lt _ (by decide)⟩ }
      else d.calStep2 m (l.val + 1)

/-- Step 2 of R161 ends: the sled's move to the calibration zone is complete, and the loops are enabled again (R152 step 5). -/
def calSeekDone (d : Dev) (m : Mech) : Dev :=
  if d.get (Reg.SLD_STATE_MODE m) ≠ 1 ∨ ¬ d.on (Reg.SLD_STATE_HOMED m) then d
  else
    let l := d.layer m
    let s := d.calSwath m
    ((d.set (Reg.SRV_OPT_STAT_CAL_STEP m) 3).modOpt m fun x => { x with cal := .layer, calLayer := l, swath := s }).enableTracking m

/-- WS_SCALE of a beam's optimum power (R270 step 5), 0x4000 for 1.0. -/
def wsScale (pw opt excess : Nat) : Nat := opt * (100 + excess) * 16384 / (100 * max 1 pw)

/-- Write power calibration of a layer (R270, R271). -/
def calPower (d : Dev) (m : Mech) (l : Layer) (pair : Nat) (opt err : List (BitVec 16)) : Dev :=
  match (Img.ofType (d.msec m) 0x61).find? (fun r => decide (r.f 0 0 2 = l.val)) with
  | none => d
  | some w =>
    let bs := beamList (d.calBeams m)
    if 64 ≤ pair then
      let d := (d.setAll [(Reg.WCH_CAL_CURSOR m l, 64), (Reg.WCH_CAL_FULL m l, 1)]).evt (Reg.WCH_EVENT_CALZONE_FULL m) (Reg.WCH_EVENT_EN_EN m) (128 + m.val)
      (List.range 16).foldl (fun d b => d.headWrite m (0x200 + 0x10 * l.val + b) 0x4000) d
    else
      let d := d.set (Reg.WCH_CAL_CURSOR m l) (pair + 1)
      bs.foldl (fun d b =>
        let o := clampInt (w.f 4 0 16) (w.f 4 16 16) (opt.getD b.val 0).toNat
        let e := (err.getD b.val 0).toNat
        let d := d.setAll [(Reg.WCH_PW_PWOPT m l b, o.toNat), (Reg.WCH_PW_ERR m l b, e)]
        let d := d.headWrite m (0x200 + 0x10 * l.val + b.val) (wsScale (w.f 1 0 16) o.toNat (w.f 5 0 8))
        let d := if w.f 5 8 8 < e then
            (d.evt (Reg.WCH_EVENT_BEAM_POWER m) (Reg.WCH_EVENT_EN_EN m) (128 + m.val)).flagBeam m b l 2 true
          else d
        if o = (w.f 4 0 16 : Nat) ∨ o = (w.f 4 16 16 : Nat) then d.flagBeam m b l 3 false else d) d

/-- Step 3 of R161 on a layer. -/
def calLayerDone (d : Dev) (m : Mech) (l : Layer) (foc rt tt : BitVec 16) (pair : Nat) (opt err : List (BitVec 16)) : Dev :=
  let d := d.setAll [(Reg.SRV_CAL_FOC_FOC_OFS m l, foc.toNat), (Reg.SRV_CAL_TILT_RTILT_OFS m l, rt.toNat),
    (Reg.SRV_CAL_TILT_TTILT_OFS m l, tt.toNat)]
  let d := (d.calSetp m l).calPower m l pair opt err
  let d := (d.set (Reg.WCH_CAL_DONE m l) 1).evt (Reg.WCH_EVENT_CAL_DONE m) (Reg.WCH_EVENT_EN_EN m) (128 + m.val)
  if d.mstate m ≠ .focused then d
  else if l.val = 0 then (d.set (Reg.SRV_OPT_STAT_CAL_STEP m) 4).modOpt m fun x => { x with cal := .finish }
  else d.modOpt m fun x => { x with calLayer := ⟨(l.val - 1) % 4, Nat.mod_lt _ (by decide)⟩ }

/-- SRV_TEMP in whole degrees, as the calibration sets keep it. -/
def tempC (d : Dev) (m : Mech) : Nat := ofSigned 8 (d.getS (Reg.SRV_TEMP_TEMP m) / 16)

/-- Step 4 of R161; beams restored since come into use (R104). -/
def calFinish (d : Dev) (m : Mech) : Dev :=
  let n := d.get (Reg.SRV_OPT_STAT_LAYERS m)
  let t := d.tempC m
  let d := ((List.finRange 4).filter (fun l => decide (l.val < n))).foldl (fun d l =>
    d.setAll [(Reg.SRV_CAL_STAT_VALID m l, 1), (Reg.SRV_CAL_STAT_QUICK m l, 1), (Reg.SRV_CAL_STAT_TEMP m l, t)]) d
  let d := (d.disableKinds m [1, 2, 5]).setAll [(Reg.MCH_STATE_CAL_VALID m, 1), (Reg.SRV_OPT_STAT_CAL_STEP m, 0), (Reg.SRV_OPT_STAT_TRACK_ON m, 0)]
  let d := (d.modOpt m fun x => { x with cal := .none }).modMch m fun x => { x with restored := 0 }
  if d.cmdOp m = 4 then d.endCmd m 2 else d

/-- A step of the full calibration completes (R161–R163). -/
def calStep (d : Dev) (m : Mech) (r : CalResult) : Dev :=
  let x := (d.mx m).opt
  if d.mstate m ≠ .focused ∨ x.jump ≠ .none then d
  else match r with
  | .runout l => if x.cal = .runout ∧ l = d.layer m ∧ x.calLayer = l ∧ 4 ≤ x.meas.revs then d.calRunout m l else d
  | .seekDone => if x.cal = .seekCal then d.calSeekDone m else d
  | .layerDone l foc rt tt pair opt err =>
    if x.cal = .layer ∧ l = d.layer m ∧ x.calLayer = l ∧ d.spnClass m = 3 then d.calLayerDone m l foc rt tt pair opt err else d
  | .finish => if x.cal = .finish then d.calFinish m else d

/-- The results of a quick calibration (R165). -/
def quickSet (d : Dev) (m : Mech) (l : Layer) (foc rt : BitVec 16) : Dev :=
  let d := d.setAll [(Reg.SRV_CAL_FOC_FOC_OFS m l, foc.toNat), (Reg.SRV_CAL_TILT_RTILT_OFS m l, rt.toNat), (Reg.SRV_CAL_STAT_QUICK m l, 1)]
  if l = d.layer m then d.calSetp m l else d

/-- A quick calibration (R165): the one that a lock or a seek waits for, or those for a change of temperature, which end with the last
layer that is far. -/
def quickCal (d : Dev) (m : Mech) (l : Layer) (foc rt : BitVec 16) : Dev :=
  let x := (d.mx m).opt
  if x.cal = .quick ∧ l = d.layer m then
    let far := d.tempFar m l
    let d := (d.quickSet m l foc rt).set (Reg.SRV_OPT_STAT_CAL_STEP m) 0
    let d := if far then d.set (Reg.SRV_CAL_STAT_TEMP m l) (d.tempC m) else d
    (d.modOpt m fun y => { y with cal := .none }).enterTracking m
  else if x.cal = .warm ∧ d.tempFar m l then
    let d := (d.quickSet m l foc rt).set (Reg.SRV_CAL_STAT_TEMP m l) (d.tempC m)
    if (List.finRange 4).any (d.tempFar m) then d else (d.set (Reg.SRV_OPT_STAT_CAL_STEP m) 0).modOpt m fun y => { y with cal := .none }
  else d

end Dev

/-! ### Meanings -/

/-- FOCUS_CAPTURE (R144). -/
def execFocusCapture (m : Mech) (s : State) : Host.Outcome State Fault Refusal := liftMech m (fun d => d.focusCapture m) s
/-- FOCUS_ACQUIRED (R144, R146). -/
def execFocusAcquired (m : Mech) (s : State) : Host.Outcome State Fault Refusal := liftMech m (fun d => d.focusAcquired m) s
/-- FOCUS_SWEEP_FAIL (R145). -/
def execFocusSweepFail (m : Mech) (s : State) : Host.Outcome State Fault Refusal := liftMech m (fun d => d.focusSweepFail m) s
/-- LAYER_JUMP (R146). -/
def execLayerJump (m : Mech) (deeper : Bool) (s : State) : Host.Outcome State Fault Refusal := liftMech m (fun d => d.layerJump m deeper) s
/-- JUMP_CAPTURE (R146). -/
def execJumpCapture (m : Mech) (s : State) : Host.Outcome State Fault Refusal := liftMech m (fun d => d.jumpCapture m) s
/-- JUMP_TIMEOUT (R146, R162). -/
def execJumpTimeout (m : Mech) (s : State) : Host.Outcome State Fault Refusal := liftMech m (fun d => d.jumpTimeout m) s
/-- FOCUS_LOSS (R147). -/
def execFocusLoss (m : Mech) (s : State) : Host.Outcome State Fault Refusal := liftMech m (fun d => d.focusLoss m) s
/-- SLIP (R150). -/
def execSlip (m : Mech) (b : Beam) (s : State) : Host.Outcome State Fault Refusal := liftMech m (fun d => d.slip m b) s
/-- TRACKING_LOSS (R151). -/
def execTrackingLoss (m : Mech) (s : State) : Host.Outcome State Fault Refusal := liftMech m (fun d => d.trackingLoss m) s
/-- DEFECT_ONSET (R155). -/
def execDefectOnset (m : Mech) (x : Defect) (s : State) : Host.Outcome State Fault Refusal := liftMech m (fun d => d.defectOnset m x) s
/-- DEFECT_END (R155). -/
def execDefectEnd (m : Mech) (x : Defect) (s : State) : Host.Outcome State Fault Refusal := liftMech m (fun d => d.defectEnd m x) s
/-- DEFECT_HOLD_EXPIRY (R156). -/
def execDefectHoldExpiry (m : Mech) (x : Defect) (s : State) : Host.Outcome State Fault Refusal := liftMech m (fun d => d.defectHoldExpiry m x) s
/-- SHORT_SEEK_DONE (R152). -/
def execShortSeekDone (m : Mech) (s : State) : Host.Outcome State Fault Refusal := liftMech m (fun d => d.shortSeekDone m) s
/-- ADDRESS_CHECK (R153). -/
def execAddressCheck (m : Mech) (swath : Nat) (k : Beam) (s : State) : Host.Outcome State Fault Refusal := liftMech m (fun d => d.addressCheck m swath k) s
/-- CALIBRATION_STEP_DONE (R161). -/
def execCalibrationStepDone (m : Mech) (r : CalResult) (s : State) : Host.Outcome State Fault Refusal := liftMech m (fun d => d.calStep m r) s
/-- QUICK_CALIBRATION (R165). -/
def execQuickCalibration (m : Mech) (l : Layer) (focOfs rtilt : BitVec 16) (s : State) : Host.Outcome State Fault Refusal :=
  liftMech m (fun d => d.quickCal m l focOfs rtilt) s

end Sys2Proof.Machine
end

