-- ==== Sys2Proof/Machine/Spindle.lean ====
section
/-! DEFINITION. The spindle drive (R168–R199): sensing and prediction, torque bounds, direct torque control, six-step drive,
catch, brake and short brake, the chopper, the bus thresholds, the back-EMF check and spindle faults. -/
namespace Sys2Proof.Machine

/-! ### Vectors -/

/-- Leg states (A, B, C) of a voltage vector (R179). -/
def legsOf : Nat → Int × Int × Int
  | 1 => (1, 0, 0) | 2 => (1, 1, 0) | 3 => (0, 1, 0) | 4 => (0, 1, 1) | 5 => (0, 0, 1) | 6 => (1, 0, 1) | 7 => (1, 1, 1)
  | _ => (0, 0, 0)

/-- α and β of three phase values, in thousandths of their unit (R178 step 1, R13). -/
def clarke (a b c : Int) : Int × Int := ((2 * a - b - c) * 1000 / 3, (b - c) * 577350269 / 1000000)

/-- Sector of a flux vector (R178), 1 to 6; 173205081 ÷ 10^8 is √3. -/
def fluxSector (a b : Int) : Nat :=
  let x := a * 100000000
  let y := b * 173205081
  if 0 < x ∧ -x ≤ y ∧ y < x then 1
  else if 0 < x ∧ x ≤ y then 2
  else if x ≤ 0 ∧ -x < y then 3
  else if x < 0 ∧ y ≤ -x ∧ x < y then 4
  else if x < 0 ∧ y ≤ x then 5
  else if 0 ≤ x ∧ y < -x then 6
  else 1

/-- The active vector of R179 for a comparator pair in a sector: V of the sector moved by 1, 2, −1 or −2. -/
def activeVector (dpsi : Bool) (dtau : Int) (sector : Nat) : Nat :=
  let shift := if 0 < dtau then if dpsi then 1 else 2 else if dpsi then 5 else 4
  (sector - 1 + shift) % 6 + 1

/-- The zero vector of R180: the one that differs from the vector in force in fewer legs; a tie goes to V0. -/
def zeroVector (v : Nat) : Nat :=
  let l := legsOf v
  if l.1 + l.2.1 + l.2.2 ≥ 2 then 7 else 0

/-- The vector of the next step (R179, R180). -/
def nextVector (dpsi : Bool) (dtau : Int) (sector now : Nat) : Nat :=
  if dtau = 0 then zeroVector now else activeVector dpsi dtau sector

/-- Leg pair (high, low) of a conducting pair of the six-step drive (R181). -/
def pairLegs : Nat → Nat × Nat
  | 0 => (0, 1) | 1 => (0, 2) | 2 => (1, 2) | 3 => (1, 0) | 4 => (2, 0) | _ => (2, 1)

namespace Dev

/-! ### Sensing -/

/-- Bus voltage that SPN uses, 10 mV: a faulty bus stream counts as REGEN_V (R198). -/
def busV (d : Dev) (m : Mech) : Nat :=
  if (d.mx m).spn.busBad then d.get (Reg.SPN_THR1_REGEN_V m) else d.get (Reg.SPN_BUS_VBUS m)

/-- A bus-voltage output meets the chopper's thresholds (R189): on at or above CHOP_ON_V, off below CHOP_OFF_V. -/
def chopperSwitch (d : Dev) (m : Mech) (vbus : Nat) : Dev :=
  let d := d.set (Reg.SPN_BUS_VBUS m) (min 65535 vbus)
  if d.spnClass m = 7 ∨ d.on (Reg.SPN_STATE_CHOP_BAD m) then d
  else if d.get (Reg.SPN_THR0_CHOP_ON_V m) ≤ d.busV m then d.modPins m fun p => { p with chop := true }
  else if d.busV m < d.get (Reg.SPN_THR0_CHOP_OFF_V m) then d.modPins m fun p => { p with chop := false }
  else d

/-- The outputs of streams 6 and 7 over `ns` (R189, R190, R200): the bus voltage meets the chopper's thresholds, and the time that the chopper
current has stayed below CHOP_MIN_I with the chopper on runs. -/
def noteBus (d : Dev) (m : Mech) (i : MotorSample) (ns : Nat) : Dev :=
  let d := (d.chopperSwitch m i.vbus).set (Reg.SPN_BUS_ICHOP m) (min 65535 i.ichop)
  let low := (d.mx m).pins.chop && decide (i.ichop < d.get (Reg.SPN_CHOP_CFG_CHOP_MIN_I m))
  d.modSpn m fun x => { x with chopLow := if low then x.chopLow + ns else 0 }

/-- Span of a filter of decimation `dec` with the settle time, ns (R171, R172): a modulator clock is DIV cycles of 5 ns. -/
def filterSpan (d : Dev) (m : Mech) (dec : Nat) : Nat :=
  15 * dec * d.get (Reg.SPN_DSM_CFG_DIV m) + 10 * d.get (Reg.SPN_DSM_CFG_SETTLE m)

/-- Whether a current output `ns` after the start of a step is free of gate edges (R172). -/
def currentClear (d : Dev) (m : Mech) (ns : Nat) : Bool :=
  decide (d.filterSpan m (d.get (Reg.SPN_DSM_CFG_DEC_I m)) ≤ (d.mx m).spn.sinceEdge + ns)

/-- A step of `ns` ends, at which a leg switches or none does (R172). -/
def noteEdge (d : Dev) (m : Mech) (ns : Nat) (edge : Bool) : Dev :=
  d.modSpn m fun x => { x with sinceEdge := if edge then 0 else x.sinceEdge + ns }

/-- Back-EMF of the model, α and β in µV (R173): the flux of the estimate turned by 90°, times the electrical speed. -/
def emf (d : Dev) (m : Mech) : Int × Int :=
  let x := (d.mx m).spn
  let lam := d.fluxRef m
  let cs := cosSin x.ang
  let k (v : Int) : Int := lam * v * x.speed * ((d.srec m 0x50).f 0 16 4 : Nat) * (Img.piNum : Int) / (60 * 1000000 * 1073741824 * (Img.piDen : Int))
  (-(k cs.2), k cs.1)

/-- One interval of the motor model of R173: current µA, applied voltage µV, back-EMF µV, time in ns. -/
def predict (d : Dev) (m : Mech) (i v e : Int) (ns : Nat) : Int :=
  let r := d.srec m 0x50
  i + (v - (r.f 3 0 16 : Nat) * i / 1000 - e) * ns / (1000 * (max 1 (r.f 3 16 16) : Nat))

/-- The currents of a step, α and β in µA: measured when the output is clear of edges, or predicted and counted as a skip (R172, R173,
R198). -/
def currents (d : Dev) (m : Mech) (i : MotorSample) (clear : Bool) (vA vB : Int) (ns : Nat) : Dev :=
  if clear ∧ ¬ (d.mx m).spn.curBad then
    let c := clarke i.ia i.ib i.ic
    d.modSpn m fun x => { x with iAl := c.1, iBe := c.2, curSkips := 0 }
  else
    let e := d.emf m
    (d.count (Reg.SPN_SKIP_CNT_CUR m)).modSpn m fun x =>
      { x with iAl := d.predict m x.iAl vA e.1 ns, iBe := d.predict m x.iBe vB e.2 ns, curSkips := x.curSkips + 1 }

/-- Current of phase `l` from α and β, in their unit. -/
def phaseI (x : SpnX) (l : Nat) : Int :=
  let ib := (-x.iAl) / 2 + x.iBe * 866025404 / 1000000000
  if l = 0 then x.iAl else if l = 1 then ib else -(x.iAl + ib)

/-- The largest phase current, µA. -/
def peakI (x : SpnX) : Nat := max (phaseI x 0).natAbs (max (phaseI x 1).natAbs (phaseI x 2).natAbs)

/-! ### Torque -/

/-- Multiplies and divides, towards zero, by whole numbers. -/
def scaleI (v : Int) (n d : Nat) : Int := if d = 0 then v else Int.tdiv (v * n) d

/-- T* after the bounds of R177, Q15 of TQ_MAX, from a wanted torque `t`. -/
def boundTorque (d : Dev) (m : Mech) (t : Int) : Int :=
  let x := (d.mx m).spn
  let r := d.srec m 0x50
  let tq := max 1 (d.get (Reg.SPN_LIM1_TQ_MAX m))
  -- 1: the torque that I_MAX gives, 1.5 × POLE_PAIRS × λ_m × I_MAX, in units of TQ_MAX ÷ 32,768
  let lim : Int := 3 * (r.f 0 16 4 : Nat) * d.fluxRef m * (r.f 4 0 16 : Nat) * 32768 / (20000000000 * tq)
  let t := clampInt (-lim) lim t
  let brakes := decide (t * x.speed < 0)
  -- 2
  let lo := d.get (Reg.SPN_THR1_DERATE_V m)
  let hi := d.get (Reg.SPN_THR1_REGEN_V m)
  let v := d.busV m
  let t := if ¬ brakes ∨ v ≤ lo then t else if hi ≤ v then 0 else scaleI t (hi - v) (hi - lo)
  -- 3: T × ω at most LOSS_PCT of the loss; ω is π × speed ÷ 60, TQ_MAX is 10^7 pW·s a unit
  let t := if ¬ brakes ∨ ¬ d.on (Reg.SPN_STATE_LOSS_ONLY m) then t
    else
      let cap : Int := (x.loss * d.get (Reg.SPN_CHOP_CFG_LOSS_PCT m) * 60 * 32768 * Img.piDen / (100 * 10 * tq * (max 1 x.speed.natAbs) * Img.piNum) : Nat)
      clampInt (-cap) cap t
  -- 4
  if d.on (Reg.SPN_STATE_UV m) ∧ 0 ≤ t * x.speed then 0 else t

/-- The torque wanted in the present class: the loop's, that of BRAKE, or none in HOLD (R177, R191). -/
def wantedTorque (d : Dev) (m : Mech) : Int :=
  let x := (d.mx m).spn
  match d.spnClass m with
  | 4 => if x.speed = 0 then 0 else if 0 < x.speed then -32768 else 32768
  | 2 | 3 => x.tstar
  | _ => 0

/-- Torque of the present flux and currents, Q15 of TQ_MAX (R178 step 3). -/
def torqueNow (d : Dev) (m : Mech) : Int :=
  let x := (d.mx m).spn
  3 * ((d.srec m 0x50).f 0 16 4 : Nat) * (x.psiA * x.iBe - x.psiB * x.iAl) * 32768 / (20000000000000 * (max 1 (d.get (Reg.SPN_LIM1_TQ_MAX m)) : Nat))

/-! ### The 10 kHz sample -/

/-- What a 10 kHz sample adds to the dwells of R182, R183 and R196: the speed within BAND of r, and T* at TQ_MAX. -/
def noteDwell (d : Dev) (m : Mech) (ns : Nat) : Dev :=
  let r := d.getS (Reg.SPN_SPEED_REF m)
  d.modSpn m fun x =>
    let full := decide (32767 ≤ x.tstar.natAbs)
    { x with
      bandRun := if 1000 * (x.speed - r).natAbs ≤ d.get (Reg.SPN_REC_CFG_BAND m) * r.natAbs then x.bandRun + 1 else 0
      satRun := if full then x.satRun + 1 else 0
      start0 := match x.start0 with
        | some t => if full then some (t + ns) else none
        | none => none }

/-- Time passes in a class that keeps an estimate: loss and power of the step, and every 100 µs a spindle sample, at which the measured
values are published (R174, R190, R200). -/
def spnSample (d : Dev) (m : Mech) (ns : Nat) (vA vB : Int) : Dev :=
  let x := (d.mx m).spn
  let loss := 3 * (d.srec m 0x50).f 3 0 16 * (x.iAl * x.iAl + x.iBe * x.iBe).toNat / 2000000000
  let t := x.sampleNs + ns
  let sum := x.lossSum + loss * ns
  if t < 100000 then d.modSpn m fun x => { x with sampleNs := t, lossSum := sum }
  else
    let pp := max 1 ((d.srec m 0x50).f 0 16 4)
    let da := toSigned 32 (x.ang + 4294967296 - x.sampleAng)
    let n := da * 120000000000 / (4294967296 * (pp * t : Nat))
    let d := d.modSpn m fun x => { x with sampleNs := 0, lossSum := 0, loss := sum / t, sampleAng := x.ang }
    let d := (d.setSpeed m (if d.spnClass m = 3 then x.speed else n)).noteDwell m t
    let p := (3 * (vA * x.iAl + vB * x.iBe) / 2) / 10000000000
    ((d.setS (Reg.SPN_POWER_PMOT m) (sat16 p)).set (Reg.SPN_POWER_PLOSS m) (min 65535 (sum / t / 10000)))

/-- Moves the electrical angle to `a`, counts revolutions and publishes the angles; MECH may pass the index offset forward (R174). -/
def setAngle (d : Dev) (m : Mech) (a : Nat) : Dev :=
  let x := (d.mx m).spn
  let pp := max 1 ((d.srec m 0x50).f 0 16 4)
  let da := toSigned 32 (a + 4294967296 - x.ang)
  let revs := if 0 ≤ da ∧ a < x.ang then (x.elecRevs + 1) % pp else if da < 0 ∧ x.ang < a then (x.elecRevs + pp - 1) % pp else x.elecRevs
  let m0 := d.mechAngle m x.elecRevs x.ang
  let m1 := d.mechAngle m revs a
  let way := (d.get (Reg.SPN_INDEX_OFS m) + 65536 - m0) % 65536
  let passes := decide (0 < da ∧ 0 < way ∧ way ≤ (m1 + 65536 - m0) % 65536)
  (d.setAll [(Reg.SPN_POS_ELEC m, a / 65536), (Reg.SPN_POS_MECH m, m1)]).modSpn m fun x =>
    { x with ang := a, elecRevs := revs, indexDue := x.indexDue || passes }

/-! ### Direct torque control -/

/-- DTC period, ns. -/
def dtcNs (d : Dev) (m : Mech) : Nat := 1000 * d.get (Reg.SPN_DTC_CFG_PERIOD m)

/-- ψ_ref (R178 step 4). -/
def fluxWanted (d : Dev) (m : Mech) : Int :=
  if d.on (Reg.SPN_STATE_LOSS_ONLY m) then d.fluxRef m * (d.get (Reg.SPN_DTC_CFG_FLUX_BRAKE m) : Nat) / 100 else d.fluxRef m

/-- Flux integration with its 1 Hz drift correction (R178 step 2). -/
def fluxStep (d : Dev) (m : Mech) (vA vB : Int) : Dev :=
  let x := (d.mx m).spn
  if x.voltBad then d
  else
    let r : Int := ((d.srec m 0x50).f 3 0 16 : Nat)
    let us : Int := (d.get (Reg.SPN_DTC_CFG_PERIOD m) : Nat)
    let a := x.psiA + (vA - r * x.iAl / 1000) * us
    let b := x.psiB + (vB - r * x.iBe / 1000) * us
    let mag : Int := (isqrt (a * a + b * b).toNat : Nat)
    let pull (v : Int) : Int := if mag = 0 then 0 else v * (d.fluxRef m - mag) * (2 * us * (Img.piNum : Int)) / (mag * 1000000 * (Img.piDen : Int))
    let ref := d.fluxWanted m
    let off := decide (600 ≤ x.speed.natAbs ∧ (d.spnClass m = 2 ∨ d.spnClass m = 4) ∧ (2 * mag < ref ∨ 3 * ref < 2 * mag))
    let d := d.modSpn m fun x => { x with psiA := a + pull a, psiB := b + pull b, fluxBad := if off then x.fluxBad + d.dtcNs m else 0 }
    let x := (d.mx m).spn
    d.setAngle m (angleOf x.psiA x.psiB)

/-- The comparators of R178 step 4. -/
def comparators (d : Dev) (m : Mech) (tref : Int) : Dev :=
  let x := (d.mx m).spn
  let lam := d.fluxRef m
  let hys := lam * (d.get (Reg.SPN_DTC_CFG_FLUX_HYS m) : Nat) / 1000
  let err := d.fluxWanted m - (isqrt (x.psiA * x.psiA + x.psiB * x.psiB).toNat : Nat)
  let dpsi := if hys < err then true else if err < -hys then false else x.dpsi
  let te := tref - d.torqueNow m
  let th : Int := (32768 * d.get (Reg.SPN_DTC_CFG_TQ_HYS m) / 1000 : Nat)
  let dtau : Int := if th < te then 1 else if te < -th then -1
    else if 0 < x.dtau ∧ te ≤ 0 then 0 else if x.dtau < 0 ∧ 0 ≤ te then 0 else x.dtau
  d.modSpn m fun x => { x with dpsi := dpsi, dtau := dtau }

/-- The observer of a step (R174, R178 steps 1 and 2), in every class that drives, brakes or coasts: currents, flux, angle and speed, from
the voltage `vA`, `vB` (µV) applied since the last step. -/
def observe (d : Dev) (m : Mech) (i : MotorSample) (vA vB : Int) : Dev :=
  let ns := d.dtcNs m
  let d := d.currents m i (d.currentClear m ns) vA vB ns
  let v := clarke i.va i.vb i.vc
  (d.fluxStep m (v.1 * 10) (v.2 * 10)).spnSample m ns (v.1 * 10) (v.2 * 10)

/-- The observer with the gates as the measured voltages show them: off, or shorted. -/
def observeFree (d : Dev) (m : Mech) (i : MotorSample) : Dev :=
  let v := clarke i.va i.vb i.vc
  (d.observe m i (v.1 * 10) (v.2 * 10)).noteEdge m (d.dtcNs m) false

/-- An output of the back-EMF vector with the gates off (R185, R194). -/
def emfStep (d : Dev) (m : Mech) (i : MotorSample) : Dev :=
  if (d.mx m).spn.voltBad then d
  else
    let v := clarke i.va i.vb i.vc
    let a := angleOf v.1 v.2
    let pk := (isqrt (3 * (v.1 * v.1 + v.2 * v.2)).toNat)
    let ns := d.dtcNs m
    d.modSpn m fun x =>
      let e := x.emf
      { x with emf :=
        { ns := if e.n = 0 then 0 else e.ns + ns
          n := e.n + 1
          ang := a
          turned := if e.n = 0 then 0 else e.turned + toSigned 32 (a + 4294967296 - e.ang)
          peaks := e.peaks + pk
          quiet := e.quiet && decide (i.ia.natAbs < 50 ∧ i.ib.natAbs < 50 ∧ i.ic.natAbs < 50) } }

/-- Applies a voltage vector until the next step; a change of it is a gate edge. -/
def applyVector (d : Dev) (m : Mech) (v : Nat) : Dev :=
  ((d.noteEdge m (d.dtcNs m) (decide (legsOf v ≠ legsOf (d.mx m).spn.vector))).modSpn m fun x => { x with vector := v }).modPins m fun p =>
    { p with gates := .driven }

/-- α and β of the vector in force, µV, from the bus voltage. -/
def vectorV (d : Dev) (m : Mech) : Int × Int :=
  let l := legsOf (d.mx m).spn.vector
  let ap := clarke l.1 l.2.1 l.2.2
  (ap.1 * (d.busV m : Int) * 10, ap.2 * (d.busV m : Int) * 10)

/-- One step of direct torque control (R177–R180). A phase current at I_MAX has the step take the zero vector: how the current is held within
I_MAX the spec does not say (DESIGN CHOICE, log entry 190). -/
def dtcRun (d : Dev) (m : Mech) (i : MotorSample) : Dev :=
  let ap := d.vectorV m
  let s0 := fluxSector (d.mx m).spn.psiA (d.mx m).spn.psiB
  let d := d.observe m i ap.1 ap.2
  let t := d.boundTorque m (d.wantedTorque m)
  let d := (d.setS (Reg.SPN_TORQUE_TREF m) (sat16 t)).setS (Reg.SPN_TORQUE_TEST m) (sat16 (d.torqueNow m))
  let d := d.comparators m t
  let x := (d.mx m).spn
  let sec := fluxSector x.psiA x.psiB
  let v := if 1000 * (d.srec m 0x50).f 4 0 16 ≤ peakI x then zeroVector x.vector else nextVector x.dpsi x.dtau sec x.vector
  (d.applyVector m v).modSpn m fun x => { x with sectorEdge := decide (sec ≠ s0) }

/-- One step of the flux build of case 0 (R186): V1 while the current is below I_MAX ÷ 2. -/
def fluxBuildRun (d : Dev) (m : Mech) (i : MotorSample) : Dev :=
  let ap := d.vectorV m
  let d := d.currents m i (d.currentClear m (d.dtcNs m)) ap.1 ap.2 (d.dtcNs m)
  d.applyVector m (if peakI (d.mx m).spn < 500 * (d.srec m 0x50).f 4 0 16 then 1 else 0)

/-- Steps 2 and 4 of R188 in SHORT_BRAKE: the short is released above I_SHORT_MAX until the currents fall below half of it; a bus at
DERATE_V ends a release. A release measures the speed (R185). -/
def shortRun (d : Dev) (m : Mech) (i : MotorSample) : Dev :=
  let d := d.observeFree m i
  let d := if (d.mx m).spn.releasing then d.emfStep m i else d
  let lim := 1000 * d.get (Reg.SPN_SHORT_CFG_I_SHORT_MAX m)
  let x := (d.mx m).spn
  let pk := peakI x
  let rel := x.releasing && !decide (d.get (Reg.SPN_THR1_DERATE_V m) ≤ d.busV m)
  let excess := if x.released then !decide (2 * pk < lim) else !x.releasing && decide (lim < pk)
  let off := rel || excess
  let d := if off = ((d.mx m).pins.gates == .off) then d else d.noteEdge m 0 true
  ((d.modSpn m fun x => { x with releasing := rel, released := excess }).setB (Reg.SPN_STATE_SHORT m) (!off)).modPins m fun p =>
    { p with gates := if off then .off else .lowSides }

/-- A step of HOLD that coasts, or that shorts the motor (R191): the gates stay as HOLD has them. -/
def holdRun (d : Dev) (m : Mech) (i : MotorSample) : Dev :=
  let short := d.on (Reg.SPN_STATE_SHORT m)
  (d.observeFree m i).modPins m fun p => { p with gates := if short then .lowSides else .off }

/-- An absorber that has begun to generate, or whose ABSORB_EN has cleared, is none (R192). -/
def endAbsorb (d : Dev) (m : Mech) : Dev :=
  let x := (d.mx m).spn
  if x.tstar * x.speed < 0 ∨ ¬ d.on (Reg.SPN_ABSORB_CFG_ABSORB_EN m) then d.set (Reg.SPN_STATE_ABSORB m) 0 else d

/-- One DTC step by class (R178, R185, R186, R188, R191, R194). -/
def dtcStep (d : Dev) (m : Mech) (i : MotorSample) : Dev :=
  let c := d.spnClass m
  if c = 0 ∨ c = 3 ∨ c = 7 then d
  else
    let d := d.noteBus m i (d.dtcNs m)
    let x := (d.mx m).spn
    if c = 1 then d.emfStep m i
    else if c = 5 then d.shortRun m i
    else if c = 6 ∧ (x.coast ∨ d.on (Reg.SPN_STATE_SHORT m)) then d.holdRun m i
    else if x.fluxBuild then d.fluxBuildRun m i
    else if x.window ≠ .none then ((d.observeFree m i).emfStep m i).modPins m fun p => { p with gates := .off }
    else (d.dtcRun m i).endAbsorb m

/-! ### Six-step drive -/

/-- The conducting pair of an electrical angle (R181): sectors of 60° whose middle is the zero crossing of the released phase, moved
back by ADVANCE. -/
def pairOf (d : Dev) (m : Mech) (ang : Nat) : Nat :=
  let a := ang + 1073741824 + 4294967296 - d.get (Reg.SPN_REC_CFG_ADVANCE m) * 11930465
  (a % 4294967296 / 715827883 + 1) % 6

/-- The released phase of the conducting pair. -/
def releasedLeg (c : Nat) : Nat := 3 - (pairLegs c).1 - (pairLegs c).2

/-- A zero crossing of the released phase (R172, R173, R181): the angle is that of the crossing, the speed that of the time since the last
one; the commutation falls 30° + ADVANCE later, as `pairOf` has it. A crossing is rejected, and placed where the estimate expects it, when an
edge of the released leg spoils it or its phase still carries 50 mA. BEMF_SKIP_MAX rejected in a row hand back (R183 cause 3). -/
def commutation (d : Dev) (m : Mech) (rejected : Bool) : Dev :=
  if d.spnClass m ≠ 3 then d
  else
    let x := (d.mx m).spn
    let rejected := rejected || decide (50000 ≤ (phaseI x (releasedLeg x.conduct)).natAbs)
    let pp := max 1 ((d.srec m 0x50).f 0 16 4)
    let dt := d.now - x.crossAt
    let d := d.setAngle m ((2863311531 + 715827883 * x.conduct) % 4294967296)
    let d := if rejected ∨ dt = 0 then d else d.setSpeed m (20000000000 / (pp * dt) : Nat)
    let d := if rejected then d.count (Reg.SPN_SKIP_CNT_BEMF m) else d
    let d := d.modSpn m fun y => { y with crossAt := d.now, bemfSkips := if rejected then y.bemfSkips + 1 else 0 }
    if rejected then d.handbackCause m 3 else d

/-- PWM period, ns. -/
def pwmNs (d : Dev) (m : Mech) : Nat := 1000000 / max 1 ((d.srec m 0x50).f 9 0 16)

/-- The share of the duty that a leg coming in has at `p` of `r` of the ramp (R181), Q16: raised cosine or linear. -/
def rampShare (d : Dev) (m : Mech) (p r : Nat) : Nat :=
  if r = 0 ∨ r ≤ p then 65536
  else if d.on (Reg.SPN_REC_CFG_SHAPE m) then ((1073741824 - (cosSin (p * 2147483648 / r)).1) / 32768).toNat
  else p * 65536 / r

/-- Whether leg `l` conducts in pair `c`. -/
def inPair (c l : Nat) : Bool := (pairLegs c).1 == l || (pairLegs c).2 == l

/-- Duty of leg `l` at the present angle (R181): ramps over RAMP_DEG centred on the commutation angles. -/
def legDuty (d : Dev) (m : Mech) (duty l : Nat) : Nat :=
  let x := (d.mx m).spn
  let a := (x.ang + 1073741824 + 4294967296 - d.get (Reg.SPN_REC_CFG_ADVANCE m) * 11930465) % 4294967296
  let c := (a / 715827883 + 1) % 6
  let p := a % 715827883
  let r := d.get (Reg.SPN_REC_CFG_RAMP_DEG m) * 11930465
  let prev := (c + 5) % 6
  let next := (c + 1) % 6
  let share :=
    if p < r / 2 then
      let s := d.rampShare m (p + r / 2) r
      if inPair c l then if inPair prev l then 65536 else s else if inPair prev l then 65536 - s else 0
    else if 715827883 - p ≤ r / 2 then
      let s := d.rampShare m (p + r / 2 - 715827883) r
      if inPair c l then if inPair next l then 65536 else 65536 - s else if inPair next l then s else 0
    else if inPair c l then 65536 else 0
  duty * share / 65536

/-- The regulator of the conducting pair (R181): reference and current in mA, voltage × 2^12, duty in Q16. -/
def regulate (d : Dev) (m : Mech) (tref cur : Int) : Dev × Nat :=
  let r := d.srec m 0x50
  let x := (d.mx m).spn
  let ke : Int := max 1 (d.get (Reg.SPN_LIM1_KE m)) 
  let iref := tref * (d.get (Reg.SPN_LIM1_TQ_MAX m) : Nat) * 1047197551 / (32768 * ke * 1000000)
  let vbus : Int := (d.busV m : Nat)
  let top := vbus * 4096 / 100
  let err := iref - cur
  let integ := clampInt (-top) top (x.integ + toSigned 16 (r.f 10 16 16) * err * (d.pwmNs m : Nat) / 1000000000)
  let ff := ke * x.speed * 4096 / 2000000
  let v := toSigned 16 (r.f 10 0 16) * err / 1000 + integ + ff
  let duty := if top ≤ 0 then 0 else (clampInt 0 65536 (v * 65536 / top)).toNat
  (d.modSpn m fun x => { x with integ := integ }, duty)

/-- Current of the conducting pair, mA, from α and β. -/
def pairCurrent (x : SpnX) : Int :=
  let p := pairLegs x.conduct
  (phaseI x p.1 - phaseI x p.2) / 2000

/-- Whether the sample at the centre of a PWM period is free of edges (R172): a leg that switches has its edges half of its duty away. -/
def centreClear (d : Dev) (m : Mech) : Bool :=
  let span := d.filterSpan m (d.get (Reg.SPN_DSM_CFG_DEC_I m))
  (d.mx m).spn.duties.all (fun q => decide (q = 0 ∨ 65536 ≤ q ∨ span ≤ q * d.pwmNs m / 131072))

/-- One PWM period of the recording class (R172, R173, R177, R181). -/
def pwmPeriod (d : Dev) (m : Mech) (i : MotorSample) : Dev :=
  if d.spnClass m ≠ 3 then d
  else
    let d := d.noteBus m i (d.pwmNs m)
    let x := (d.mx m).spn
    let ns := d.pwmNs m
    let p := pairLegs x.conduct
    let q (l : Nat) : Int := if l = p.1 then (x.duties.getD l 0 : Nat) else if l = p.2 then -((x.duties.getD l 0 : Nat) : Int) else 0
    let ap := clarke (q 0) (q 1) (q 2)
    let vb : Int := (d.busV m : Nat)
    let d := d.currents m i (d.centreClear m) (ap.1 * vb * 10 / 131072) (ap.2 * vb * 10 / 131072) ns
    let pp := (d.srec m 0x50).f 0 16 4
    let step := x.speed * (pp : Nat) * (ns : Nat) * 4294967296 / 120000000000
    let d := d.setAngle m ((((x.ang : Nat) : Int) + step) % 4294967296).toNat
    let d := d.modSpn m fun y => { y with conduct := d.pairOf m y.ang }
    let v := clarke i.va i.vb i.vc
    let d := d.spnSample m ns (v.1 * 10) (v.2 * 10)
    let t := d.boundTorque m (d.wantedTorque m)
    let cur := pairCurrent (d.mx m).spn
    let tq : Int := max 1 (d.get (Reg.SPN_LIM1_TQ_MAX m))
    let test := cur * 32768 * (d.get (Reg.SPN_LIM1_KE m) : Nat) * 1000000 / (tq * 1047197551)
    let (d, duty) := d.regulate m t cur
    let d := (d.setS (Reg.SPN_TORQUE_TREF m) (sat16 t)).setS (Reg.SPN_TORQUE_TEST m) (sat16 test)
    ((d.modSpn m fun y => { y with duties := [d.legDuty m duty 0, d.legDuty m duty 1, d.legDuty m duty 2] }).modPins m fun p =>
      { p with gates := .driven }).endAbsorb m

/-- Whether the conditions of R182 hold: a running state, the dwell in band, KE good, no coast window open, and the flux at a sector
boundary. -/
def handoverDue (d : Dev) (m : Mech) : Bool :=
  let x := (d.mx m).spn
  d.running m && !d.on (Reg.SPN_STATE_KE_BAD m) && x.sectorEdge &&
    decide (d.spnClass m = 2 ∧ x.window = .none ∧ ¬ x.fluxBuild ∧ 100 * d.get (Reg.SPN_REC_CFG_HANDOVER m) ≤ x.bandRun)

/-- Hand-over (R182): the duty is preset so that the pair's current equals the present one. -/
def handover (d : Dev) (m : Mech) : Dev :=
  if d.handoverDue m then
    let d := d.setAll [(Reg.SPN_STATE_CLASS m, 3), (Reg.MCH_STATE_RECORDING_CLASS m, 1)]
    let d := (d.modSpn m fun x => { x with conduct := d.pairOf m x.ang, bemfSkips := 0, satRun := 0, crossAt := d.now, handbackDue := none, duties := [] })
    let cur := pairCurrent (d.mx m).spn
    let d := d.modSpn m fun x => { x with integ := 2 * ((d.srec m 0x50).f 3 0 16 : Nat) * cur * 4096 / 1000000 }
    d.spnEvent m Reg.SPN_EVENT_HANDOVER
  else d

/-! ### Catch and brake -/

/-- The catch window ends (R185–R187), with the speed and direction of the back-EMF vector. -/
def catchEnd (d : Dev) (m : Mech) : Dev :=
  if d.spnClass m = 1 then
    let n := d.emfSpeed m
    let a := (d.mx m).spn.emf.ang
    if d.mstate m = .spinningUp then d.spnAfterCatch m n true a
    else
      let d := d.spnAfterDownCatch m n a
      if d.spnClass m = 0 ∧ d.mstate m = .fault then d.sldPark m else d
  else d

/-- The flux build of case 0 ends (R186): the observer starts at 0° with magnitude λ_m, and the 500 ms of R196 begin. -/
def fluxBuildDone (d : Dev) (m : Mech) : Dev :=
  if d.spnClass m = 2 ∧ (d.mx m).spn.fluxBuild then
    (d.modSpn m fun x => { x with fluxBuild := false, start0 := some 0 }).startObserver m 0
  else d

/-- The spindle comes to rest under braking (R86, R175): OFF, or case 0 for a mechanism that is spinning up. In FAULT the sled then
parks. -/
def spnStopped (d : Dev) (m : Mech) : Dev :=
  if d.mstate m = .spinningUp then d.spnAfterCatch m 0 false 0
  else
    let d := d.spnEnter m 0
    if d.mstate m = .fault then d.sldPark m else d

/-- BRAKE reaches |speed| < 30 rpm (R175). -/
def brakeStop (d : Dev) (m : Mech) : Dev :=
  if d.spnClass m = 4 ∧ (d.mx m).spn.speed.natAbs < 60 then d.spnStopped m else d

/-- Step 3 of R188: the gates are off, and a measurement of the speed begins. -/
def shortOnEnd (d : Dev) (m : Mech) : Dev :=
  if d.spnClass m = 5 ∧ ¬ (d.mx m).spn.releasing then
    ((d.set (Reg.SPN_STATE_SHORT m) 0).modSpn m fun x => { x with releasing := true, released := false, emf := EmfX.reset, sinceEdge := 0 }).modPins m fun p =>
      { p with gates := .off }
  else d

/-- Step 5 of R188: below the exit speed SPN leaves SHORT_BRAKE, otherwise it returns to step 1. -/
def shortReleaseEnd (d : Dev) (m : Mech) : Dev :=
  let x := (d.mx m).spn
  if d.spnClass m ≠ 5 ∨ ¬ x.releasing then d
  else
    let n := d.emfSpeed m
    let exitAt := if x.comFail then 60 else 2 * d.get (Reg.SPN_LIM0_BACK_THR m)
    let d := d.setSpeed m n
    if n.natAbs < exitAt then
      if x.comFail ∨ n.natAbs < 60 then d.spnStopped m
      else if d.mstate m = .spinningUp then d.spnAfterCatch m n true x.emf.ang
      else ((d.spnEnter m 4).setSpeed m n).startObserver m (rotorAngle (decide (0 < n)) x.emf.ang)
    else
      ((d.set (Reg.SPN_STATE_SHORT m) 1).modSpn m fun y => { y with releasing := false, released := false, sinceEdge := 0 }).modPins m fun p =>
        { p with gates := .lowSides }

/-! ### Chopper -/

/-- The record of a chopper fault (R190, R198). -/
def chopBad (d : Dev) (m : Mech) : Dev :=
  let d := d.setAll [(Reg.SPN_STATE_CHOP_BAD m, 1), (Reg.SPN_STATE_LOSS_ONLY m, 1)]
  ((d.spnEvent m Reg.SPN_EVENT_CHOP).vlogAdd (0x20 + m.val) 0x0503 4 [(0, 1, 7)]).modPins m fun p => { p with chop := false }

/-- A chopper fault (R190): stream 7 has read below CHOP_MIN_I for CHOP_DET µs with the chopper commanded on. -/
def chopperFault (d : Dev) (m : Mech) : Dev :=
  if (d.mx m).pins.chop ∧ ¬ d.on (Reg.SPN_STATE_CHOP_BAD m) ∧ 1000 * d.get (Reg.SPN_CHOP_CFG_CHOP_DET m) ≤ (d.mx m).spn.chopLow then d.chopBad m
  else d

/-! ### The bus -/

/-- DC bus segment of a mechanism (R168). -/
def busSeg (d : Dev) (m : Mech) : Nat := (d.srec m 0x50).f 0 20 4

/-- The mechanisms on the segment of `m`, itself among them. -/
def segment (d : Dev) (m : Mech) : List Mech :=
  (List.finRange 16).filter (fun k => decide (k = m) || (d.present k && d.present m && d.busSeg k == d.busSeg m))

/-- Logs a step of R191 (R511). -/
def busLog (d : Dev) (m : Mech) (step : Nat) : Dev :=
  d.elogAdd (0x40 + m.val) 0x0A 0x0A08 [(16, 1, step), (17, 1, d.spnClass m), (18, 2, d.get (Reg.SPN_BUS_VBUS m))]

/-- Line peak of the back-EMF, 10 mV. -/
def emfPeak (d : Dev) (m : Mech) : Nat := d.get (Reg.SPN_LIM1_KE m) * (d.mx m).spn.speed.natAbs / 20000

/-- Whether SPN is generating (R191): it brakes, or the loop's torque opposes the rotation, or a release of SHORT_BRAKE lets the
back-EMF exceed the bus. -/
def generating (d : Dev) (m : Mech) : Bool :=
  let x := (d.mx m).spn
  match d.spnClass m with
  | 4 => true
  | 2 | 3 => decide (x.tstar * x.speed < 0)
  | 5 => x.releasing && decide (d.busV m < d.emfPeak m)
  | _ => false

/-- Step 2 of R191. -/
def enterHold (d : Dev) (m : Mech) : Dev :=
  let braking := decide (d.spnClass m = 4 ∨ d.spnClass m = 5)
  let coast := (d.srec m 0x50).f 0 24 1 == 1 && decide (d.emfPeak m + 200 ≤ d.busV m)
  let d := ((d.busLog m 2).spnEnter m 6).modSpn m fun x => { x with wasBraking := braking, coast := coast }
  let d := d.modPins m fun p => { p with gates := if coast then .off else .driven }
  if braking then d.raiseFault m 5 else d

/-- Step 3 of R191, R192. -/
def absorb (d : Dev) (m : Mech) : Dev :=
  if (d.loopsOf m [6]).any (fun n => d.loopOn m n) ∧ d.on (Reg.SPN_ABSORB_CFG_ABSORB_EN m) then
    ((d.busLog m 3).set (Reg.SPN_STATE_ABSORB m) 1).spnEvent m Reg.SPN_EVENT_ABSORB_RX
  else d

/-- Whether SPN of a mechanism takes part: its partition is not IN_RESET. -/
def spnLive (d : Dev) (m : Mech) : Bool := !d.mechInReset m && d.spnClass m != 7

/-- The bus reaches REGEN_V on `m` (R191, R192). -/
def regenEvent (d : Dev) (m : Mech) : Dev :=
  let seg := (d.segment m).filter d.spnLive
  let gen := seg.filter d.generating
  let d := (d.spnEvent m Reg.SPN_EVENT_REGEN).busLog m 1
  let d := if gen = [] then d.vlogAdd (0x20 + m.val) 0x0505 0 else gen.foldl (fun d k => d.enterHold k) d
  (seg.filter (fun k => !gen.contains k)).foldl (fun d k => d.absorb k) d

/-- Step 4 of R191. -/
def shortV (d : Dev) (m : Mech) : Dev :=
  let d := d.spnEvent m Reg.SPN_EVENT_SHORT
  if d.spnClass m = 6 then
    ((d.busLog m 4).set (Reg.SPN_STATE_SHORT m) 1).modPins m fun p => { p with gates := .lowSides }
  else d

/-- Step 5 of R191. -/
def gatesOffV (d : Dev) (m : Mech) : Dev := ((d.spnEvent m Reg.SPN_EVENT_GATESOFF).busLog m 5).raiseFault m 16

/-- Step 6 of R191 and the end of the raise of R192, for one mechanism. -/
def holdEnd (d : Dev) (m : Mech) : Dev :=
  let d := d.set (Reg.SPN_STATE_ABSORB m) 0
  if d.spnClass m = 6 then
    let x := (d.mx m).spn
    let d := ((d.busLog m 6).spnEnter m (if x.wasBraking then 4 else 2)).modSpn m fun y => { y with wasBraking := false }
    d
  else d

/-- The bus of the segment has stayed below REGEN_V − 2 V for HOLD_MS (R191, R192). -/
def busRelease (d : Dev) (m : Mech) : Dev := ((d.segment m).filter d.spnLive).foldl (fun d k => d.holdEnd k) d

/-- The UV comparator asserts (R183, R193, R219). -/
def undervoltage (d : Dev) (m : Mech) : Dev :=
  let d := (d.set (Reg.SPN_STATE_UV m) 1).spnEvent m Reg.SPN_EVENT_UV
  (d.handback m 6).sldUndervolt m

/-! ### Faults -/

/-- Whether commutation has failed (R196): the flux out of bounds for 10 ms, a case 0 start still below 30 rpm after 500 ms, 64 skipped samples, or
eight trips within 1 ms. -/
def commBad (d : Dev) (m : Mech) : Bool :=
  let x := (d.mx m).spn
  decide (10000000 ≤ x.fluxBad) || (match x.start0 with
    | some t => decide (500000000 ≤ t ∧ x.speed.natAbs < 60)
    | none => false) || decide (64 ≤ x.curSkips) || decide (8 ≤ (x.trips.filter (fun t => decide (d.now < t + 1000000))).length)

/-- SPINDLE_FAULT for a commutation failure, and SHORT_BRAKE in place of direct torque control (R196). -/
def commFail (d : Dev) (m : Mech) : Dev :=
  let d := (d.spnEvent m Reg.SPN_EVENT_COMM_FAIL).raiseFault m 6
  let c := d.spnClass m
  if c = 0 ∨ c = 7 then d else (if c = 5 then d else d.spnEnter m 5).modSpn m fun x => { x with comFail := true, curSkips := 0, trips := [] }

/-- COMMUTATION_FAILURE (R196), in a class that keeps an estimate. -/
def commFailure (d : Dev) (m : Mech) : Dev := if d.spnClass m ≠ 0 ∧ d.spnClass m ≠ 7 ∧ d.commBad m then d.commFail m else d

/-- UV has stayed asserted for 1 s in a running state (R193, R196). -/
def uvTimeout (d : Dev) (m : Mech) : Dev :=
  if d.on (Reg.SPN_STATE_UV m) ∧ d.running m then
    if d.spnClass m ≠ 0 ∧ d.spnClass m ≠ 7 then d.commFail m else d.raiseFault m 6
  else d

/-- A protection-filter output of `cur` mA (R197): above I_TRIP the gates are off for the rest of the period. -/
def overcurrent (d : Dev) (m : Mech) (cur : Nat) : Dev :=
  let c := d.spnClass m
  if c = 0 ∨ c = 7 ∨ cur ≤ (d.srec m 0x50).f 4 16 16 then d
  else
    let d := (d.spnEvent m Reg.SPN_EVENT_OC).count (Reg.SPN_FAULT_CNT_OC m)
    (d.modSpn m fun x => { x with sinceEdge := 0, trips := d.now :: x.trips.filter (fun t => decide (d.now < t + 1000000)) }).modPins m fun p =>
      { p with gates := .off }

/-- A modulator stream is stuck or saturated (R198). -/
def streamFault (d : Dev) (m : Mech) (k : Nat) : Dev :=
  let code := if k ≤ 2 ∨ k = 7 then 0x0501 else if k = 6 then 0x0506 else 0x0502
  let d := (d.spnEvent m Reg.SPN_EVENT_STREAM).vlogAdd (0x20 + m.val) code 4 [(0, 1, k)]
  if k ≤ 2 then d.modSpn m fun x => { x with curBad := true }
  else if k = 7 then if d.on (Reg.SPN_STATE_CHOP_BAD m) then d else d.chopBad m
  else if k = 6 then
    let d := d.modSpn m fun x => { x with busBad := true }
    (d.chopperSwitch m (d.get (Reg.SPN_BUS_VBUS m))).raiseFault m 6
  else (d.modSpn m fun x => { x with voltBad := true }).raiseFault m 6

/-- The KE of a window, mV per 1,000 rpm (R194): the mean line-to-line peak divided by the speed; none with a phase current of 50 mA, no output, or a
speed below KE_MIN. -/
def keOf (d : Dev) (m : Mech) : Option Nat :=
  let e := (d.mx m).spn.emf
  let n := (d.emfSpeed m).natAbs
  if e.n = 0 ∨ ¬ e.quiet ∨ n = 0 ∨ n < 2 * d.get (Reg.SPN_CATCH_CFG_KE_MIN m) then none else some (e.peaks * 20 / (e.n * n))

/-- A KE is measured (R194, R195): more than 12 % off the record it raises MOTOR_KE. -/
def noteKe (d : Dev) (m : Mech) (ke : Nat) : Dev :=
  let ref : Int := max 1 (d.get (Reg.SPN_LIM1_KE m))
  let dev := clampInt (-128) 127 (Int.tdiv (100 * ((ke : Int) - ref)) ref)
  let d := (d.setAll [(Reg.SPN_KE_MEAS m, min 65535 ke), (Reg.SPN_KE_VALID m, 1)]).setS (Reg.SPN_KE_DEV m) dev
  if 12 * ref < 100 * ((ke : Int) - ref).natAbs then
    let d := (d.set (Reg.SPN_STATE_KE_BAD m) 1).spnEvent m Reg.SPN_EVENT_KE
    (d.mchEvent m Reg.MCH_EVENT_KE).elogAdd (0x40 + m.val) 0x0A 0x0A09 [(16, 2, min 65535 ke), (18, 1, ofSigned 8 dev)]
  else d

/-- A coast window ends (R194): within a catch, which goes on to its own end; at SPUN, where SPN drives again; at SPINNING_DOWN, where it then
brakes. -/
def keMeasured (d : Dev) (m : Mech) : Dev :=
  let x := (d.mx m).spn
  if d.spnClass m ≠ 1 ∧ x.window = .none then d
  else
    let d := match d.keOf m with
      | some ke => d.noteKe m ke
      | none => d
    match x.window with
    | .none => d
    | .up => (d.modSpn m fun x => { x with window := .none, sinceEdge := 0 }).modPins m fun p => { p with gates := .driven }
    | .down => d.spnEnter m 4

/-- A write of SPN_DSM_CFG (R171), logged for each of the reasons that leave it without effect. -/
def dsmWrite (d : Dev) (m : Mech) (w : Nat) : Dev :=
  let div := bits w 0 8
  let di := bits w 8 8
  let dv := bits w 16 8
  let bad := decide (div < 8 ∨ 50 < div ∨ di < 8 ∨ 64 < di ∨ dv < 8 ∨ 128 < dv)
  let d := if d.spnClass m ≠ 0 then d.vlogAdd (0x20 + m.val) 0x0504 0 else d
  let d := if bad then d.vlogAdd (0x20 + m.val) 0x0507 0 else d
  if d.spnClass m ≠ 0 ∨ bad then d
  else d.setAll [(Reg.SPN_DSM_CFG_DIV m, div), (Reg.SPN_DSM_CFG_DEC_I m, di), (Reg.SPN_DSM_CFG_DEC_V m, dv), (Reg.SPN_DSM_CFG_SETTLE m, bits w 24 8)]

/-- The spindle index mark (R149, R174): on a run, or in READING or WRITING, the head is then on the next swath; in TRACKING with no
run, and while Goat re-reads this swath, the jump of −16 tracks keeps it on its own. Offsets of Goat's reads change here
(R309). -/
def indexMark (d : Dev) (m : Mech) : Dev :=
  let c := d.spnClass m
  if c = 0 ∨ c = 7 ∨ ¬ (d.mx m).spn.indexDue then d
  else
    let d := (d.modSpn m fun x => { x with indexDue := false }).modOpt m fun x => { x with meas := { x.meas with revs := x.meas.revs + 1 } }
    let st := d.mstate m
    let goat := (d.mx m).fsq.items.any (fun w => w.entry == 6 && d.here m w.pba)
    let d := d.endOffsets m
    let d := if (st = .reading ∨ st = .writing ∨ (st = .tracking ∧ d.on (Reg.FSQ_STAT_RUN m))) ∧ ¬ goat then
        d.modOpt m fun x => { x with swath := x.swath + 1 }
      else d
    if d.following m then d.startOffsets m else d

end Dev

/-! ### Meanings -/

/-- INDEX_MARK (R149, R174). -/
def execIndexMark (m : Mech) (s : State) : Host.Outcome State Fault Refusal := liftMech m (fun d => d.indexMark m) s
/-- CATCH_END (R185–R187). -/
def execCatchEnd (m : Mech) (s : State) : Host.Outcome State Fault Refusal := liftMech m (fun d => d.catchEnd m) s
/-- FLUX_BUILD_DONE (R186). -/
def execFluxBuildDone (m : Mech) (s : State) : Host.Outcome State Fault Refusal := liftMech m (fun d => d.fluxBuildDone m) s
/-- DTC_STEP (R178–R180). -/
def execDtcStep (m : Mech) (i : MotorSample) (s : State) : Host.Outcome State Fault Refusal := liftMech m (fun d => d.dtcStep m i) s
/-- COMMUTATION (R181). -/
def execCommutation (m : Mech) (rejected : Bool) (s : State) : Host.Outcome State Fault Refusal :=
  liftMech m (fun d => d.commutation m rejected) s
/-- SPINDLE_PWM_PERIOD (R181). -/
def execSpindlePwmPeriod (m : Mech) (i : MotorSample) (s : State) : Host.Outcome State Fault Refusal :=
  liftMech m (fun d => d.pwmPeriod m i) s
/-- HANDOVER (R182). -/
def execHandover (m : Mech) (s : State) : Host.Outcome State Fault Refusal := liftMech m (fun d => d.handover m) s
/-- HANDBACK (R183). -/
def execHandback (m : Mech) (cause : Fin 7) (s : State) : Host.Outcome State Fault Refusal :=
  liftMech m (fun d => d.handbackCause m cause.val) s
/-- BRAKE_STOP (R175). -/
def execBrakeStop (m : Mech) (s : State) : Host.Outcome State Fault Refusal := liftMech m (fun d => d.brakeStop m) s
/-- SHORT_BRAKE_ON_END (R188). -/
def execShortBrakeOnEnd (m : Mech) (s : State) : Host.Outcome State Fault Refusal := liftMech m (fun d => d.shortOnEnd m) s
/-- SHORT_BRAKE_RELEASE_END (R188). -/
def execShortBrakeReleaseEnd (m : Mech) (s : State) : Host.Outcome State Fault Refusal :=
  liftMech m (fun d => d.shortReleaseEnd m) s
/-- CHOPPER_SWITCH (R189). -/
def execChopperSwitch (m : Mech) (vbus : Nat) (s : State) : Host.Outcome State Fault Refusal :=
  liftMech m (fun d => d.chopperSwitch m vbus) s
/-- CHOPPER_FAULT (R190). -/
def execChopperFault (m : Mech) (s : State) : Host.Outcome State Fault Refusal := liftMech m (fun d => d.chopperFault m) s
/-- REGEN_EVENT (R191, R192). -/
def execRegenEvent (m : Mech) (s : State) : Host.Outcome State Fault Refusal := liftMech m (fun d => d.regenEvent m) s
/-- SHORT_V_REACHED (R191). -/
def execShortVReached (m : Mech) (s : State) : Host.Outcome State Fault Refusal := liftMech m (fun d => d.shortV m) s
/-- GATESOFF_V_REACHED (R191). -/
def execGatesoffVReached (m : Mech) (s : State) : Host.Outcome State Fault Refusal := liftMech m (fun d => d.gatesOffV m) s
/-- BUS_HOLD_RELEASE (R191, R192). -/
def execBusHoldRelease (m : Mech) (s : State) : Host.Outcome State Fault Refusal := liftMech m (fun d => d.busRelease m) s
/-- UNDERVOLTAGE (R193). -/
def execUndervoltage (m : Mech) (s : State) : Host.Outcome State Fault Refusal := liftMech m (fun d => d.undervoltage m) s
/-- UNDERVOLTAGE_TIMEOUT (R193). -/
def execUndervoltageTimeout (m : Mech) (s : State) : Host.Outcome State Fault Refusal := liftMech m (fun d => d.uvTimeout m) s
/-- OVERCURRENT_TRIP (R197). -/
def execOvercurrentTrip (m : Mech) (cur : Nat) (s : State) : Host.Outcome State Fault Refusal := liftMech m (fun d => d.overcurrent m cur) s
/-- COMMUTATION_FAILURE (R196). -/
def execCommutationFailure (m : Mech) (s : State) : Host.Outcome State Fault Refusal := liftMech m (fun d => d.commFailure m) s
/-- DSM_STREAM_FAULT (R198). -/
def execDsmStreamFault (m : Mech) (stream : Fin 8) (s : State) : Host.Outcome State Fault Refusal :=
  liftMech m (fun d => d.streamFault m stream.val) s
/-- KE_MEASUREMENT (R194, R195). -/
def execKeMeasurement (m : Mech) (s : State) : Host.Outcome State Fault Refusal := liftMech m (fun d => d.keMeasured m) s
/-- KE_CLEAR (R195). -/
def execKeClear (m : Mech) (s : State) : Host.Outcome State Fault Refusal :=
  liftDev (fun d => d.mechWrite m 0x820004 fun d => d.set (Reg.SPN_STATE_KE_BAD m) 0) s
/-- CHOP_CLEAR (R190). -/
def execChopClear (m : Mech) (s : State) : Host.Outcome State Fault Refusal :=
  liftDev (fun d => d.mechWrite m 0x820004 fun d => d.setAll [(Reg.SPN_STATE_CHOP_BAD m, 0), (Reg.SPN_STATE_LOSS_ONLY m, 0)]) s
/-- DSM_CFG_WRITE (R171). -/
def execDsmCfgWrite (m : Mech) (w : Word) (s : State) : Host.Outcome State Fault Refusal :=
  liftDev (fun d => d.mechWrite m 0x820034 fun d => d.dsmWrite m w.toNat) s

end Sys2Proof.Machine
end

