-- ==== Sys2Proof/Machine/Fsq.lean ====
section
/-! DEFINITION. The format sequencer (R445–R466): dispatch, micro-words, gates, commit points, abandonment, restarts and faults,
and the revolution mark (R253, R284, R314, R455). -/
namespace Sys2Proof.Machine
namespace Dev

/-! ### Reading the sequencer -/

def fsq (d : Dev) (m : Mech) : FsqX := (d.mx m).fsq

/-- The active bank. -/
def activeBank (d : Dev) (m : Mech) : Bank :=
  (d.fsq m).banks[d.get (Reg.FSQ_UCODE_STAT_ACTIVE m) % 2]'(Nat.mod_lt _ (by decide))

/-- Work register `i`. -/
def wk (d : Dev) (m : Mech) (i : Nat) : Nat := d.get (Reg.FSQ_WK_VALUE m ⟨i % 16, Nat.mod_lt _ (by decide)⟩)

/-- Writes work register `i`. -/
def setWk (d : Dev) (m : Mech) (i v : Nat) : Dev := d.set (Reg.FSQ_WK_VALUE m ⟨i % 16, Nat.mod_lt _ (by decide)⟩) v

/-- Entry of the routine that runs. -/
def entryOf (d : Dev) (m : Mech) : Nat := d.get (Reg.FSQ_STAT_ENTRY m)

/-- Whether a routine of entry `e` may run: the mechanism tracks, or seeks for the address check, or calibrates for the probe and the
test write; and the Head Link is UP (R86, R455, R458). -/
def fsqLive (d : Dev) (m : Mech) (e : Nat) : Bool :=
  d.linkUp m && (d.following m || (e == 4 && (d.mstate m == .seeking || d.mstate m == .focused)) ||
    ((e == 5 || e == 9) && d.mstate m == .focused))

/-- The PBA that a work item reads or writes: for a read item the remap is looked up when it is taken (R18). -/
def itemPba (d : Dev) (m : Mech) (w : WorkItem) : Nat := if w.entry = 2 then d.remap m w.blk else w.pba

/-- The work queued for entry `e` in the swath under the head. -/
def workFor (d : Dev) (m : Mech) (e : Nat) : List WorkItem :=
  (d.fsq m).items.filter (fun w => decide (w.entry = e) && d.here m (d.itemPba m w))

/-- Whether the media requests behind entry `e` are held (R92, R94, R309, R319, R49). -/
def entryHeld (d : Dev) (m : Mech) (e : Nat) : Bool :=
  decide (e = 1 ∨ e = 2 ∨ e = 8) && (!d.on (Reg.MCH_CTL_AUTO m) || d.cmdBusy m || d.reloadHolds m) ||
  e == 2 && (!d.on (Reg.DRT_STAT_LOADED m) || (d.mx m).goat.offs != [])

/-- Whether entry `e` is pending (R455). -/
def entryPending (d : Dev) (m : Mech) (e : Nat) : Bool :=
  let x := d.fsq m
  if e = 4 then x.addrCheck
  else if e = 3 then x.zonePending
  else if e = 0 then x.revIdle
  else if 10 ≤ e then x.userPending.contains e
  else d.workFor m e != [] && !d.entryHeld m e

/-- The entries in order of priority (R455). -/
def entryOrder : List Nat := [4, 3, 6, 9, 5, 8, 2, 1, 7, 10, 11, 12, 13, 14, 15, 0]

/-- The registers that a snapshot holds (R456). -/
def snapNow (d : Dev) (m : Mech) (point : Nat) : Snapshot :=
  let x := d.fsq m
  ⟨(List.range 16).map (d.wk m), x.ct, x.zero, x.neg, x.carry, x.stack, point⟩

/-! ### Gates -/

/-- Records a WCH event. -/
def wchEvent (d : Dev) (m : Mech) (ev : Mech → Field) : Dev := d.evt (ev m) (Reg.WCH_EVENT_EN_EN m) (128 + m.val)

/-- The delay of the requests for a block ends when the first gate opens (R93): sequenced requests report it. That of a Flush ends at the
first gate that the mechanism opens, and the Flush is held no longer. -/
def gateDelay (d : Dev) (m : Mech) (pba : Nat) : Dev :=
  let mine (h : HeldReq) : Bool := h.sequenced && ((d.remap m h.req.pba.toNat == pba && h.req.kind != .write) || h.req.kind == .flushWait)
  let d := ((d.mx m).mch.held.filter mine).foldl (fun d h => match h.req.slot with
    | some i => d.addDelay i (d.now - h.arrived)
    | none => d) d
  d.modMch m fun x =>
    { x with held := (x.held.filter (fun h => h.req.kind != .flushWait)).map (fun h => if mine h then { h with sequenced := false } else h) }

/-- The spans of the block in progress that the link lost before it began are its fragments (R244). -/
def earlyFrags (d : Dev) (m : Mech) : Dev :=
  let g := (d.mx m).gate
  let mine := (d.mx m).hlk.early.filter (fun e => decide (g.writing = true ∧ e.pba = g.pba))
  (d.modGate m fun g => { g with frags := g.frags ++ mine.map (fun e => ⟨e.beam, e.first, e.last⟩) }).modHlk m fun x =>
    { x with early := x.early.filter (fun e => decide (¬ (g.writing = true ∧ e.pba = g.pba))) }

/-- PBA of the block that WCH has loaded. -/
def loadPba (d : Dev) (m : Mech) : Nat := match (d.mx m).wch.load with
  | some i => match d.blk i with
    | some b => b.pba
    | none => 0
  | none => 0

/-- A block begins at channel bit `pos`, for the first of its beams; one still in progress ends. -/
def startBlock (d : Dev) (m : Mech) (pos : Nat) (writing : Bool) : Dev :=
  let g := (d.mx m).gate
  if g.inBlock ∧ g.start = pos then d
  else
    let d := if g.inBlock then (d.endBlock m).rchEnd m pos else d
    let pba := if writing then d.loadPba m
      else ((d.fsq m).readBlk.getD 0)
    let fr := (d.mx m).opt.frameCount
    (((d.modGate m fun g => { g with start := pos, frame0 := fr, inBlock := true, writing := writing, pba := pba, frags := [] }).earlyFrags m).rchBegin m pos pba writing).gateDelay m pba

/-- What a read channel shows when its gate opens (R289, R294, R295): the set in use, wide mode, and the sides that are open. Whether
timing locks is a free value. -/
def rchOpen (d : Dev) (m : Mech) (b : Beam) (write : Bool) : Dev :=
  let mask := d.get (Reg.WCH_MASK_MASK m) &&& d.get (Reg.MCH_BEAM_ENABLE m)
  let lock := d.freeVal % 2
  let d := d.useFree.setAll [(Reg.RCH_STAT_LOCK m b, lock), (Reg.RCH_STAT_SET m b, b2n write),
    (Reg.RCH_STAT_WIDE m b, d.get (Reg.RCH_CTL_WIDE_FORCE m b)),
    (Reg.RCH_STAT_OPEN_LO m b, b2n (b.val == 0 || !tbit mask (b.val - 1))),
    (Reg.RCH_STAT_OPEN_HI m b, b2n (b.val == 15 || !tbit mask (b.val + 1))), (Reg.RCH_STAT_ACTIVE m b, 1)]
  (List.finRange 16).foldl (fun d r => d.setB (Reg.RCH_STAT_REF_MODE m r)
    (!write && tbit mask r.val && d.bit (Reg.MCH_BEAM_RETIRED m) r.val)) d

/-- What a read channel counts when its gate closes (R157, R320): a frame, and whether a hint in force touched it. The rest is known when
the frame's last samples have come. -/
def rchClose (d : Dev) (m : Mech) (b : Beam) : Dev :=
  let x := d.mx m
  let hinted := x.opt.hints.any (fun h => decide (h.beam = b.val ∧ x.gate.start ≤ h.last ∧ h.first ≤ x.gate.cb ∧ 1 ≤ h.cause ∧
    bits (d.get (Reg.RCH_HINT_CFG_ACT m b)) (2 * h.cause - 2) 2 ≠ 0))
  let d := (d.setAll [(Reg.RCH_STAT_ACTIVE m b, 0), (Reg.RCH_STAT_LOCK m b, 0)]).count (Reg.RCH_CNT_FRAME_FRAMES m b)
  if hinted then d.count (Reg.RCH_CNT_MISC_HINTED m b) else d

/-- The run ends: TRACKING (R86, R455). -/
def runEnds (d : Dev) (m : Mech) : Dev :=
  let d := (d.endRun m).handbackNow m
  if d.mstate m = .reading ∨ d.mstate m = .writing then d.setMstate m .tracking else d

/-- A write run whose spindle has left the recording class ends when no block is in progress (R184). -/
def leaveClass (d : Dev) (m : Mech) : Dev :=
  if d.on (Reg.FSQ_STAT_RUN m) ∧ d.on (Reg.FSQ_STAT_WRITE m) ∧ ¬ d.on (Reg.MCH_STATE_RECORDING_CLASS m) ∧ ¬ d.inBlock m then d.runEnds m else d

/-- No gate is open and none is armed: the block has ended (R16). What waited for its end follows: a deferred hand-back (R183), the
retirement of beams (R103), the end of a write run outside the recording class (R184), a deferred park (R89). -/
def blockEnd (d : Dev) (m : Mech) : Dev :=
  let g := (d.mx m).gate
  let x := d.fsq m
  if g.inBlock ∧ g.wopen = 0 ∧ g.ropen = 0 ∧ x.armedOpen.toList.all Option.isNone ∧ x.armedClose.toList.all Option.isNone then
    (((((((d.endBlock m).rchEnd m g.cb).rchPump m).handbackNow m).dropRetired m).leaveClass m).takeDeferred m)
  else d

/-- The gates of beam `b` close at the end of its frame. -/
def closeBeam (d : Dev) (m : Mech) (b : Beam) : Dev :=
  let g := (d.mx m).gate
  let was := tbit g.wopen b.val || tbit g.ropen b.val
  let d := d.modGate m fun g => { g with wopen := clrb g.wopen b.val, ropen := clrb g.ropen b.val }
  if was then d.rchClose m b else d

/-- The write gate of beam `b` opens, or stays closed for the block under write inhibit or inside a reopening run (R16 steps 2 and
5, R453). -/
def openWrite (d : Dev) (m : Mech) (b : Beam) (pos : Nat) : Dev :=
  let d := d.startBlock m pos true
  let x := d.mx m
  let shut := tbit x.srv.inhibit b.val || (tbit x.gate.reopen b.val && decide (x.srv.okRun[b.val] < d.get (Reg.SRV_TRK_CFG_REOPEN m)))
    || !d.linkUp m
  if shut then
    d.modGate m fun g => { g with reopen := setb g.reopen b.val, frags := g.frags ++ [⟨b.val, 0, none⟩] }
  else
    let d := d.modGate m fun g => { g with wopen := setb g.wopen b.val, reopen := clrb g.reopen b.val }
    let d := (d.set (Reg.FSQ_STAT_WRITE m) 1).set (Reg.WCH_STAT_RUN m) 1
    let d := if d.following m then d.setMstate m .writing else d
    (d.clkBeam m b).rchOpen m b true

/-- The read gate of beam `b` opens. -/
def openRead (d : Dev) (m : Mech) (b : Beam) (pos : Nat) : Dev :=
  let d := d.startBlock m pos false
  let d := d.modGate m fun g => { g with ropen := setb g.ropen b.val }
  let d := if d.following m then d.setMstate m .reading else d
  (d.clkBeam m b).rchOpen m b false

/-- Beam `b` reaches channel bit `cb` (R453): an armed close acts before an armed open. -/
def gatePosition (d : Dev) (m : Mech) (b : Beam) (cb : Nat) : Dev :=
  let x := d.fsq m
  let d := d.modGate m fun g => { g with cb := cb }
  let d := if x.armedClose[b.val] = some cb then
      (d.modFsq m fun x => { x with armedClose := x.armedClose.set b.val none }).closeBeam m b
    else d
  let d := match x.armedOpen[b.val] with
    | some a => if a.pos = cb then
        let d := d.modFsq m fun x => { x with armedOpen := x.armedOpen.set b.val none }
        if a.write then d.openWrite m b cb else d.openRead m b cb
      else d
    | none => d
  d.blockEnd m

/-! ### Commit points and faults -/

/-- The block in WK4 has been served by its routine (R454 REPORT): a written block awaits Gander; its member joins its group's
parity (R277). -/
def report (d : Dev) (m : Mech) (i : Nat) : Dev :=
  let e := d.entryOf m
  match d.blk i with
  | none => d
  | some b =>
    if ¬ (e = 1 ∨ e = 7 ∨ e = 8) ∨ b.mech ≠ some m.val ∨ ¬ (b.phase = .placed ∨ b.phase = .copying) then d
    else
      let d := (d.modBlk i fun b => { b with phase := .written }).count (Reg.WCH_BLK_CNT_BLOCKS m)
      let d := d.noteSwath m b.pba (d.get (Reg.WCH_MASK_MASK m)) (d.get (Reg.WCH_GEOM_SLOT_LEN m))
      let d := if b.kind = 1 then d.count (Reg.WCH_PAR_CNT_PARITY m) else d
      let d := if b.copyFlag ∧ e = 1 then d.count (Reg.GANDER_RELOC_COPIES m) else d
      let d := d.modMch m fun x => { x with held := x.held.filter (fun h => !(h.req.kind == .write && h.req.pba.toNat == b.pba)) }
      let con := (d.mx m).wch.contrib.find? (fun c => decide (c.1 = i))
      let d := d.modWch m fun x => { x with contrib := x.contrib.filter (fun c => decide (c.1 ≠ i)) }
      if ¬ (b.kind = 0 ∨ b.kind = 3) ∨ e ≠ 1 ∨ b.copyFlag then d
      else match d.arc.groups.find? (fun g => decide (g.ident = b.group)) with
        | none => d
        | some g =>
          if g.closed ∨ tbit g.written b.member then d
          else
            d.modGroup g.ident fun y =>
              { y with
                written := setb y.written b.member
                opened := some (y.opened.getD d.now)
                lastSwath := max y.lastSwath (pbaSwath b.pba)
                parity := match con with
                  | some c => List.zipWith (fun p q => List.zipWith (fun a b => a ^^^ b) p q) y.parity c.2
                  | none => y.parity }

/-- A HANDBACK request (R454): a block placed for writing returns to the Archive Service; a read or a copy of a refresh or of the
catalogue returns to its queue. -/
def fsqHandBack (d : Dev) (m : Mech) (i : Nat) : Dev :=
  let e := d.entryOf m
  if e = 1 then match d.blk i with
    | some b => if b.mech = some m.val ∧ (b.phase = .placed ∨ b.phase = .copying) then d.handBack m i else d
    | none => d
  else if e = 2 ∨ e = 6 then d.queueItem m (d.itemOf m e (if e = 2 then d.remap m i else i) i)
  else match d.blk i with
    | some b => if b.mech = some m.val ∧ b.phase = .placed then d.queueItem m (d.itemOf m e b.pba i) else d
    | none => d

/-- Releases one buffered request (R454, R456). -/
def releaseReq (d : Dev) (m : Mech) (r : FsqReq) : Dev :=
  let e := d.entryOf m
  match r.req with
  | 1 => d.modFsq m fun x => { x with items := match x.items.find? (fun w => decide (w.entry = e ∧ w.blk = r.arg)) with
      | some w => x.items.erase w
      | none => x.items }
  | 4 => d.modFsq m fun x => { x with ganderPba := some r.arg, ganderDone := false }
  | 7 => d.report m r.arg
  | 8 => d.fsqHandBack m r.arg
  | 9 => (d.set (Reg.FSQ_USER_DATA_DATA m) r.arg).set (Reg.FSQ_EVENT_USER m) 1
  | _ => d

/-- Releases the commit buffer in order. -/
def releaseAll (d : Dev) (m : Mech) : Dev :=
  let l := (d.fsq m).commit
  l.foldl (fun d r => d.releaseReq m r) (d.modFsq m fun x => { x with commit := [] })

/-- The commit point with restart point `point` (R456). -/
def commitPoint (d : Dev) (m : Mech) (point : Nat) : Dev :=
  let d := d.releaseAll m
  let sn := d.snapNow m point
  d.modFsq m fun x => { x with snap := sn, failRuns := 0, restarted := false }

/-- The sequencer halts (R459). -/
def fsqHalt (d : Dev) (m : Mech) : Dev :=
  let d := (d.closeGates m).setAll [(Reg.FSQ_STAT_HALTED m, 1), (Reg.FSQ_STAT_BUSY m, 0), (Reg.FSQ_EVENT_HALTED m, 1)]
  let d := d.elogAdd (0x40 + m.val) 0x0A 0x0AFF [(16, 4, (Reg.FSQ_EVENT_HALTED m).off)]
  d.modFsq m fun x => { x with abandoned := false, stack := [] }

/-- Abandons the routine (R458); after RESTART_MAX restarts with no commit point reached the sequencer halts (R459). -/
def fsqAbandon (d : Dev) (m : Mech) : Dev :=
  let open_ := (d.mx m).gate.wopen ||| (d.mx m).gate.ropen
  let d := (List.finRange 16).foldl (fun d b => if tbit open_ b.val then d.rchClose m b else d) (d.closeGates m)
  let sn := (d.fsq m).snap
  let d := sn.wk.zipIdx.foldl (fun d v => d.setWk m v.2 v.1) d
  let d := d.modFsq m fun x =>
    { x with
      armedOpen := Vector.replicate 16 none, armedClose := Vector.replicate 16 none, commit := []
      ct := sn.ct, zero := sn.zero, neg := sn.neg, carry := sn.carry, stack := sn.stack
      restarted := true, abandoned := true }
  if d.get (Reg.FSQ_CFG_RESTART_MAX m) ≤ (d.fsq m).failRuns then d.fsqHalt m else d

/-- A fault of the sequencer (R459): bit 0 ILLEGAL, 1 CS_UE, 2 WATCHDOG. -/
def fsqFault (d : Dev) (m : Mech) (bit : Nat) : Dev :=
  let d := d.set (match bit with
    | 0 => Reg.FSQ_FAULT_ILLEGAL m
    | 1 => Reg.FSQ_FAULT_CS_UE m
    | _ => Reg.FSQ_FAULT_WATCHDOG m) 1
  let d := (d.set (Reg.FSQ_FAULT_PC m) (d.get (Reg.FSQ_STAT_PC m))).set (Reg.FSQ_EVENT_FAULT m) 1
  (d.elogAdd (0x40 + m.val) 0x0A (0x0C10 + bit)).fsqAbandon m

/-- The swap point of an idle sequencer (R460). -/
def swapIfArmed (d : Dev) (m : Mech) : Dev :=
  if d.on (Reg.FSQ_UCODE_STAT_SWAP_ARMED m) ∧ ¬ d.on (Reg.FSQ_STAT_BUSY m) then d.swapBank m else d

/-- The routine ends (R456, R457, R460): its buffered requests are released and the sequencer is idle, a swap point. -/
def fsqEnd (d : Dev) (m : Mech) : Dev :=
  let d := d.commitPoint m 0
  let d := if 10 ≤ d.entryOf m then d.set (Reg.FSQ_USER_STAT_RESULT m) 2 else d
  ((d.set (Reg.FSQ_STAT_BUSY m) 0).modFsq m fun x => { x with stack := [] }).swapIfArmed m

/-! ### Dispatch -/

/-- The mask in use has changed: the blocks placed in the present swath are handed back (R284). -/
def skipSwath (d : Dev) (m : Mech) : Dev :=
  let l := d.workFor m 1
  if (d.fsq m).nextSwathMask ∧ l ≠ [] then (l.foldl (fun d w => d.handBack m w.blk) d).wchEvent m Reg.WCH_EVENT_SKIP_SWATH else d

/-- Dispatches entry `e` (R455, R456). -/
def fsqStart (d : Dev) (m : Mech) (e : Nat) : Dev :=
  let d := d.setAll [(Reg.FSQ_STAT_BUSY m, 1), (Reg.FSQ_STAT_ENTRY m, e), (Reg.FSQ_STAT_PC m, e)]
  let sn := d.snapNow m e
  d.modFsq m fun x =>
    { x with
      snap := sn, commit := [], restarted := false, gateLate := false, abandoned := false, failRuns := 0
      userPending := x.userPending.erase e
      zonePending := x.zonePending && e != 3
      revIdle := x.revIdle && e != 0
      addrCheck := x.addrCheck && e != 4 }

/-- ROUTINE_DISPATCH (R455, R459, R460). A run that is due in a quick calibration while tracking waits until it ends (R165). -/
def dispatch (d : Dev) (m : Mech) : Dev :=
  if d.on (Reg.FSQ_STAT_BUSY m) ∨ (d.mstate m = .tracking ∧ (d.mx m).opt.cal ≠ .none) then d
  else
    let d := d.swapIfArmed m
    if d.on (Reg.FSQ_STAT_HALTED m) ∨ ¬ (d.activeBank m).loaded then d
    else
      let d := d.skipSwath m
      match entryOrder.find? (fun e => d.fsqLive m e && d.entryPending m e) with
      | some e => d.fsqStart m e
      | none => d

/-! ### Micro-words -/

/-- Whether a condition holds (R450). -/
def fsqCond (d : Dev) (m : Mech) (w : BitVec 128) (i : FsqInputs) : Bool :=
  let x := d.fsq m
  let c := Ucode.cond w
  match c with
  | 0 => true
  | 1 => x.rev
  | 2 => decide (d.wk m (Ucode.srca w) ≤ i.cb)
  | 3 => x.addrOk
  | 4 => ((d.mx m).srv.inhibit &&& Ucode.mask w) != 0
  | 5 => d.on (Reg.MCH_STATE_RECORDING_CLASS m)
  | 6 => d.workFor m (d.entryOf m) != []
  | 7 => (d.mx m).wch.ready
  | 8 => x.ganderDone
  | 9 => x.ganderDone && x.ganderClass == 2
  | 10 => x.readBlk.isSome && x.decLeft == 0
  | 11 => x.readBlk.isSome && x.decLeft == 0 && x.decFailed == 0
  | 12 => d.linkUp m
  | 13 => x.zero
  | 14 => x.neg
  | 15 => x.carry
  | 16 => (d.mx m).mch.stopReq
  | 17 => d.on (Reg.FSQ_UCODE_STAT_SWAP_ARMED m)
  | 18 => d.beamsInUse m != d.get (Reg.WCH_MASK_MASK m)
  | 19 => x.sync
  | 20 => x.gateLate
  | 21 => x.restarted
  | c => decide (48 ≤ c) && d.bit (Reg.FSQ_USER_FLAGS_FLAGS m) (c - 48)

/-- A test that finds REV or ADDR_OK true clears it (R450). -/
def condClear (d : Dev) (m : Mech) (c : Nat) : Dev := d.modFsq m fun x =>
  { x with rev := x.rev && c != 1, addrOk := x.addrOk && c != 3 }

/-- A timing input of LOADIN (R451). Before a groove address has been decoded its fields are free values. -/
def loadIn (d : Dev) (m : Mech) (k cb : Nat) : Nat :=
  let x := d.mx m
  match k with
  | 0 => cb
  | 1 => d.swathN m x.opt.swath
  | 2 => match x.fsq.addr with
    | some a => a.1
    | none => d.freeVal
  | 3 => match x.fsq.addr with
    | some a => a.2.1 + 256 * a.2.2
    | none => d.freeVal
  | 4 => d.zoneOf m x.opt.swath
  | 5 => d.beamsInUse m + 65536 * d.get (Reg.WCH_MASK_MASK m)
  | 6 => d.get (Reg.WCH_GEOM_SLOT_LEN m) + 65536 * d.get (Reg.WCH_GEOM_SLOTS m)
  | 7 => d.now
  | 8 => x.srv.inhibit
  | 9 => d.get (Reg.GANDER_LAST_CLASS m) + 65536 * d.get (Reg.GANDER_LAST_LOAD m)
  | 10 => x.fsq.decFailed
  | _ => 0

/-- The ALU operation (R452). -/
def fsqAlu (d : Dev) (m : Mech) (w : BitVec 128) (cb : Nat) : Dev :=
  let a := d.wk m (Ucode.srca w)
  let b := d.wk m (Ucode.srcb w)
  let imm := Ucode.imm w
  let M := 2 ^ 32
  let flags (d : Dev) (r : Nat) (c : Option Bool) : Dev := d.modFsq m fun x =>
    { x with zero := decide (r % M = 0), neg := tbit r 31, carry := c.getD x.carry }
  let put (r : Nat) (c : Option Bool) : Dev := flags (d.setWk m (Ucode.dst w) r) r c
  match Ucode.alu w with
  | 1 => put imm none
  | 2 => put (a + b) (some (decide (M ≤ a + b)))
  | 3 => put (a + M - b) (some (decide (a < b)))
  | 4 => put (a + imm) (some (decide (M ≤ a + imm)))
  | 5 => put (a &&& b) none
  | 6 => put (a ||| b) none
  | 7 => put (a ^^^ b) none
  | 8 => put (a * 2 ^ (imm % 32)) none
  | 9 => put (a / 2 ^ (imm % 32)) none
  | 10 => put (a * b) none
  | 11 =>
    let k := imm % 16
    let v := d.loadIn m k cb
    let d := if (k = 2 ∨ k = 3) ∧ (d.fsq m).addr = none then d.useFree else d
    flags (d.setWk m (Ucode.dst w) v) v none
  | 12 => flags d (a + M - b) (some (decide (a < b)))
  | 13 => flags (d.modFsq m fun x => { x with ct := x.ct.set (Ucode.ctr w) (imm % 2 ^ 24) }) (imm % 2 ^ 24) none
  | _ => d

/-- Queues the symbols of the block that WCH has ready for the gates armed for writing (R235). -/
def txLoad (d : Dev) (m : Mech) : Dev :=
  if (d.mx m).wch.ready then d.txFill m (d.loadPba m) (d.mx m).wch.symbols else d

/-- The beams of `beams` whose write gate is open or armed to open. -/
def writeBeams (d : Dev) (m : Mech) (beams : Nat) : List Beam :=
  let x := d.mx m
  (List.finRange 16).filter (fun b => tbit beams b.val && (tbit x.gate.wopen b.val || (x.fsq.armedOpen[b.val].map Armed.write).getD false))

/-- Arms gates at a position (R453); the first arm of a routine entered from TRACKING begins a run (R455). The symbols of a write gate
armed to open are queued, and the head learns where the write of a beam armed to close ends (R235, R240). -/
def armGates (d : Dev) (m : Mech) (beams pos : Nat) (open_ : Option Bool) : Dev :=
  let d := if d.following m then d.set (Reg.FSQ_STAT_RUN m) 1 else d
  match open_ with
  | some wr =>
    let d := d.modFsq m fun x => { x with armedOpen := Vector.ofFn (fun b => if tbit beams b.val then some ⟨pos, wr⟩ else x.armedOpen[b]) }
    if wr then d.txLoad m else d
  | none =>
    let ends := d.writeBeams m beams
    (d.modFsq m fun x => { x with armedClose := Vector.ofFn (fun b => if tbit beams b.val then some pos else x.armedClose[b]) }).sendEnds m pos ends

/-- The beams that a gate operation may act on: those in use, and to close also those of the block in progress, which completes with its
old mask (R103, R453). -/
def gateBeams (d : Dev) (m : Mech) (close : Bool) : Nat :=
  let x := d.mx m
  let armed := (List.range 16).foldl (fun a b => if (x.fsq.armedOpen.toList.getD b none).isSome then setb a b else a) 0
  d.beamsInUse m ||| (if close then x.gate.wopen ||| x.gate.ropen ||| armed else 0)

/-- GATE (R453). -/
def fsqGate (d : Dev) (m : Mech) (w : BitVec 128) (old : Nat) (cb : Nat) : Dev :=
  let beams := Ucode.mask w &&& d.gateBeams m (decide (3 ≤ Ucode.gate w))
  let g := Ucode.gate w
  let late (d : Dev) : Dev := (d.count (Reg.FSQ_CNT_GATE_LATE m)).modFsq m fun x => { x with gateLate := true }
  if g = 0 ∨ 4 < g then d
  else if g = 4 then
    let d := (List.finRange 16).foldl (fun d b =>
      if tbit (beams &&& ((d.mx m).gate.wopen ||| (d.mx m).gate.ropen)) b.val then d.rchClose m b else d) d
    let d := (d.modGate m fun g => { g with cb := cb }).dropGates m beams
    (d.modGate m fun g => { g with ropen := andNot g.ropen beams }).blockEnd m
  else if g ≠ 3 ∧ ((d.mx m).mch.stopReq ∨ (g = 1 ∧ ¬ d.on (Reg.MCH_STATE_RECORDING_CLASS m))) then
    (d.count (Reg.FSQ_CNT_GATE_REFUSED m)).leaveClass m
  else if old < cb then late d
  else d.armGates m beams old (if g = 3 then none else some (g == 1))

/-- Copies the next work item into WK0 to WK7 (R454). -/
def takeItem (d : Dev) (m : Mech) : Dev :=
  let e := d.entryOf m
  let k := ((d.fsq m).commit.filter (fun r => decide (r.req = 1))).length
  match (d.workFor m e)[k]? with
  | none => d
  | some i =>
    let pba := d.itemPba m i
    let d := if e = 2 ∧ pba ≠ i.blk then d.count (Reg.DRT_CNT_HIT_HITS m) else d
    let q := (d.codeOf m).2
    let d := [e, pba, Codec.physSlot q pba, i.len, i.blk, 0, 0, 0].zipIdx.foldl (fun d v => d.setWk m v.2 v.1) d
    d.modFsq m fun x => { x with commit := x.commit ++ [⟨1, i.blk⟩] }

/-- Buffers a request; `none` for the ninth (R457). -/
def bufferReq (d : Dev) (m : Mech) (r : FsqReq) : Option Dev :=
  if 8 ≤ (d.fsq m).commit.length then none
  else some (d.modFsq m fun x => { x with commit := x.commit ++ [r] })

/-- REQ (R454), with its argument read before the ALU wrote; `none` for an ILLEGAL fault. -/
def fsqReq (d : Dev) (m : Mech) (w : BitVec 128) (arg : Nat) : Option Dev :=
  match Ucode.req w with
  | 1 => if 8 ≤ (d.fsq m).commit.length then none else some (d.takeItem m)
  | 2 => some (d.modWch m fun x => { x with load := some arg, ready := false, symbols := [] })
  | 3 => some (d.modFsq m fun x => { x with readBlk := some arg, decLeft := 16, decFailed := 0, decIdx := 0 })
  | 5 =>
    let n := arg % 2 ^ 24
    let d := d.modFsq m fun x => { x with rate := some n }
    some (((d.headWrite m 0x20 (n % 65536)).headWrite m 0x21 (n / 65536)).headWrite m 0x22 1)
  | 6 =>
    let t := Int.tdiv (toSigned 32 arg) 16
    some (d.modOpt m fun x => { x with swath := ((x.swath : Int) + t).toNat })
  | 0 => some d
  | r => if r ≤ 9 then d.bufferReq m ⟨r, arg⟩ else some d

/-- The next address of a word (R448, R449) and what the word does to stack and counters; `none` for an ILLEGAL fault. -/
def nextAddr (d : Dev) (m : Mech) (w : BitVec 128) (cond : Bool) (n : Nat) : Option (Dev × Nat) :=
  let pc := d.get (Reg.FSQ_STAT_PC m)
  let x := d.fsq m
  let t := Ucode.next w
  match Ucode.seq w with
  | 1 => some (d, t)
  | 2 => some (d, if cond then t else pc + 1)
  | 3 => some (d, if cond then pc + 1 else t)
  | 4 => if 8 ≤ x.stack.length then none else some (d.modFsq m fun x => { x with stack := (pc + 1) :: x.stack }, t)
  | 5 => match x.stack with
    | a :: rest => some (d.modFsq m fun x => { x with stack := rest }, a)
    | [] => none
  | 7 =>
    let v := (x.ct.getD (Ucode.ctr w) 0 + 2 ^ 24 - 1) % 2 ^ 24
    some (d.modFsq m fun x => { x with ct := x.ct.set (Ucode.ctr w) v }, if v = 0 then pc + 1 else t)
  | 8 =>
    let a := t + d.wk m (Ucode.srca w) % 16
    if n ≤ a then none else some (d, a)
  | _ => some (d, pc + 1)

/-- The effects of a word whose condition allows them, in the order of R449. -/
def runWord (d : Dev) (m : Mech) (w : BitVec 128) (n : Nat) (cond : Bool) (i : FsqInputs) : Dev :=
  let pos := d.wk m (Ucode.srcb w)
  let arg := d.wk m (Ucode.rarg w)
  let d := d.fsqAlu m w i.cb
  let d := d.fsqGate m w pos i.cb
  match d.fsqReq m w arg with
  | none => d.fsqFault m 0
  | some d =>
    if Ucode.seq w = 9 then d.fsqEnd m
    else match d.nextAddr m w cond n with
      | none => d.fsqFault m 0
      | some (d, a) =>
        let d := if Ucode.commit w then d.commitPoint m a else d
        d.set (Reg.FSQ_STAT_PC m) a

/-- CRC-16 by 0x1021 of the lowest `n` bits of `v`, most significant bit first (R251, log entry 197). -/
def crc16 (v : Nat) : (n : Nat) → (crc : Nat) → Nat
  | 0, c => c
  | n + 1, c => crc16 v n ((2 * c) % 65536 ^^^ (if (c / 32768 + bits v n 1) % 2 = 1 then 0x1021 else 0))

/-- A groove address: swath, layer and groove start; one whose CRC fails is ignored (R251). -/
def grooveAddr (w : BitVec 48) : Option (Nat × Nat × Nat) :=
  let a := w.toNat
  if bits a 0 16 = crc16 (a / 65536) 32 0xFFFF then some (bits a 32 14, bits a 46 2, bits a 28 4) else none

/-- MICRO_WORD (R449). -/
def microWord (d : Dev) (m : Mech) (i : FsqInputs) : Dev :=
  if ¬ d.on (Reg.FSQ_STAT_BUSY m) ∨ (d.fsq m).abandoned ∨ ¬ d.fsqLive m (d.entryOf m) then d
  else
    let d := (d.modGate m fun g => { g with cb := i.cb }).modFsq m fun x =>
      { x with
        addrOk := x.addrOk || (i.addr.bind grooveAddr).isSome
        addr := (i.addr.bind grooveAddr).orElse (fun _ => x.addr) }
    let words := (d.activeBank m).words
    match i.ecc, words[d.get (Reg.FSQ_STAT_PC m)]? with
    | .double, _ => d.fsqFault m 1
    | _, none => d.fsqFault m 0
    | e, some w =>
      let d := if e = .single then d.count (Reg.FSQ_CNT_CS_CE m) else d
      let c := d.fsqCond m w i
      let d := if c ∧ (Ucode.seq w = 2 ∨ Ucode.seq w = 3 ∨ Ucode.seq w = 6) then d.condClear m (Ucode.cond w) else d
      if Ucode.seq w = 6 ∧ ¬ c then d else d.runWord m w words.length c i

/-! ### Abandonment, restart, host writes -/

/-- ROUTINE_ABANDON (R458): the mechanism has left the states that the routine needs, or the link is not UP. -/
def routineAbandon (d : Dev) (m : Mech) : Dev :=
  if d.on (Reg.FSQ_STAT_BUSY m) ∧ ¬ (d.fsq m).abandoned ∧ ¬ d.fsqLive m (d.entryOf m) then d.fsqAbandon m else d

/-- ROUTINE_RESTART (R458). -/
def routineRestart (d : Dev) (m : Mech) : Dev :=
  if d.on (Reg.FSQ_STAT_BUSY m) ∧ (d.fsq m).abandoned ∧ d.fsqLive m (d.entryOf m) then
    let d := (d.count (Reg.FSQ_CNT_RESTARTS m)).set (Reg.FSQ_STAT_PC m) (d.fsq m).snap.point
    d.modFsq m fun x => { x with abandoned := false, failRuns := x.failRuns + 1 }
  else d

/-- FSQ_WATCHDOG (R459). -/
def watchdog (d : Dev) (m : Mech) : Dev :=
  if d.on (Reg.FSQ_STAT_BUSY m) ∧ ¬ (d.fsq m).abandoned then d.fsqFault m 2 else d

/-- FSQ_CTL.RESUME (R459). -/
def fsqResume (d : Dev) (m : Mech) : Dev := (d.set (Reg.FSQ_STAT_HALTED m) 0).modFsq m fun x => { x with failRuns := 0 }

/-- FSQ_CTL.USER_GO (R464). -/
def userGo (d : Dev) (m : Mech) (w : Nat) : Dev :=
  let e := bits w 2 4
  let ok := match (d.activeBank m).words[e]? with
    | some v => Ucode.seq v != 9
    | none => false
  if 10 ≤ e ∧ ok = true ∧ d.mstate m = .tracking then
    (d.set (Reg.FSQ_USER_STAT_RESULT m) 1).modFsq m fun x =>
      { x with userPending := if x.userPending.contains e then x.userPending else x.userPending ++ [e] }
  else (d.set (Reg.FSQ_USER_STAT_RESULT m) 3).vlogAdd 0x14 0x0C01 0

/-- A write of FSQ_CTL (R466). -/
def fsqCtl (d : Dev) (m : Mech) (w : Nat) : Dev :=
  let d := if tbit w 0 then d.fsqResume m else d
  if tbit w 1 then d.userGo m w else d

/-! ### The revolution mark -/

/-- The first unused slot of the spare area of a layer (R250, R314); `none` when the area is full. -/
def spareSlot (d : Dev) (m : Mech) (layer : Nat) (used : List Nat) : Option Nat :=
  let (p, q) := d.codeOf m
  let n := max 1 (popcount 16 (d.beamsInUse m))
  (List.range 32).findSome? (fun k =>
    let s := 176 + k
    (firstFrom (fun i => !used.contains (Codec.pbaOfPhys layer s q i)) (d.slotsIn m s n p) 0).map (Codec.pbaOfPhys layer s q))

/-- Places the copy of a refresh in the spare area (R314); it is skipped when the area or the slice is full. -/
def placeRefresh (d : Dev) (m : Mech) (r : Refresh) : Dev :=
  match d.discIn m with
  | none => d
  | some x =>
    if (d.fsq m).items.any (fun w => decide (w.entry = 7 ∧ w.blk = r.blk)) then d
    else if d.drtNoRoom m r.pba then d.skipRefresh m r
    else match d.spareSlot m (pbaLayer r.pba) x.parityUsed with
      | none => d.skipRefresh m r
      | some pba =>
        let d := d.modDisc x.ident fun y => { y with parityUsed := pba :: y.parityUsed }
        let d := d.modBlk r.blk fun b => { b with phase := .placed, mech := some m.val, pba := pba, orig := r.pba, copyFlag := true }
        d.queueItem m (d.itemOf m 7 pba r.blk)

/-- Places the refreshes queued. -/
def placeRefreshes (d : Dev) (m : Mech) : Dev :=
  (d.mx m).goat.refreshes.foldl (fun d r => match d.blk r.blk with
    | some b => if b.phase = .cached then d.placeRefresh m r else d
    | none => d) d

/-- Whether an entry from 1 to 9 is pending (R455). -/
def anyPending (d : Dev) (m : Mech) : Bool := (List.range 9).any (fun e => d.entryPending m (e + 1))

/-- A pending rate takes force at the mark (R253). -/
def applyRate (d : Dev) (m : Mech) : Dev :=
  if (d.fsq m).rate.isSome then (d.modFsq m fun x => { x with rate := none }).wchEvent m Reg.WCH_EVENT_ZONE else d

/-- The swath that begins at the mark: its rate, zone and geometry, and whether ZONE is pending for the one after it (R253, R284). -/
def beginSwath (d : Dev) (m : Mech) : Dev :=
  let s := (d.mx m).opt.swath
  let d := (d.applyRate m).set (Reg.SRV_REGION_ZONE m) (d.zoneOf m s)
  let d := d.setGeom m s (d.beamsInUse m)
  let zp := d.zoneOf m (s + 1) != d.zoneOf m s
  d.modFsq m fun x => { x with nextSwathMask := false, zonePending := zp }

/-- Whether a write run makes way at the end of its swath, for Goat's reads (R309) or refreshes (R314). -/
def makesWay (d : Dev) (m : Mech) : Bool :=
  d.on (Reg.FSQ_STAT_WRITE m) && (d.fsq m).items.any (fun w => w.entry == 6 || w.entry == 7)

/-- REVOLUTION_MARK (R253, R284, R309, R314, R455): the swath ends and the next begins; a run ends, or REV_IDLE becomes pending. -/
def revolutionMark (d : Dev) (m : Mech) : Dev :=
  if ¬ d.following m then d
  else
    let d := (((((d.hintsAtMark m)).modHlk m fun x => { x with mark := x.placed }).modGate m fun g => { g with cb := 0 }).modFsq m fun x => { x with rev := true }).beginSwath m
    if d.on (Reg.FSQ_STAT_BUSY m) then d
    else
      let d := if d.on (Reg.FSQ_STAT_WRITE m) then d.placeRefreshes m else d
      if d.on (Reg.FSQ_STAT_RUN m) ∧ (d.anyPending m = false ∨ d.makesWay m = true) then d.runEnds m
      else if entryOrder.all (fun e => e == 0 || !d.entryPending m e) then d.modFsq m fun x => { x with revIdle := true }
      else d

end Dev

/-! ### Meanings -/

/-- ROUTINE_DISPATCH (R455). -/
def execRoutineDispatch (m : Mech) (s : State) : Host.Outcome State Fault Refusal := liftMech m (fun d => d.dispatch m) s
/-- MICRO_WORD (R449). -/
def execMicroWord (m : Mech) (i : FsqInputs) (s : State) : Host.Outcome State Fault Refusal := liftMech m (fun d => d.microWord m i) s
/-- GATE_POSITION (R453). -/
def execGatePosition (m : Mech) (b : Beam) (cb : Nat) (s : State) : Host.Outcome State Fault Refusal :=
  liftMech m (fun d => d.gatePosition m b cb) s
/-- ROUTINE_ABANDON (R458). -/
def execRoutineAbandon (m : Mech) (s : State) : Host.Outcome State Fault Refusal := liftMech m (fun d => d.routineAbandon m) s
/-- ROUTINE_RESTART (R458). -/
def execRoutineRestart (m : Mech) (s : State) : Host.Outcome State Fault Refusal := liftMech m (fun d => d.routineRestart m) s
/-- FSQ_WATCHDOG (R459). -/
def execFsqWatchdog (m : Mech) (s : State) : Host.Outcome State Fault Refusal := liftMech m (fun d => d.watchdog m) s
/-- FSQ_RESUME (R459). -/
def execFsqResume (m : Mech) (s : State) : Host.Outcome State Fault Refusal :=
  liftDev (fun d => d.mechWrite m 0x850004 (fun d => d.fsqResume m)) s
/-- USER_GO (R464). -/
def execUserGo (m : Mech) (w : Word) (s : State) : Host.Outcome State Fault Refusal :=
  liftDev (fun d => d.mechWrite m 0x850004 (fun d => d.userGo m w.toNat)) s
/-- REVOLUTION_MARK (R253, R455). -/
def execRevolutionMark (m : Mech) (s : State) : Host.Outcome State Fault Refusal := liftMech m (fun d => d.revolutionMark m) s

end Sys2Proof.Machine
end

