-- ==== Sys2Proof/Machine/Recording.lean ====
section
/-! DEFINITION. Recording (R254–R286): what WCH makes of a loaded block, Gander's classes, relocated copies, the end of a group, and
underruns (R338). -/
namespace Sys2Proof.Machine
namespace Dev

/-! ### Loading a block -/

/-- The bytes of a block: a parity block's stand in the running parity of its group (R277); sectors without user data are zero fill
(R258). -/
def blockData (d : Dev) (buf : Memory) (b : Blk) : List Byte :=
  if b.kind = 1 then match d.arc.groups.find? (fun g => decide (g.ident = b.group)) with
    | some g => g.parity.getD (b.member - 32) (List.replicate blkBytes 0)
    | none => List.replicate blkBytes 0
  else (List.range 16).flatMap (fun k =>
    if tbit b.valid k then buf.readBytes (b.addr + 4096 * k) 4096 else List.replicate 4096 0)

/-- The header that block `b` is written with (R258), OWNER_TAG as R405 gives it. -/
def headerOf (d : Dev) (m : Mech) (b : Blk) : Codec.Header :=
  let (p, q) := d.codeOf m
  { pba := b.pba, orig := if b.copyFlag ∨ b.replaced then b.orig else b.pba, mask := d.get (Reg.WCH_MASK_MASK m), p := p, q := q,
    kind := b.kind, member := b.member, groupN := b.planned, flags := b2n b.copyFlag + 2 * b2n b.replaced, group := b.group,
    tag := b.key.vol % 65536 + 65536 * b.key.index, time := d.now,
    valid := popcount 16 b.valid }

/-- WCH_LOAD_DONE (R258–R266, R274, R277): the symbols of the block are ready; a member's share of its group's parity is formed. -/
def wchDone (d : Dev) (m : Mech) (buf : Memory) : Dev :=
  let x := (d.mx m).wch
  match x.load with
  | none => d
  | some i => match d.blk i with
    | none => d
    | some b =>
      if x.ready ∨ b.mech ≠ some m.val ∨ ¬ (b.phase = .placed ∨ b.phase = .copying) then d
      else
        let data := d.blockData buf b
        let us := (List.range 16).filter (tbit (d.get (Reg.WCH_MASK_MASK m)))
        let sym := Codec.blockSymbols us (d.codeOf m).1 (Codec.headerBytes (d.headerOf m b)) data
        let con := match d.arc.groups.find? (fun g => decide (g.ident = b.group)) with
          | some g => if b.kind = 0 ∧ ¬ b.copyFlag ∧ ¬ tbit g.written b.member ∧ ¬ g.closed then
              [(i, Codec.addMember g.q b.member (List.replicate g.q (List.replicate blkBytes 0)) data)] else []
          | none => []
        ((d.touch b.addr).modWch m fun x => { x with ready := true, symbols := sym, contrib := x.contrib.filter (fun c => decide (c.1 ≠ i)) ++ con }).txLoad m

/-! ### Gander's class -/

/-- A load λ as a fraction: its numerator and denominator (R278). `w` counts unsatisfied checks among those that touch no erased
bit, `e` erased bits of a codeword of `b` bits. A fraction of no checks is 0. -/
def load (w : Nat × Nat) (e b wt : Nat) : Nat × Nat :=
  let den := if w.2 = 0 then 1 else w.2
  let num := if w.2 = 0 then 0 else w.1
  (num * 100 * b + e * wt * den, den * 100 * b)

/-- Whether λ is above `pct` % of f (R279). -/
def above (l : Nat × Nat) (pct p : Nat) : Bool := decide (pct * p * l.2 < l.1 * (100 * (64 + p)))

/-- The loads of the 16 codewords (R278). -/
def loads (d : Dev) (m : Mech) (w : List (Nat × Nat)) (frags : List Frag) : List (Nat × Nat) :=
  let p := (d.codeOf m).1
  let us := (List.range 16).filter (tbit (d.get (Reg.WCH_MASK_MASK m)))
  let n := max 1 us.length
  let fs := frags.filterMap (fun f => if us.contains f.beam then some (us.idxOf f.beam, f.first, f.last.getD (Codec.slotLen n p - 1)) else none)
  (List.range 16).map (fun c => load (w.getD c (0, 0)) (Codec.erasedBits n p c fs) (Codec.cwBits p) (d.get (Reg.GANDER_CFG_ERASE_WT m)))

/-- The class of a block (R15, R279): 0 GOOD, 1 MARGINAL, 2 FAILED. -/
def ganderClass (d : Dev) (m : Mech) (found : Bool) (frags : List Frag) (ls : List (Nat × Nat)) : Nat :=
  let p := (d.codeOf m).1
  let good := d.get (Reg.GANDER_CFG_GOOD_PCT m)
  let fail := max good (d.get (Reg.GANDER_CFG_FAIL_PCT m))
  if !found || decide (d.get (Reg.GANDER_CFG_FRAG_MAX m) < frags.length) || ls.any (fun l => above l fail p) then 2
  else if frags = [] ∧ ls.all (fun l => !above l good p) then 0 else 1

/-- The largest λ in units of 1/4,096 (R280). -/
def maxLoad (ls : List (Nat × Nat)) : Nat := (ls.map (fun l => l.1 * 4096 / max 1 l.2)).foldl max 0

/-! ### Copies -/

/-- 20 µs in channel bits at the present speed, in a swath of N channel bits a revolution (R281). -/
def leadBits (d : Dev) (m : Mech) (n : Nat) : Nat := n * (d.mx m).spn.speed.natAbs * 20 / 120000000

/-- The reserve slot for a copy (R281): the first unused one of the present swath that starts at least 20 µs after now, failing
that of the next. -/
def reserveSlot (d : Dev) (m : Mech) (used : List Nat) : Option Nat :=
  let x := d.mx m
  let s := x.opt.swath
  let l := (d.layer m).val
  let (p, q) := d.codeOf m
  let n := max 1 (popcount 16 (d.get (Reg.WCH_MASK_MASK m)))
  let len := Codec.slotLen n p
  let pick (sw : Nat) (from_ : Nat) : Option Nat :=
    let ds := Codec.dataSlots (d.slotsIn m sw n p) q
    let r := if 208 ≤ sw ∧ sw ≤ 6874 then Codec.reserveSlots ds (d.get (Reg.GPE_CODE_RELOC_PCT m)) else 0
    (firstFrom (fun t => decide (from_ ≤ Codec.physData q t * len) && !used.contains (Codec.pba l sw 0 t)) r (ds - r)).map (Codec.pba l sw 0)
  match pick s (x.gate.cb + d.leadBits m (d.swathN m s)) with
  | some a => some a
  | none => pick (s + 1) 0

/-- The block and sectors of a poisoned read, as an error-log entry names them (R511). -/
def lostDetail (a holder lost : Nat) : Option Blk → List (Nat × Nat × Nat)
  | some b => [(16, 8, a), (24, 1, holder), (26, 2, b.key.vol), (28, 8, 16 * b.key.index + ((List.range 16).find? (tbit b.valid)).getD 0), (36, 2, lost)]
  | none => [(16, 8, a), (24, 1, holder), (36, 2, lost)]

/-- The sectors of block `i` are lost (R329): logged, and counted for the Flushes that cover them. -/
def loseSectors (d : Dev) (i : Nat) (b : Blk) (a holder : Nat) : Dev :=
  let n := popcount 16 (andNot b.valid b.lost)
  let d := (d.elogAdd (0x54 + d.groupOf a) 6 2 (lostDetail a holder n (some b))).bufEvent Reg.BUF_EVENT_DATA_LOST
  if d.slots.any (fun s => decide (opcode s.2 = 0 ∧ ¬ isAdmin s.2) && s.2.covers.contains i) then d.uncover i n
  else (d.modBufx fun x => { x with losses := x.losses ++ [(b.key.vol, n)] }).uncover i n

/-- Records that the data of a block is found by the PBA `pba` (R391). -/
def locateAt (d : Dev) (m : Mech) (i : Nat) (b : Blk) (pba : Nat) : Dev :=
  match d.discIn m with
  | none => d
  | some x => d.modArc fun a => { a with map := ⟨i, b.key, x.ident, pba, andNot b.valid b.lost⟩ :: a.map }

/-- Records where a block lies that a remap entry maps or is to map: readers ask for the PBA that the entry maps. -/
def locate (d : Dev) (m : Mech) (i : Nat) (b : Blk) : Dev := d.locateAt m i b (if b.copyFlag ∨ b.replaced then b.orig else b.pba)

/-- The data for a relocation copy of block `i` is poisoned (R329): the copy is not written, the FAILED original stays in place. -/
def loseCopy (d : Dev) (m : Mech) (i : Nat) (b : Blk) (a : Nat) : Dev :=
  let d := d.modFsq m fun x => { x with items := x.items.filter (fun w => w.blk ≠ i) }
  let d := if b.lost = 0 then d.locate m i b else d
  (d.loseSectors i { b with lost := 0 } a 1).dropBlk i

/-- A FAILED block is written again (R281), or handed back (R282). -/
def relocate (d : Dev) (m : Mech) (i : Nat) (b : Blk) : Dev :=
  let orig := if b.copyFlag ∨ b.replaced then b.orig else b.pba
  let d := d.modBlk i fun b => { b with phase := .copying, orig := orig }
  if d.get (Reg.GPE_GROUP_RELOC_MAX m) ≤ b.copies then (d.gpeEvent m Reg.GPE_EVENT_RELOC_FAIL).handBack m i
  else if d.drtNoRoom m orig then (d.gpeEvent m Reg.GPE_EVENT_DRT_FULL).handBack m i
  else match d.discIn m with
    | none => d.handBack m i
    | some x => match d.reserveSlot m x.parityUsed with
      | none => (d.gpeEvent m Reg.GPE_EVENT_RESERVE_OUT).handBack m i
      | some pba =>
        let d := d.modDisc x.ident fun y => { y with parityUsed := pba :: y.parityUsed }
        let d := d.modBlk i fun b => { b with pba := pba, copyFlag := true, copies := b.copies + 1 }
        d.queueItem m (d.itemOf m 1 pba i)

/-- The copy of a refresh was FAILED: the next slot is tried, up to RELOC_MAX copies (R314). -/
def retryRefresh (d : Dev) (m : Mech) (i : Nat) (r : Refresh) : Dev :=
  let d := d.modBlk i fun b => { b with phase := .cached, copies := b.copies + 1 }
  if d.get (Reg.GPE_GROUP_RELOC_MAX m) ≤ r.copies + 1 then d.skipRefresh m r
  else
    let r' := { r with copies := r.copies + 1 }
    (d.modGoat m fun g => { g with refreshes := g.refreshes.map (fun x => if x = r then r' else x) }).placeRefresh m r'

/-- The copy of a refresh was verified: a SPARED entry is written and the refresh ends (R314). A slice that has filled up since leaves the
refresh skipped. -/
def endRefresh (d : Dev) (m : Mech) (i : Nat) (b : Blk) (r : Refresh) (marginal : Bool) : Dev :=
  if d.drtNoRoom m r.pba then d.skipRefresh m r
  else
  let d := d.drtWrite m ⟨r.pba, b.pba, 3, false, marginal, min 3 (r.copies + 1), r.rung⟩
  let d := (d.count (Reg.GOAT_REFRESH_DONE m)).modGoat m fun g => { g with refreshes := g.refreshes.erase r }
  d.dropBlk i

/-- A block was classified GOOD or MARGINAL (R14, R281, R282): the remap entry of a copy or of a re-placed block is written, and
only then the block is released. A copy for whose entry the slice has no room any more is not released: the block is handed back. A
re-placed block is found by its own PBA where no entry maps the former one. -/
def verified (d : Dev) (m : Mech) (i : Nat) (b : Blk) (marginal : Bool) : Dev :=
  let full := d.drtNoRoom m b.orig
  let moved := decide (b.replaced = true ∧ b.orig ≠ b.pba)
  if b.copyFlag ∧ full then ((d.gpeEvent m Reg.GPE_EVENT_DRT_FULL).modBlk i fun x => { x with phase := .copying }).handBack m i
  else
    let mapped := b.copyFlag || moved && !full
    let d := if b.kind = 0 ∧ b.lost = 0 then d.locateAt m i b (if mapped then b.orig else b.pba) else d
    let d := if b.copyFlag then
        (d.drtWrite m ⟨b.orig, b.pba, 1, false, marginal, min 3 b.copies, 0⟩).bucketAdd m (d.get (Reg.GOAT_BKT_INC1_INC_FAIL m))
      else if moved then
        if full then d.modGroup b.group fun g => { g with missing := setb g.missing b.member }
        else d.drtWrite m ⟨b.orig, b.pba, 2, false, marginal, min 3 (max 1 b.copies), 0⟩
      else d
    d.releaseBlk i

/-- What follows from the class of block `i` (R281, R282, R314). -/
def ganderAct (d : Dev) (m : Mech) (i : Nat) (b : Blk) (cls : Nat) : Dev :=
  match (d.mx m).goat.refreshes.find? (fun r => decide (r.blk = i)) with
  | some r => if cls = 2 then d.retryRefresh m i r else d.endRefresh m i b r (cls == 1)
  | none =>
    if b.kind = 2 then d
    else if cls = 2 then if b.lost = 0 then d.relocate m i b else d.loseCopy m i b b.addr
    else d.verified m i b (cls == 1)

/-- The record of a class (R280): registers, counters, events, logs, the leaky bucket and the sequencer's condition. -/
def ganderRecord (d : Dev) (m : Mech) (pba : Nat) (copy : Bool) (cls lam : Nat) (frags : List Frag) : Dev :=
  let p := (d.codeOf m).1
  let n := max 1 (popcount 16 (d.get (Reg.WCH_MASK_MASK m)))
  let rec_ : GanderRec := ⟨(match d.discIn m with
    | some x => x.ident
    | none => 0), pba, cls, lam, frags.map (fun f => ⟨f.beam, f.first, f.last.getD (Codec.slotLen n p - 1)⟩)⟩
  let d := (d.modArc fun a => { a with gander := rec_ :: a.gander }).setAll [(Reg.GANDER_LAST_CLASS m, cls),
    (Reg.GANDER_LAST_FRAGS m, min 63 frags.length), (Reg.GANDER_LAST_LOAD m, min 65535 lam), (Reg.GANDER_LAST_PBA_PBA m, pba)]
  let d := if cls = 0 then d.count (Reg.GANDER_GOOD_COUNT m)
    else if cls = 1 then
      ((d.count (Reg.GANDER_MARG_COUNT m)).gpeEvent m Reg.GPE_EVENT_MARGINAL).bucketAdd m (d.get (Reg.GOAT_BKT_INC1_INC_MARG m))
    else
      let d := ((d.count (Reg.GANDER_FAIL_COUNT m)).set (Reg.GANDER_FAIL_PBA_PBA m) pba).gpeEvent m Reg.GPE_EVENT_FAILED
      (d.modQe fun q => { q with failedBlocks := q.failedBlocks + 1 }).elogAdd (0x40 + m.val) 4 (1 + b2n copy)
        [(16, 4, pba), (20, 2, lam), (22, 1, frags.length)]
  d.modFsq m fun x => if x.ganderPba = some pba then { x with ganderDone := true, ganderClass := cls } else x

/-- Closes a group whose planned count of members has been written (R276, R401). -/
def closeFull (d : Dev) (b : Blk) : Dev := match d.arc.groups.find? (fun g => decide (g.ident = b.group)) with
  | some g => if (b.kind = 0 ∨ b.kind = 3) ∧ ¬ g.closed ∧ g.planned ≤ popcount 32 g.written then d.closeGroup g.ident else d
  | none => d

/-- GANDER_CLASSIFY (R278–R283), from the verify readback of the block; a block of which no readback came has no sync mark. -/
def gander (d : Dev) (m : Mech) (pba : Nat) : Dev :=
  match d.bufx.blocks.find? (fun b => decide (b.2.mech = some m.val ∧ b.2.pba = pba ∧ b.2.phase = .written)) with
  | none => d
  | some (i, b) =>
    let frags := (((d.mx m).gate.ended.find? (fun e => decide (e.1 = pba))).map Prod.snd).getD []
    let v := ((d.mx m).rch.verify.find? (fun v => decide (v.pba = pba))).getD ⟨pba, false, []⟩
    let d := (d.modGate m fun x => { x with ended := x.ended.filter (fun e => decide (e.1 ≠ pba)) }).modRch m fun x =>
      { x with verify := x.verify.filter (fun v => decide (v.pba ≠ pba)) }
    let ls := d.loads m v.w frags
    let cls := d.ganderClass m v.found frags ls
    ((d.ganderRecord m b.pba b.copyFlag cls (maxLoad ls) frags).ganderAct m i b cls).closeFull b

/-! ### Time limits and underruns -/

/-- GROUP_TIMEOUT (R276): GROUP_TMO after the group's first member was written. -/
def groupTimeout (d : Dev) (m : Mech) (gid : Nat) : Dev :=
  match d.arc.groups.find? (fun g => decide (g.ident = gid ∧ g.mech = m.val ∧ g.closed = false ∧ g.opened ≠ none)) with
  | some _ => (d.closeGroup gid).gpeEvent m Reg.GPE_EVENT_GROUP_TMO
  | none => d

/-- A staged block becomes ready for placement, behind those handed off before it (R369, R403). -/
def handOff (d : Dev) (i : Nat) : Dev :=
  let o := d.arc.nextOrder + 1
  (d.modArc fun a => { a with nextOrder := o }).modBlk i fun b => { b with phase := .staged, order := o }

/-- PARTIAL_BLOCK_TIMEOUT (R369): GROUP_TMO after the block's first sector was staged. -/
def partialTimeout (d : Dev) (i : Nat) : Dev := match d.blk i with
  | some b => if b.phase = .filling then d.handOff i else d
  | none => d

/-- SLOT_UNDERRUN (R338). -/
def underrun (d : Dev) (m : Mech) (i : Nat) : Dev := match d.blk i with
  | some b =>
    if b.mech = some m.val ∧ (b.phase = .placed ∨ b.phase = .copying) ∧ ¬ ((d.mx m).wch.load = some i ∧ (d.mx m).wch.ready) then
      ((d.handBack m i).bufEvent Reg.BUF_EVENT_UNDERRUN).count Reg.BUF_UNDERRUN_COUNT
    else d
  | none => d

end Dev

/-! ### Meanings -/

/-- WCH_LOAD_DONE (R258–R266). -/
def execWchLoadDone (m : Mech) (s : State) : Host.Outcome State Fault Refusal := liftMech m (fun d => d.wchDone m s.buf) s
/-- GANDER_CLASSIFY (R279). -/
def execGanderClassify (m : Mech) (pba : Word) (s : State) : Host.Outcome State Fault Refusal := liftMech m (fun d => d.gander m pba.toNat) s
/-- GROUP_TIMEOUT (R276). -/
def execGroupTimeout (m : Mech) (gid : Nat) (s : State) : Host.Outcome State Fault Refusal := liftMech m (fun d => d.groupTimeout m gid) s
/-- PARTIAL_BLOCK_TIMEOUT (R369). -/
def execPartialBlockTimeout (blk : Nat) (s : State) : Host.Outcome State Fault Refusal :=
  liftDev (fun d => if d.up then d.partialTimeout blk else d) s
/-- SLOT_UNDERRUN (R338). -/
def execSlotUnderrun (m : Mech) (blk : Nat) (s : State) : Host.Outcome State Fault Refusal := liftMech m (fun d => d.underrun m blk) s

end Sys2Proof.Machine
end

