-- ==== Sys2Proof/Machine/QueueOps.lean ====
section
/-! DEFINITION. Data to and from the host (R361–R363), and what a block read from media gives the commands that wait on it (R305,
R315, R372). -/
namespace Sys2Proof.Machine

/-- The host segments of a command's data: (address, length), from DPTR and DLEN or the data list (R363). -/
def segments (s : Slot) : List (Nat × Nat) :=
  if tbit (byteField s.entry 1 1) 0 then
    (List.range (s.dlist.length / 16)).map (fun k => (byteField s.dlist (16 * k) 8, byteField s.dlist (16 * k + 8) 4))
  else [(byteField s.entry 16 8, byteField s.entry 24 4)]

/-- Cuts bytes at offset `o` of a command's data over its segments: (host address, bytes). -/
def scatter : List (Nat × Nat) → (o : Nat) → List Byte → List (Nat × List Byte)
  | [], _, _ => []
  | (a, l) :: t, o, b =>
    if b = [] then []
    else if l ≤ o then scatter t (o - l) b
    else (a + o, b.take (l - o)) :: scatter t 0 (b.drop (l - o))

namespace Dev

/-- Writes bytes at an offset of a command's host data, through the port it came from. -/
def putHost (d : Dev) (s : Slot) (o : Nat) (b : List Byte) : Dev :=
  (scatter (segments s) o b).foldl (fun d w => d.emit (.hostWrite s.port w.1 w.2)) d

/-- The sectors of a block that a want covers. -/
def wantMask (w : Want) : Nat :=
  (List.range 16).foldl (fun a k => if w.first < 4096 * k + 4096 ∧ 4096 * k < w.first + w.count then setb a k else a) 0

/-- Writes what a want reads of a block to the host, but for the sectors of `unrec` (R372). -/
def putWant (d : Dev) (s : Slot) (w : Want) (data : List Byte) (unrec : Nat) : Dev :=
  (List.range 16).foldl (fun d k =>
    let lo := max w.first (4096 * k)
    let hi := min (w.first + w.count) (4096 * k + 4096)
    if hi ≤ lo ∨ tbit unrec k then d else d.putHost s (w.dest + (lo - w.first)) ((data.drop lo).take (hi - lo))) d

/-- Whether a command reads without moving data: a Verify, or an Object Get with VERIFY (R371, R395). -/
def verifies (s : Slot) : Bool := opcode s == 4 || (opcode s == 0x21 && tbit (cdw s 7) 0)

/-- Gives a block to the command of slot `i` if it waits on it: `unrec` are its unrecovered sectors, `delay` what recovery took. -/
def deliverSlot (d : Dev) (m : Mech) (pba : Nat) (data : List Byte) (unrec delay : Nat) (i : Nat) : Dev := match d.slot i with
  | none => d
  | some s =>
    let mine (w : Want) : Bool := decide (w.mech = m.val ∧ w.pba = pba) && !w.done
    if s.phase ≠ .running ∨ ¬ s.wants.any mine then d
    else
      let d := d.addDelay i delay
      if s.lostXfer ∧ ¬ verifies s then d.finishSlot i 0x0C
      else
        let d := if verifies s then d else (s.wants.filter mine).foldl (fun d w => d.putWant s w data unrec) d
        let d := d.modSlot i fun s =>
          { s with
            moved := s.moved || !verifies s
            wants := s.wants.map (fun w => if mine w then { w with done := true, unrec := unrec &&& wantMask w } else w) }
        d.finishWants i

/-- Whether a held request reads a block. -/
def readsPba (pba : Nat) (h : HeldReq) : Bool :=
  h.req.pba.toNat == pba && (h.req.kind == .read || h.req.kind == .verify || h.req.kind == .objectGet)

/-- Gives a block to every command that waits on it; its requests leave the mechanism. -/
def deliver (d : Dev) (m : Mech) (pba : Nat) (data : List Byte) (unrec delay : Nat) : Dev :=
  let d := (d.slots.map Prod.fst).foldl (fun d i => d.deliverSlot m pba data unrec delay i) d
  d.modMech m fun x =>
    { x with
      mch := { x.mch with held := x.mch.held.filter (fun h => !readsPba pba h) }
      fsq := { x.fsq with items := x.fsq.items.filter (fun w => decide (¬ (w.entry = 2 ∧ w.blk = pba))) } }

/-- A decoded block enters the read cache (R305), its bytes into the buffer memory. -/
def cacheData (d : Dev) (buf : Memory) (m : Mech) (pba : Nat) (data : List Byte) : Dev × Memory :=
  match d.atPba m pba with
  | none => (d, buf)
  | some l => match d.cacheBlk l m.val with
    | (d, some a) => (d, buf.writeBytes a (data.take blkBytes))
    | (d, none) => (d, buf)

end Dev

/-- The outcome of a command that acts on one mechanism and on the buffer memory. -/
def liftMechBuf (m : Mech) (f : Dev → Memory → Dev × Memory) (s : State) : Host.Outcome State Fault Refusal :=
  liftBuf (fun d b => if d.up ∧ ¬ d.mechInReset m then (((f d b).1.settle m), (f d b).2) else (d, b)) s

end Sys2Proof.Machine
end

