-- ==== Sys2Proof/Machine/Recovery.lean ====
section
/-! DEFINITION. Reading back (R301–R316): codeword outcomes, decoded blocks, Goat's ladder, group decoding, refreshes, the leaky bucket,
and the remap table's lookup and load (R317–R323). -/
namespace Sys2Proof.Machine
namespace Dev

/-! ### The decoder pool -/

/-- The histogram bin of an iteration count (R321). -/
def histBin (n : Nat) : Fin 8 :=
  if n ≤ 2 then 0 else if n ≤ 4 then 1 else if n ≤ 6 then 2 else if n ≤ 8 then 3 else if n ≤ 12 then 4 else if n ≤ 16 then 5
  else if n ≤ 24 then 6 else 7

/-- What the outcome of a codeword counts (R303, R316). -/
def countCw (d : Dev) (m : Mech) : CwOutcome → Dev
  | .converged n =>
    let d := (d.count (Reg.DEC_CW_CONVERGED m)).count (Reg.DEC_HIST_COUNT m (histBin n))
    if d.get (Reg.DEC_CFG_ITER_WARN m) < n then d.bucketAdd m (d.get (Reg.GOAT_BKT_INC0_INC_ITER m)) else d
  | .erased => d.count (Reg.DEC_FAIL_ERASED m)
  | .iter => d.count (Reg.DEC_FAIL_ITER m)
  | .flip => d.count (Reg.DEC_FAIL_FLIP m)
  | .backlog => d.count (Reg.DEC_FAIL_BACKLOG m)

/-- Whether an outcome is CONVERGED. -/
def cwGood : CwOutcome → Bool
  | .converged _ => true
  | _ => false

/-- The user bytes of a codeword's bits (R263). -/
def cwBytes (bits : List Bool) : List Byte := Rch.bytesOf 4096 bits

/-- The outcome of a codeword of the pool: stopped, or as the decoder finds (R302–R304). -/
def cwOutcome (d : Dev) (m : Mech) (j : CwJob) : CwOutcome × List Bool :=
  if j.stopped then (.backlog, [])
  else Ldpc.decode j.p (d.get (Reg.DEC_CFG_OFS m)) (d.get (Reg.DEC_CFG_ITER_LIMIT m)) (d.get (Reg.DEC_CFG_FLIP_MAX m)) j.llr

/-- Changes the record of a block read. -/
def modRead (d : Dev) (m : Mech) (pba : Nat) (f : ReadBlk → ReadBlk) : Dev :=
  d.modRch m fun x => { x with reads := x.reads.map (fun r => if r.pba = pba then f r else r) }

/-- The record of a block read. -/
def readAt (d : Dev) (m : Mech) (pba : Nat) : Option ReadBlk := (d.mx m).rch.reads.find? (fun r => decide (r.pba = pba))

/-- Drops the record of a block read. -/
def dropRead (d : Dev) (m : Mech) (pba : Nat) : Dev := d.modRch m fun x => { x with reads := x.reads.filter (fun r => decide (r.pba ≠ pba)) }

/-- What the outcome of codeword `c` leaves in the record of its block, and what the sequencer sees of it where it is the last block read
(R305, R450). -/
def noteCw (d : Dev) (m : Mech) (pba c : Nat) (o : CwOutcome) (bits : List Bool) : Dev :=
  let ok := cwGood o
  (d.modRead m pba fun r =>
    { r with left := r.left - 1, good := if ok then setb r.good c else r.good, data := if ok then (c, cwBytes bits) :: r.data else r.data }).modFsq m
    fun x => if x.readBlk = some pba ∧ 0 < x.decLeft then
        { x with decLeft := x.decLeft - 1, decFailed := if ok then x.decFailed else setb x.decFailed c }
      else x

/-- Queues a re-read (R309). -/
def queueReread (d : Dev) (m : Mech) (pba : Nat) : Dev := d.queueItem m (d.itemOf m 6 pba pba)

/-- The other members of the group of a block (R312): their PBAs. -/
def groupMates (d : Dev) (m : Mech) (pba : Nat) : List Nat := match d.discIn m with
  | none => []
  | some x => match d.arc.groups.find? (fun g => g.disc == x.ident && (g.members.any (fun b => b.2 == pba) || g.parityPba.contains pba)) with
    | none => []
    | some g => (g.members.map Prod.snd ++ g.parityPba).filter (fun a => decide (a ≠ pba))

/-- A member read for group decoding of which a codeword has failed is read again, as in rung 1 (R312). -/
def retryMate (d : Dev) (m : Mech) (pba : Nat) : Dev := match d.readAt m pba with
  | none => d
  | some r =>
    let mate := (d.mx m).goat.ctxs.any (fun c => decide (c.rung = 7 ∧ c.ended = false) && (d.groupMates m c.pba).any (fun a => d.remap m a == pba)) &&
      !(d.mx m).goat.ctxs.any (fun c => decide (c.media = pba))
    if mate ∧ r.left = 0 ∧ r.good ≠ 0xFFFF ∧ r.tries < d.get (Reg.GOAT_CFG_REREAD_N m) then
      (d.modRead m pba fun r => { r with tries := r.tries + 1 }).queueReread m pba
    else d

/-- CODEWORD_DECODED (R302–R304, R321): the codeword that entered the pool first ends. -/
def codeword (d : Dev) (m : Mech) : Dev := match (d.mx m).rch.jobs with
  | [] => d
  | j :: rest =>
    let r := d.cwOutcome m j
    ((((d.countCw m r.1).modRch m fun x => { x with jobs := rest }).decSync m).noteCw m j.pba j.cw r.1 r.2).retryMate m j.pba

/-! ### Goat -/

/-- Changes the context of a block. -/
def modCtx (d : Dev) (m : Mech) (pba : Nat) (f : GoatCtx → GoatCtx) : Dev :=
  d.modGoat m fun g => { g with ctxs := g.ctxs.map (fun c => if c.pba = pba then f c else c) }

/-- The context of a block. -/
def ctx (d : Dev) (m : Mech) (pba : Nat) : Option GoatCtx := (d.mx m).goat.ctxs.find? (fun c => decide (c.pba = pba))

/-- Media reads or passes of a rung (R307). -/
def rungReads (d : Dev) (m : Mech) (r : Nat) : Nat :=
  if r = 1 then d.get (Reg.GOAT_CFG_REREAD_N m) else if r = 2 then 2 * d.get (Reg.GOAT_CFG_FOC_STEPS m) else if r = 3 then 2 else 1

/-- Whether the buffer holds the block recorded at a PBA. -/
def buffered (d : Dev) (m : Mech) (pba : Nat) : Bool := d.bufx.blocks.any (fun b => decide (b.2.mech = some m.val ∧ b.2.pba = pba))

/-- A context enters a rung (R307): one with no reads is passed over; re-reads are queued, and at rung 7 the reads of the members that
are not in the buffer (R312). -/
def enterRung (d : Dev) (m : Mech) (pba : Nat) : (fuel : Nat) → (r : Nat) → Dev
  | 0, _ => d
  | f + 1, r =>
    if d.rungReads m r = 0 then d.enterRung m pba f (r + 1)
    else
      let d := d.modCtx m pba fun c => { c with rung := r, reads := 0 }
      match d.ctx m pba with
      | none => d
      | some c =>
        if r ≤ 3 then d.queueReread m c.media
        else if r = 7 then ((d.groupMates m pba).filter (fun a => !d.buffered m a)).foldl (fun d a => d.queueReread m (d.remap m a)) d
        else d

/-- Mean magnitude of a payload's LLRs, in 1/256. -/
def meanLlr (l : List (Option Int)) : Nat := (l.map (fun v => (v.getD 0).natAbs)).foldl (· + ·) 0 * 256 / max 1 l.length

/-- The weak beams of a block: their mean |LLR| is below half the mean of the beams in use (R307 rung 3). -/
def weakBeams (r : ReadBlk) : Nat :=
  let us := (List.range 16).filter (tbit r.mask)
  let ms := r.pays.map meanLlr
  let total := ms.foldl (· + ·) 0
  (us.zip ms).foldl (fun a um => if 2 * um.2 * ms.length < total then setb a um.1 else a) 0

/-- Readback error of a read: the mean over its beams (R306). -/
def readMse (r : ReadBlk) : Nat := r.mses.foldl (· + ·) 0 / max 1 r.mses.length

/-- The best of the stored reads: the lowest readback error (R306). -/
def bestRead (l : List ReadBlk) : Option ReadBlk :=
  l.foldl (fun acc r => match acc with
    | none => some r
    | some b => if readMse r < readMse b then some r else acc) none

/-- Only the best read keeps its raw samples (R306). -/
def keepBest (l : List ReadBlk) : List ReadBlk :=
  let b := bestRead l
  l.map (fun r => if some r = b then r else { r with raws := [], frame := none })

/-- Stores a read: the first four are kept, and after that one replaces the stored read of highest readback error where its own is lower
(R307). -/
def storeRead (l : List ReadBlk) (r : ReadBlk) : List ReadBlk :=
  if r.fate ≠ .coded then l
  else if l.length < 4 then keepBest (l ++ [r])
  else
    let worst := l.foldl (fun a x => max a (readMse x)) 0
    if readMse r < worst then match l.findIdx? (fun x => decide (readMse x = worst)) with
      | some i => keepBest (l.set i r)
      | none => l
    else l

/-- Whether a failed codeword has more than p × 512 positions erased by fragments, retired beams and dropouts together (R308). -/
def tooErased (r : ReadBlk) : Bool := r.hard.zipIdx.any (fun h => !tbit r.good h.2 && decide (r.p * 512 < h.1))

/-- GOAT_CONTEXT_OPEN (R306, R308): the block that has waited longest opens a context, with what its first read has given. -/
def openCtx (d : Dev) (m : Mech) (pba : Nat) : Dev :=
  match (d.mx m).goat.waiting with
  | (p, conv, t) :: rest =>
    if p ≠ pba ∨ 8 ≤ (d.mx m).goat.ctxs.length then d
    else
      let media := d.remap m pba
      let r := d.readAt m media
      let skip := (r.map tooErased).getD false && d.on (Reg.GOAT_CFG_SKIP_EN m)
      let c : GoatCtx :=
        { pba := pba, media := media, rung := 0, reads := 0, stored := (r.map (fun r => storeRead [] r)).getD [], third := none, soft := []
          data := (r.map ReadBlk.data).getD [], converged := conv, opened := d.now, hurry := false, skipped := skip, ran7 := false
          failedAt7 := 0, maxErased := 0, firstFail := t, weak := (r.map weakBeams).getD 0, ended := false }
      let d := (d.dropRead m media).modGoat m fun g => { g with waiting := rest, ctxs := g.ctxs ++ [c] }
      (d.enterRung m pba 8 (if skip then 7 else 1)).goatSync m
  | [] => d

/-- The ladder of a context is over. -/
def endLadder (d : Dev) (m : Mech) (pba : Nat) : Dev := d.modCtx m pba fun c => { c with ended := true }

/-- Codewords that have not converged. -/
def failedOf (c : GoatCtx) : Nat := 16 - popcount 16 c.converged

/-- What follows a rung that has left codewords unconverged (R307, R308, R310). -/
def nextRung (d : Dev) (m : Mech) (c : GoatCtx) : Dev :=
  if c.hurry then (if c.ran7 then d.endLadder m c.pba else d.enterRung m c.pba 8 7)
  else if c.rung < 6 then d.enterRung m c.pba 8 (c.rung + 1)
  else if c.ran7 ∧ c.failedAt7 ≤ failedOf c then d.endLadder m c.pba
  else d.enterRung m c.pba 8 7

/-- Decodes the codewords of payloads that a context has not got yet, with an iteration limit: what they count, and the codewords found
(R307). -/
def decodePays (d : Dev) (m : Mech) (p limit conv : Nat) (pays : List (List (Option Int))) : Dev × List (Nat × List Byte) :=
  ((Rch.codewords p pays).zipIdx.filter (fun v => !tbit conv v.2)).foldl (fun (x : Dev × List (Nat × List Byte)) v =>
    let r := Ldpc.decode p (x.1.get (Reg.DEC_CFG_OFS m)) limit (x.1.get (Reg.DEC_CFG_FLIP_MAX m)) (v.1.map (fun o => o.getD none))
    (x.1.countCw m r.1, if cwGood r.1 then (v.2, cwBytes r.2) :: x.2 else x.2)) (d, [])

/-- A context with more codewords. -/
def addCws (c : GoatCtx) (l : List (Nat × List Byte)) : GoatCtx :=
  { c with converged := l.foldl (fun a x => setb a x.1) c.converged, data := l ++ c.data }

/-- Each beam keeps the read that gives it the lower readback error (R307 rung 3). -/
def betterOf (a b : ReadBlk) : ReadBlk :=
  if a.mask ≠ b.mask then b
  else
    let first := List.zipWith (fun x y => decide (x < y)) a.mses b.mses
    let pick {α : Type} (f : ReadBlk → List α) : List α := List.zipWith (fun x y => if y.1 then x else y.2) (f a) (first.zip (f b))
    { b with pays := pick ReadBlk.pays, mses := pick ReadBlk.mses, e2 := pick ReadBlk.e2, places := pick ReadBlk.places, hints := pick ReadBlk.hints }

/-- A read of rungs 1 to 3 has been decoded: its codewords and its LLRs enter the context. At the second read of rung 3 the reads are put
together beam by beam and decoded once more (R307). -/
def rungRead (d : Dev) (m : Mech) (c : GoatCtx) (r : ReadBlk) : Dev × GoatCtx :=
  let c : GoatCtx := { c with converged := c.converged ||| r.good, data := (r.data.filter fun (x : Nat × List Byte) => !tbit c.converged x.1) ++ c.data }
  if c.rung ≠ 3 ∨ r.fate ≠ .coded then (d, { c with stored := storeRead c.stored r })
  else match c.third with
    | none => (d, { c with third := some r, stored := storeRead c.stored r })
    | some a =>
      let b := betterOf a r
      let x := d.decodePays m b.p (d.get (Reg.DEC_CFG_ITER_LIMIT m)) c.converged b.pays
      (x.1, addCws { c with third := none, stored := storeRead c.stored b } x.2)

/-- Reprocesses raw samples with the canceller in wide mode, adapting over three passes; the results of the third (R307 rung 4). -/
def widePasses (cs : List Rch.Cfg) (raws : List (List (Option (BitVec 6)))) (len : Nat) : (n : Nat) → List Rch.Res
  | 0 => []
  | n + 1 =>
    let prev := widePasses cs raws len n
    let next := cs.zipIdx.map (fun c => match prev[c.2]? with
      | some r => { c.1 with eq0 := r.eq, xt0 := r.xt }
      | none => c.1)
    Rch.run next raws len

/-- Rung 4 (R307). -/
def rung4 (d : Dev) (m : Mech) (c : GoatCtx) : Dev × GoatCtx := match bestRead c.stored with
  | none => (d, c)
  | some r => match r.frame with
    | none => (d, c)
    | some f =>
      let len := f.len.getD 0
      let cs := (d.frameCfgs m f len).map (fun c => { c with wide := true })
      let v := readOf f len r.raws (widePasses cs r.raws len 3)
      if v.fate ≠ .coded then (d, c)
      else
        let x := d.decodePays m v.p (d.get (Reg.DEC_CFG_ITER_LIMIT m)) c.converged v.pays
        (x.1, addCws c x.2)

/-- Sum of LLRs, saturated: an erased position contributes 0, and one erased in every read stays erased (R307 rung 5). -/
def sumAll (l : List (Option Int)) : Option Int :=
  if l.all Option.isNone then none else some (max (-15) (min 15 ((l.map (fun v => v.getD 0)).foldl (· + ·) 0)))

/-- The payloads of the stored reads of the same beams and strength, summed position by position (R307 rung 5). -/
def softPays (l : List ReadBlk) : List (List (Option Int)) := match l with
  | [] => []
  | r :: _ =>
    let same := l.filter (fun x => decide (x.mask = r.mask ∧ x.p = r.p))
    r.pays.zipIdx.map (fun pb => pb.1.zipIdx.map (fun v => sumAll (same.map (fun x => (x.pays.getD pb.2 []).getD v.2 none))))

/-- Rung 5 (R307). -/
def rung5 (d : Dev) (m : Mech) (c : GoatCtx) : Dev × GoatCtx := match c.stored with
  | [] => (d, c)
  | r :: _ =>
    let soft := softPays c.stored
    let x := d.decodePays m r.p (d.get (Reg.DEC_CFG_ITER_LIMIT m)) c.converged soft
    (x.1, addCws { c with soft := soft } x.2)

/-- Whether channel bit `j` lies in a span of MARK_WIN bits whose mean e² is above MARK_LVL, widened by DD_PAD (R307 rung 6): e² in 2^-40,
the level in 1/256 of full scale squared. -/
def marked (lvl win pad : Nat) (e2 : List Nat) : List (Nat × Nat) :=
  (List.range (e2.length + 1 - win)).filterMap (fun i =>
    if lvl * win * 2 ^ 40 < ((e2.drop i).take win).foldl (· + ·) 0 * 256 then some (i - pad, i + win - 1 + pad) else none)

/-- Rung 6 (R307). -/
def rung6 (d : Dev) (m : Mech) (c : GoatCtx) : Dev × GoatCtx := match bestRead c.stored with
  | none => (d, c)
  | some r =>
    let us := (List.range 16).filter (tbit r.mask)
    let lvl := d.get (Reg.GOAT_CFG_MARK_LVL m)
    let win := d.get (Reg.GOAT_CFG_MARK_WIN m)
    let pays := c.soft.zipIdx.map (fun pb =>
      let u := us.getD pb.2 0
      let pad := d.get (Reg.RCH_DD_CFG_DD_PAD m ⟨u % 16, Nat.mod_lt _ (by decide)⟩)
      let spans := r.hints.getD pb.2 [] ++ marked lvl win pad (r.e2.getD pb.2 [])
      List.zipWith (fun v e => if e then none else v) pb.1 (payIn (r.places.getD pb.2 896) pb.1.length spans))
    let x := d.decodePays m r.p (d.get (Reg.GOAT_CFG_ITER_G m)) c.converged pays
    (x.1, addCws c x.2)

/-- What one read or pass of a rung gives a context; `none` while its read has not been decoded (R307). -/
def rungPass (d : Dev) (m : Mech) (c : GoatCtx) : Option (Dev × GoatCtx) :=
  if c.rung ≤ 3 then match d.readAt m c.media with
    | some r => if r.left = 0 then some ((d.dropRead m c.media).rungRead m c r) else none
    | none => none
  else if c.rung = 4 then some (d.rung4 m c)
  else if c.rung = 5 then some (d.rung5 m c)
  else some (d.rung6 m c)

/-- GOAT_RUNG_DONE (R307): one read or pass of the rung in progress. -/
def rungDone (d : Dev) (m : Mech) (pba : Nat) : Dev := match d.ctx m pba with
  | none => d
  | some c =>
    if c.ended ∨ c.rung = 7 ∨ c.converged = 0xFFFF then d
    else match d.rungPass m c with
      | none => d
      | some (d, c) =>
        let c := { c with reads := c.reads + 1 }
        let d := d.modCtx m pba fun _ => c
        if c.converged = 0xFFFF then d
        else if c.reads < d.rungReads m c.rung then (if c.rung ≤ 3 then d.queueReread m c.media else d)
        else d.nextRung m c

/-- GOAT_TIMEOUT (R310). -/
def goatTimeout (d : Dev) (m : Mech) (pba : Nat) : Dev := d.modCtx m pba fun c => { c with hurry := true }

/-- A member of a group as the GPE finds it: its exponent in the code, its PBA, the codewords it has and the positions that hints touched
in each; a member in the buffer has all of them. -/
structure Mate where
  exp : Nat
  pba : Nat
  cws : List (Option (List Byte))
  hinted : List Nat
  suspect : Bool

/-- The codewords that a list of (index, bytes) holds. -/
def cwsOf (l : List (Nat × List Byte)) : List (Option (List Byte)) :=
  (List.range 16).map (fun c => (l.find? (fun x => decide (x.1 = c))).map Prod.snd)

/-- The block that the buffer holds of a PBA of the disc in `m`. -/
def bufferedBlk (d : Dev) (m : Mech) (pba : Nat) : Option Blk :=
  (d.bufx.blocks.find? (fun b => decide (b.2.mech = some m.val ∧ b.2.pba = pba))).map Prod.snd

/-- A member of the group (R312): from the buffer, from its read, or not known at all. -/
def mateOf (d : Dev) (buf : Memory) (m : Mech) (c : GoatCtx) (q member pba : Nat) (missing : Bool) : Mate :=
  let e := GroupCode.exponent q member
  let none16 : List (Option (List Byte)) := List.replicate 16 none
  if pba = c.pba then ⟨e, pba, cwsOf c.data, [], false⟩
  else if missing then ⟨e, pba, none16, [], false⟩
  else match d.bufferedBlk m pba, d.readAt m (d.remap m pba) with
    | some b, _ =>
      let data := d.blockData buf b
      ⟨e, pba, (List.range 16).map (fun k => some ((data.drop (4096 * k)).take 4096)), [], false⟩
    | none, some r => if r.fate = .coded then ⟨e, pba, cwsOf r.data, r.hinted, true⟩ else ⟨e, pba, none16, [], false⟩
    | none, none => ⟨e, pba, none16, [], false⟩

/-- The members of the group of a block, with q (R312): those up to the count reached, and the parity blocks. -/
def matesOf (d : Dev) (buf : Memory) (m : Mech) (c : GoatCtx) : Nat × List Mate := match d.discIn m with
  | none => (0, [])
  | some x => match d.arc.groups.find? (fun g => g.disc == x.ident && (g.members.any (fun b => b.2 == c.pba) || g.parityPba.contains c.pba)) with
    | none => (0, [])
    | some g => (g.q, g.members.map (fun b => d.mateOf buf m c g.q b.1 b.2 (tbit g.missing b.1)) ++
        g.parityPba.zipIdx.map (fun b => d.mateOf buf m c g.q (32 + b.2) b.1 false))

/-- Gander's load of a block, 0 without a record. -/
def loadAt (d : Dev) (m : Mech) (pba : Nat) : Nat := match d.discIn m with
  | none => 0
  | some x => ((d.arc.gander.find? (fun g => decide (g.disc = x.ident ∧ g.pba = pba))).map GanderRec.load).getD 0

/-- The suspects of range `k` (R313): codewords of other members that converged but overlap a servo hint or a Gander fragment, those of the
largest Gander load first, then of most hinted positions. -/
def suspectsOf (d : Dev) (m : Mech) (k : Nat) (l : List Mate) : List Nat :=
  let frag (a : Mate) : Bool := (List.range 16).any (fun b => d.ganderSpans m a.pba b != [])
  let s := l.filter (fun a => a.suspect && (a.cws.getD k none).isSome && (decide (0 < a.hinted.getD k 0) || frag a))
  (s.mergeSort (fun a b =>
    let la := d.loadAt m a.pba
    let lb := d.loadAt m b.pba
    decide (lb < la) || (la == lb && decide (b.hinted.getD k 0 ≤ a.hinted.getD k 0)))).map Mate.exp

/-- Group decoding of range `k`: the codewords recovered, by exponent, whether unchecked, and |E_c| (R312, R313). -/
def groupRange (d : Dev) (m : Mech) (q k : Nat) (l : List Mate) : List (Nat × List Byte) × Bool × Nat :=
  let es := (l.filter (fun a => (a.cws.getD k none).isNone)).map Mate.exp
  if es = [] then ([], false, 0)
  else
    let known := l.filterMap (fun a => (a.cws.getD k none).map (fun b => (a.exp, Codec.symbols16 b)))
    match GroupCode.recover q 2048 known (d.suspectsOf m k l) es with
    | (some sol, u, n) => (sol.map (fun s => (s.1, Codec.bytes16 s.2)), u, n)
    | (none, _, n) => ([], false, n)

/-- Whether a member that group decoding waits for has not been read yet. -/
def mateWaits (d : Dev) (m : Mech) (a : Nat) : Bool :=
  !d.buffered m a && (match d.readAt m (d.remap m a) with
    | some r => decide (r.left ≠ 0)
    | none => (d.mx m).fsq.items.any (fun w => decide (w.entry = 6 ∧ w.blk = d.remap m a)))

/-- The other members that group decoding made whole enter the read cache (R313). -/
def cacheMates (d : Dev) (buf : Memory) (m : Mech) (self : Nat) (l : List Mate) (res : List (List (Nat × List Byte))) : Dev × Memory :=
  l.foldl (fun x a =>
    let cws := a.cws.zipIdx.map (fun c => c.1.orElse (fun _ => ((res.getD c.2 []).find? (fun s => decide (s.1 = a.exp))).map Prod.snd))
    if a.pba = self ∨ a.cws.all Option.isSome ∨ ¬ cws.all Option.isSome then x
    else x.1.cacheData x.2 m a.pba (cws.flatMap (fun c => c.getD []))) (d, buf)

/-- GROUP_DECODE_DONE (R308, R312, R313): rung 7 runs once every other member has been obtained. -/
def groupDone (d : Dev) (buf : Memory) (m : Mech) (pba : Nat) : Dev × Memory := match d.ctx m pba with
  | none => (d, buf)
  | some c =>
    if c.ended ∨ c.rung ≠ 7 ∨ c.converged = 0xFFFF ∨ (d.groupMates m pba).any (d.mateWaits m) then (d, buf)
    else
      let (q, l) := d.matesOf buf m c
      let res := (List.range 16).map (fun k => d.groupRange m q k l)
      let self := (l.find? (fun a => decide (a.pba = pba))).map Mate.exp
      let found := res.zipIdx.filterMap (fun r => ((r.1.1.find? (fun s => decide (some s.1 = self ∧ tbit c.converged r.2 = false))).map (fun s => (r.2, s.2))))
      let unchecked := (res.filter (fun r => r.2.1)).length
      let d := ((d.count (Reg.GPE_GRP_DECODES m)).count (Reg.GPE_GRP_UNCHECKED m) unchecked).goatEvent m Reg.GOAT_EVENT_GROUP
      let c' := addCws { c with maxErased := (res.map (fun r => r.2.2)).foldl max c.maxErased, ran7 := true } found
      let c' := { c' with failedAt7 := if c.ran7 then c.failedAt7 else failedOf c' }
      let (d, buf) := (d.modCtx m pba fun _ => c').cacheMates buf m pba l (res.map Prod.fst)
      if c'.converged = 0xFFFF then (d, buf)
      else if c.skipped ∧ ¬ c.ran7 ∧ ¬ c.hurry then (d.enterRung m pba 8 1, buf)
      else (d.endLadder m pba, buf)

/-- A recovered block is queued for refresh (R314): its bytes stay in the buffer until the refresh ends. -/
def queueRefresh (d : Dev) (buf : Memory) (m : Mech) (pba rung : Nat) (data : List Byte) : Dev × Memory :=
  let skip (d : Dev) : Dev := (d.count (Reg.GOAT_REFRESH_SKIPPED m)).goatEvent m Reg.GOAT_EVENT_REFRESH_SKIP
  match d.atPba m pba, d.discIn m with
  | some l, some x =>
    if (d.mx m).goat.refreshes.any (fun r => decide (r.pba = pba)) then (d, buf)
    else if 64 ≤ (d.mx m).goat.refreshes.length ∨ d.drtNoRoom m pba then (skip d, buf)
    else
      let i := d.bufx.nextBlk
      let a := d.newAddr
      let g := d.arc.groups.find? (fun g => g.disc == x.ident && g.members.any (fun b => b.2 == pba))
      let b := { emptyBlk l.key a d.now with pool := .cache, phase := .cached, valid := l.mask, mech := some m.val, pba := pba, orig := pba, refresh := true, group := (g.map Group.ident).getD 0, member := (g.bind (fun g => (g.members.find? (fun b => b.2 == pba)).map Prod.fst)).getD 0, planned := (g.map (fun g => popcount 32 g.written)).getD 0 }
      let d := (d.addBlk b).modGoat m fun g => { g with refreshes := g.refreshes ++ [⟨pba, i, rung, 0⟩] }
      (d.goatSync m, buf.writeBytes a (data.take blkBytes))
  | _, _ => (skip d, buf)

/-- The bytes of a block from its codewords (R263); those of a codeword that is not known are 0 (the mask says which). -/
def cwData (l : List (Nat × List Byte)) : List Byte := (cwsOf l).flatMap (fun c => c.getD (List.replicate 4096 0))

/-- RECOVERY_END (R314, R315, R316). -/
def recoveryEnd (d : Dev) (buf : Memory) (m : Mech) (pba : Nat) : Dev × Memory := match d.ctx m pba with
  | none => (d, buf)
  | some c =>
    let ok := c.converged == 0xFFFF
    if ¬ ok ∧ ¬ c.ended then (d, buf)
    else
      let unrec := 0xFFFF - c.converged
      let data := cwData c.data
      let d := d.modMech m fun x =>
        { x with
          goat := { x.goat with ctxs := x.goat.ctxs.filter (fun e => decide (e.pba ≠ pba)) }
          fsq := { x.fsq with items := x.fsq.items.filter (fun w => decide (¬ (w.entry = 6 ∧ w.pba = c.media))) } }
      let d := (d.setAll [(Reg.GOAT_LAST_PBA_PBA m, pba), (Reg.GOAT_LAST_RUNG m, c.rung), (Reg.GOAT_LAST_RECOVERED m, b2n ok),
        (Reg.GOAT_LAST_SKIPPED m, b2n c.skipped), (Reg.GOAT_LAST_MASK m, unrec)]).goatSync m
      let delay := d.now - c.firstFail
      if ok then
        let d := d.count (Reg.GOAT_RUNG_COUNT m ⟨(c.rung - 1) % 7, Nat.mod_lt _ (by decide)⟩)
        let d := d.bucketAdd m (d.get (if c.rung ≤ 3 then Reg.GOAT_BKT_INC0_INC_LO m
          else if c.rung ≤ 6 then Reg.GOAT_BKT_INC0_INC_HI m else Reg.GOAT_BKT_INC0_INC_GROUP m))
        let (d, buf) := d.cacheData buf m pba data
        let r := d.get (Reg.GOAT_CFG_REFRESH_RUNG m)
        let (d, buf) := if r ≠ 0 ∧ r ≤ c.rung then d.queueRefresh buf m pba c.rung data else (d, buf)
        (d.deliver m pba data 0 delay, buf)
      else
        let d := ((d.count (Reg.GOAT_UNREC_UNREC m)).goatEvent m Reg.GOAT_EVENT_UNREC).elogAdd (0x40 + m.val) 5 c.rung
          [(16, 4, pba), (20, 2, unrec), (22, 1, c.maxErased), (23, 1, b2n c.skipped)]
        (d.deliver m pba data unrec delay, buf)

/-! ### Decoded blocks -/

/-- Whether some command or context waits for a block. -/
def wantedBlk (d : Dev) (m : Mech) (pba : Nat) : Bool := (d.mx m).mch.held.any (readsPba pba)

/-- A block has failed (R306): it waits for a context, unless it is in recovery. One that fails while all eight contexts are in use
is read again. -/
def goatWait (d : Dev) (m : Mech) (pba conv : Nat) : Dev :=
  let g := (d.mx m).goat
  if g.ctxs.any (fun c => decide (c.pba = pba)) ∨ g.waiting.any (fun c => decide (c.1 = pba)) ∨ ¬ d.wantedBlk m pba then d
  else (d.modGoat m fun g => { g with waiting := g.waiting ++ [(pba, if 8 ≤ g.ctxs.length then 0 else conv, d.now)] }).goatSync m

/-- BLOCK_DECODED (R301, R305): the outcome of every codeword of the block is known, or the block failed before decoding. What goes to
Goat waits with its record; while all eight contexts are in use it is read again. -/
def blockDecoded (d : Dev) (buf : Memory) (m : Mech) (pba : Nat) : Dev × Memory :=
  let media := d.remap m pba
  match d.readAt m media with
  | none => (d, buf)
  | some r =>
    if r.left ≠ 0 then (d, buf)
    else if r.fate = .blank then ((d.dropRead m media).deliver m pba (List.replicate blkBytes 0) 0 0, buf)
    else if r.fate = .coded ∧ r.good = 0xFFFF then
      let (d, buf) := ((d.dropRead m media).count (Reg.DEC_BLOCKS_BLOCKS m)).cacheData buf m pba (cwData r.data)
      (d.deliver m pba (cwData r.data) 0 0, buf)
    else
      let d := if 8 ≤ (d.mx m).goat.ctxs.length then d.dropRead m media else d
      (d.goatWait m pba r.good, buf)

/-! ### The leaky bucket, refreshes and the remap table -/

/-- BUCKET_LEAK (R316). -/
def bucketLeak (d : Dev) (m : Mech) : Dev :=
  if ¬ d.on (Reg.GOAT_BKT_CFG_LEAK_MS m) then d
  else
    let d := d.set (Reg.GOAT_BKT_LVL_LEVEL m) (d.get (Reg.GOAT_BKT_LVL_LEVEL m) - 1)
    if 2 * d.get (Reg.GOAT_BKT_LVL_LEVEL m) ≤ d.get (Reg.GOAT_BKT_CFG_DEPTH m) then d.set (Reg.GOAT_BKT_LVL_ARMED m) 1 else d

/-- REFRESH_IDLE_TIMEOUT (R314). -/
def refreshIdle (d : Dev) (m : Mech) : Dev := if d.mstate m = .tracking then d.placeRefreshes m else d

/-- DRT_LOOKUP (R318, R323). -/
def drtLookup (d : Dev) (m : Mech) (pba : Nat) : Dev := match d.drtFind m pba with
  | some e => d.setAll [(Reg.DRT_LOOKUP_RES_DONE m, 1), (Reg.DRT_LOOKUP_RES_HIT m, 1), (Reg.DRT_LOOKUP_RES_INDEX m, e.2), (Reg.DRT_LOOKUP_TO_TO m, e.1.dst)]
  | none => d.setAll [(Reg.DRT_LOOKUP_RES_DONE m, 1), (Reg.DRT_LOOKUP_RES_HIT m, 0), (Reg.DRT_LOOKUP_RES_INDEX m, 0), (Reg.DRT_LOOKUP_TO_TO m, 0)]

/-- An entry of the slice from its three words (R317). -/
def drtOf (e : Word × Word × Word) : DrtEntry :=
  let a := e.2.2.toNat
  ⟨e.1.toNat, e.2.1.toNat, bits a 0 3, tbit a 3, tbit a 4, bits a 5 2, bits a 8 3⟩

/-- DRT_SLICE_LOAD (R319): the slice of the disc now loaded; held requests go on. -/
def drtLoad (d : Dev) (m : Mech) (l : List (Word × Word × Word)) : Dev :=
  let es := ((l.map drtOf).filter (fun e => decide (e.kind ≠ 0))).take 2048
  if d.on (Reg.DRT_STAT_LOADED m) then d
  else ((d.modGoat m fun g => { g with drt := es }).drtSync m).set (Reg.DRT_STAT_LOADED m) 1

end Dev

/-! ### Meanings -/

/-- CODEWORD_DECODED (R303). -/
def execCodewordDecoded (m : Mech) (s : State) : Host.Outcome State Fault Refusal := liftMech m (fun d => d.codeword m) s
/-- BLOCK_DECODED (R305). -/
def execBlockDecoded (m : Mech) (pba : Word) (s : State) : Host.Outcome State Fault Refusal :=
  liftMechBuf m (fun d b => d.blockDecoded b m pba.toNat) s
/-- GOAT_CONTEXT_OPEN (R306). -/
def execGoatContextOpen (m : Mech) (pba : Word) (s : State) : Host.Outcome State Fault Refusal := liftMech m (fun d => d.openCtx m pba.toNat) s
/-- GOAT_RUNG_DONE (R307). -/
def execGoatRungDone (m : Mech) (pba : Word) (s : State) : Host.Outcome State Fault Refusal := liftMech m (fun d => d.rungDone m pba.toNat) s
/-- GOAT_TIMEOUT (R310). -/
def execGoatTimeout (m : Mech) (pba : Word) (s : State) : Host.Outcome State Fault Refusal := liftMech m (fun d => d.goatTimeout m pba.toNat) s
/-- GROUP_DECODE_DONE (R312). -/
def execGroupDecodeDone (m : Mech) (pba : Word) (s : State) : Host.Outcome State Fault Refusal :=
  liftMechBuf m (fun d b => d.groupDone b m pba.toNat) s
/-- RECOVERY_END (R315). -/
def execRecoveryEnd (m : Mech) (pba : Word) (s : State) : Host.Outcome State Fault Refusal :=
  liftMechBuf m (fun d b => d.recoveryEnd b m pba.toNat) s
/-- REFRESH_IDLE_TIMEOUT (R314). -/
def execRefreshIdleTimeout (m : Mech) (s : State) : Host.Outcome State Fault Refusal := liftMech m (fun d => d.refreshIdle m) s
/-- BUCKET_LEAK (R316). -/
def execBucketLeak (m : Mech) (s : State) : Host.Outcome State Fault Refusal := liftMech m (fun d => d.bucketLeak m) s
/-- DRT_LOOKUP (R323). -/
def execDrtLookup (m : Mech) (pba : Word) (s : State) : Host.Outcome State Fault Refusal :=
  liftDev (fun d => d.mechWrite m 0x8D4004 (fun d => d.drtLookup m pba.toNat)) s
/-- DRT_SLICE_LOAD (R319). -/
def execDrtSliceLoad (m : Mech) (entries : List (Word × Word × Word)) (s : State) : Host.Outcome State Fault Refusal :=
  liftMech m (fun d => d.drtLoad m entries) s

end Sys2Proof.Machine
end

