-- ==== Sys2Proof/Machine/Buffer.lean ====
section
/-! DEFINITION. The buffer (R324–R349): refresh and self-refresh, inline ECC and poison, repair, retirement of channels, rates, and
the meter, ingress limits and credits that admission uses. -/
namespace Sys2Proof.Machine
namespace Dev

/-! ### Channels -/

/-- The channel of a buffer address (log entry 24). -/
def chanOf (d : Dev) (a : Nat) : Chan := ⟨Config.bufChannel (d.get Reg.BUF_CH_ACTIVE_MASK) a % 24, Nat.mod_lt _ (by decide)⟩

/-- The buffer group of a channel. -/
def chanGroup (c : Chan) : Fin 6 := ⟨c.val / 4, by omega⟩

/-- Whether a channel serves: active or being retired, its group not IN_RESET. -/
def chanServes (d : Dev) (c : Chan) : Bool :=
  (d.get (Reg.BUF_CH_STAT_STATE c) == 2 || d.get (Reg.BUF_CH_STAT_STATE c) == 3) && !d.inReset ⟨20 + (chanGroup c).val, by omega⟩

/-- Changes the PHY of a channel. -/
def modPhy (d : Dev) (c : Chan) (f : PhyX → PhyX) : Dev := d.modBufx fun x => { x with phy := x.phy.set c.val (f x.phy[c.val]) }

/-- BUFFER_SELF_REFRESH_ENTRY (R325): no request for SR_DWELL. -/
def selfRefresh (d : Dev) (k : Fin 6) : Dev :=
  if ¬ d.up ∨ ¬ d.on Reg.BUF_CTL_SR_EN ∨ d.inReset ⟨20 + k.val, by omega⟩ then d
  else (groupChans k).foldl (fun d c => if d.chanServes c then d.set (Reg.BUF_CH_STAT_SR c) 1 else d) d

/-- MR4_POLL (R325): the refresh interval follows at the next refresh window. -/
def mr4Poll (d : Dev) (c : Chan) (code : BitVec 3) (hot : Bool) : Dev :=
  if ¬ d.up ∨ ¬ d.chanServes c then d
  else
    let d := (d.modPhy c fun x => { x with refNext := some code.toNat }).setB (Reg.BUF_CH_STAT_HOT c) hot
    if hot then (d.bufEvent Reg.BUF_EVENT_MR4_HOT).vlogAdd 0x30 0x0901 0 else d

/-- ZQ_CALIBRATION (R69): the code waits for a refresh window. -/
def zqCal (d : Dev) (c : Chan) (code : Word) : Dev :=
  if ¬ d.up ∨ ¬ d.chanServes c then d else d.modPhy c fun x => { x with zqNext := some code.toNat }

/-- DQS_OSCILLATOR_TRACKING (R69): the delay taps wait for a refresh window. -/
def dqsTrack (d : Dev) (c : Chan) (taps : Word) : Dev :=
  if ¬ d.up ∨ ¬ d.chanServes c then d else d.modPhy c fun x => { x with tapsNext := some taps.toNat }

/-- ALL_BANK_REFRESH (R69, R325): what waited for the window takes effect. -/
def refreshWindow (d : Dev) (c : Chan) : Dev :=
  if ¬ d.up ∨ ¬ d.chanServes c ∨ d.on (Reg.BUF_CH_STAT_SR c) then d
  else
    let x := d.bufx.phy[c.val]
    let d := match x.refNext with
      | some r => d.set (Reg.BUF_CH_STAT_REFRESH c) r
      | none => d
    d.modPhy c fun x => ⟨x.zqNext.getD x.zq, none, x.tapsNext.getD x.taps, none, none⟩

/-! ### ECC, poison and soft repair -/

/-- One hour in ns. -/
def hourNs : Nat := 3600000000000

/-- A row over CE_ROW_THR is copied to a spare row (R330). -/
def softRepair (d : Dev) (c : Chan) (key : Nat) : Dev :=
  if d.bufx.soft.contains key ∨ 32 ≤ d.get (Reg.BUF_CH_STAT_SOFT_USED c) then d
  else
    let d := d.modBufx fun x =>
      { x with
        soft := x.soft ++ [key]
        candidates := if x.candidates.contains key then x.candidates else x.candidates ++ [key]
        rowCe := x.rowCe.filter (fun r => decide (r.1 ≠ key)) }
    (d.count (Reg.BUF_CH_STAT_SOFT_USED c)).bufEvent Reg.BUF_EVENT_CE_ROW

/-- A corrected error (R327, R330, R332). -/
def corrected (d : Dev) (c : Chan) (a : Nat) : Dev :=
  let key := rowKey c.val (Config.bufRow a)
  let (n, t0) := match d.bufx.rowCe.find? (fun r => decide (r.1 = key)) with
    | some (_, n, t) => if d.now < t + d.get Reg.BUF_SCRUB_CFG_PERIOD_H * hourNs then (n + 1, t) else (1, d.now)
    | none => (1, d.now)
  let d := (d.count (Reg.BUF_CH_CE_COUNT c)).modBufx fun x =>
    { x with
      fixes := if x.fixes.contains a then x.fixes else x.fixes ++ [a]
      rowCe := (key, n, t0) :: x.rowCe.filter (fun r => decide (r.1 ≠ key))
      ceTimes := x.ceTimes.set c.val (d.now :: (x.ceTimes[c.val]).filter (fun t => decide (d.now < t + hourNs))) }
  if d.get Reg.BUF_SCRUB_CFG_CE_ROW_THR ≤ n then d.softRepair c key else d

/-- The block that holds a buffer address. -/
def blkAt (d : Dev) (a : Nat) : Option (Nat × Blk) := d.bufx.blocks.find? (fun b => decide (b.2.addr ≤ a ∧ a < b.2.addr + blkBytes))

/-- What the holder of poisoned data does (R329); `a` is the buffer address. -/
def answerPoison (d : Dev) (a : Nat) : Dev :=
  let src := 0x54 + d.groupOf a
  match d.blkAt a with
  | none => d.elogAdd src 6 1 (lostDetail a 3 0 none)
  | some (i, b) =>
    let note (d : Dev) (h : Nat) : Dev := d.elogAdd src 6 1 (lostDetail a h 0 (some b))
    let m : Mech := ⟨(b.mech.getD 0) % 16, Nat.mod_lt _ (by decide)⟩
    if b.refresh then
      let d := (note d 1).loseSectors i b a 1
      let d := d.modFsq m fun x => { x with items := x.items.filter (fun w => w.blk ≠ i) }
      match (d.mx m).goat.refreshes.find? (fun r => decide (r.blk = i)) with
      | some r => d.skipRefresh m r
      | none => d.dropBlk i
    else if b.phase = .cached then (note d 2).dropBlk i
    else if b.kind ≠ 0 then note d 1
    else if b.phase = .copying then (note d 1).loseCopy m i b a
    else if b.phase = .written then
      let d := note d 1
      if b.lost = 0 then (d.locate m i b).modBlk i fun b => { b with lost := b.valid } else d
    else
      let h := if b.pool = .staging then 0 else 1
      let d := (note d h).loseSectors i b a h
      let d := if b.phase = .filling then d.handOff i else d
      (d.modBlk i fun b => { b with kind := 3, lost := b.valid }).modWch m fun x => { x with contrib := x.contrib.filter (fun e => decide (e.1 ≠ i)) }

/-! ### BUFFER_FAILED (R335) -/

/-- Parks a mechanism whatever it serves. -/
def forcePark (d : Dev) (m : Mech) : Dev :=
  if d.mechInReset m then d
  else if d.running m ∨ d.mstate m = .spinningUp then d.parkFor m .park else d

/-- Refuses the I/O commands in slots with reason BUFFER_FAILED. -/
def refuseIo (d : Dev) : List (Nat × Slot) → Dev
  | [] => d
  | (i, s) :: t => refuseIo (if isAdmin s then d else d.refuseSlot i 0x13 3) t

/-- BUFFER_FAILED: mechanisms park and only the admin queues serve. -/
def bufferFailed (d : Dev) : Dev :=
  if d.on Reg.BUF_STAT_FAILED then d
  else
    let d := (d.set Reg.BUF_STAT_FAILED 1).bufEvent Reg.BUF_EVENT_BUFFER_FAILED
    let d := d.refuseIo d.slots
    (List.finRange 16).foldl (fun d m => (d.modMch m fun x => { x with held := x.held.filter (fun h => h.req.slot.isNone) }).forcePark m) d

/-- Channels that stay active when those being retired are gone. -/
def activeLeft (d : Dev) : Nat := d.get Reg.BUF_STAT_ACTIVE - d.bufx.retiring.length

/-- A read of a data burst (R327): corrected, or uncorrectable and poisoned. -/
def burstRead (d : Dev) (addr : Nat) (r : EccResult) : Dev :=
  let a := addr / 32 * 32
  let c := d.chanOf a
  if ¬ d.up ∨ ¬ d.chanServes c then d
  else
    let d := d.touch a
    if r = .double ∨ d.bufx.poison.contains a then
      let ues := d.now :: (d.bufx.ueTimes[c.val]).filter (fun t => decide (d.now < t + hourNs))
      let d := d.modBufx fun x =>
        { x with poison := if x.poison.contains a then x.poison else a :: x.poison, ueTimes := x.ueTimes.set c.val ues }
      let d := ((d.count (Reg.BUF_CH_UE_COUNT c)).setAll [(Reg.BUF_CH_ERR_ADDR_LO_ADDR c, a), (Reg.BUF_CH_ERR_ADDR_HI_ADDR c, a >>> 32)]).bufEvent
        Reg.BUF_EVENT_UE
      let d := d.answerPoison a
      if 3 ≤ ues.length ∧ d.activeLeft ≤ 20 then d.bufferFailed else d
    else if r = .single then d.corrected c a
    else d

/-- SCRUB_READ (R328): a burst queued by an earlier correction is written back. -/
def scrub (d : Dev) (addr : Nat) (r : EccResult) : Dev :=
  if d.on Reg.BUF_CTL_SCRUB_EN ∧ d.up ∧ d.chanServes (d.chanOf (addr / 32 * 32)) then
    (d.burstRead addr r).modBufx fun x => { x with fixes := x.fixes.filter (· ≠ addr / 32 * 32) }
  else d

/-! ### Retirement (R332–R334) -/

/-- The blocks with a burst on channel `c`, each with the address of one such burst. -/
def blocksOn (d : Dev) (c : Chan) : List Nat :=
  d.bufx.blocks.filterMap (fun b => ((List.range 2048).find? (fun k => d.chanOf (b.2.addr + 32 * k) = c)).map (fun k => b.2.addr + 32 * k))

/-- Step 1 of R333, and the poison of step 2 where the channel cannot be read. -/
def retireStart (d : Dev) (c : Chan) (cause : Nat) (readable : Bool) : Dev :=
  let bad := if readable then [] else d.blocksOn c
  let d := (d.setAll [(Reg.BUF_CH_STAT_STATE c, 3), (Reg.BUF_STAT_RETIRING, 1)]).bufEvent Reg.BUF_EVENT_RETIRE_START
  let d := d.modBufx fun x => { x with retiring := x.retiring ++ [(c.val, cause)], poison := x.poison ++ bad.filter (fun a => !x.poison.contains a) }
  bad.foldl (fun d a => d.answerPoison a) d

/-- Whether a cause of R332 holds of a channel; 4, a failed retraining, is known only by its arrival. -/
def causeHolds (d : Dev) (c : Chan) (cause : Nat) : Bool :=
  if cause = 2 then decide (d.get Reg.BUF_SCRUB_CFG_CE_CH_THR < ((d.bufx.ceTimes[c.val]).filter (fun t => decide (d.now < t + hourNs))).length) &&
      d.get (Reg.BUF_CH_STAT_SOFT_USED c) == 32
  else if cause = 3 then decide (3 ≤ ((d.bufx.ueTimes[c.val]).filter (fun t => decide (d.now < t + hourNs))).length)
  else cause == 4

/-- CHANNEL_RETIRE_CAUSE (R332, R335): a PHY that has failed resets its group at once (R74). -/
def retireCause (d : Dev) (c : Chan) (cause : Nat) (readable : Bool) : Dev :=
  if ¬ d.up ∨ d.get (Reg.BUF_CH_STAT_STATE c) ≠ 2 ∨ ¬ d.causeHolds c cause then d
  else if d.activeLeft ≤ 20 then d.bufferFailed
  else
    let d := d.retireStart c cause readable
    if cause = 4 then d.requestReset ⟨20 + (chanGroup c).val, by omega⟩ .ordinary else d

/-- A write of BUF_RETIRE (R332). -/
def retireGo (d : Dev) (w : Nat) : Dev :=
  let d := d.set Reg.BUF_RETIRE_CH w
  if ¬ tbit w 31 then d
  else if h : w % 32 < 24 then
    if d.get (Reg.BUF_CH_STAT_STATE ⟨w % 32, h⟩) ≠ 2 ∨ d.activeLeft ≤ 20 then d.vlogAdd 0x14 0x0902 0
    else d.retireStart ⟨w % 32, h⟩ 5 true
  else d.vlogAdd 0x14 0x0902 0

/-- A stream's credit at this moment (R341, R342). -/
def refill (d : Dev) (s : Stream) : Stream :=
  let sc := d.get Reg.BUF_RES_SCALE_SCALE
  let dt := d.now - s.creditAt
  let add := if sc = 65535 then s.rsv * dt else s.rsv * dt * sc / 65536
  { s with credit := min (s.rsv * d.get Reg.BUF_RES_CFG_RES_WINDOW_MS * 1000000 : Nat) (s.credit + (add : Nat)), creditAt := d.now }

/-- Refills the credit of every stream. -/
def refillAll (d : Dev) : Dev := d.modArc fun a => { a with streams := a.streams.map (fun x => (x.1, d.refill x.2)) }

/-- The sum of open reservations, MB/s. -/
def resSum (d : Dev) : Nat := (d.arc.streams.map (fun s => if s.2.opened then s.2.rsv else 0)).foldl (· + ·) 0

/-- Publishes the open reservations and their scale (R342). -/
def syncRes (d : Dev) : Dev :=
  let d := d.refillAll
  let sum := d.resSum
  let d := (d.set Reg.BUF_RES_SUM_SUM sum).syncBuf
  let max := d.get Reg.GCTL_IMG_RESMAX_RESMAX
  if max < sum then
    let sc := max * 65536 / sum
    let was := d.get Reg.BUF_RES_SCALE_SCALE
    let d := d.set Reg.BUF_RES_SCALE_SCALE sc
    if sc < was then (d.bufEvent Reg.BUF_EVENT_RES_SCALED).arcEvent 8 none [(0, 2, sc)] else d
  else d.set Reg.BUF_RES_SCALE_SCALE 65535

/-- B_EFF is recomputed; where the inequality of R38 fails, the reservable bandwidth falls (R39). -/
def lowerRes (d : Dev) : Dev :=
  let d := d.publishBw false
  let ch := min (d.get Reg.BUF_STAT_ACTIVE) ((d.grec 0x10).f 0 24 5)
  let plan := d.grec 0x80
  let dp := Img.dPeak (d.grec 0x70) (d.img.sections.toList.filterMap (fun s => s.map (fun s => s.recs)))
  let prev := d.get Reg.GCTL_IMG_RESMAX_RESMAX
  let new := (Img.bEff5 ch (plan.f 7 0 16) * dp.2 - 5 * (dp.1 + plan.f 6 0 32 * dp.2)) / (5 * dp.2)
  let d := if Img.bwExceeded dp (plan.f 6 0 32) (plan.f 5 0 32) ch (plan.f 7 0 16) ∧ new < prev then
      (d.set Reg.GCTL_IMG_RESMAX_RESMAX new).elogAdd 0x63 0x0A 0x0A0B [(16, 4, new), (20, 4, prev), (24, 1, d.get Reg.BUF_STAT_ACTIVE)]
    else d
  d.syncRes

/-- Takes up to `n` MiB from a pool: what is left to take. -/
def shrink (d : Dev) (i : Fin 5) (n : Nat) : Dev × Nat :=
  let v := d.get (Reg.BUF_SZ_MIB i)
  (d.set (Reg.BUF_SZ_MIB i) (v - n), n - v)

/-- A channel's share of the capacity leaves the read cache, then the spare pool, then staging (R334). -/
def shrinkPools (d : Dev) : Dev :=
  let (d, n) := d.shrink 2 Img.mibPerChannel
  let (d, n) := d.shrink 4 n
  let (d, _) := d.shrink 0 n
  let excess := d.poolCount .cache - d.poolSize .cache
  let d := (List.range excess).foldl (fun d _ => match d.oldestCached with
    | some i => d.dropBlk i
    | none => d) d
  d.syncBuf

/-- RETIREMENT_COPY_DONE (R333): steps 3 and 4. -/
def retireDone (d : Dev) (c : Chan) : Dev :=
  match d.bufx.retiring.find? (fun r => decide (r.1 = c.val)) with
  | none => d
  | some (_, cause) =>
    let k := chanGroup c
    let d := d.requestReset ⟨20 + k.val, by omega⟩ .ordinary
    let d := d.modBufx fun x => { x with retiring := x.retiring.filter (fun r => decide (r.1 ≠ c.val)) }
    let d := d.setAll [(Reg.BUF_CH_STAT_STATE c, 4), (Reg.BUF_CH_ACTIVE_MASK, clrb (d.get Reg.BUF_CH_ACTIVE_MASK) c.val),
      (Reg.BUF_STAT_ACTIVE, d.get Reg.BUF_STAT_ACTIVE - 1), (Reg.BUF_STAT_RETIRING, b2n (decide (d.bufx.retiring ≠ [])))]
    let d := d.set Reg.ID_CONFIG_CHANNELS (d.get Reg.BUF_STAT_ACTIVE)
    let d := (d.lowerRes.shrinkPools).bufEvent Reg.BUF_EVENT_RETIRE_DONE
    d.elogAdd (0x54 + k.val) 6 3 [(16, 1, c.val), (17, 1, cause)]

/-! ### Rates, meter and ingress -/

/-- The credit of the U_RATE meter at this moment (R344), 1/1,000 byte: it fills at U_RATE and holds at most 10 µs of it. -/
def meterNow (d : Dev) : Int :=
  let u := d.get Reg.BUF_RATE_U_U_RATE
  min (u * 10000 : Nat) (d.bufx.meter + (u * (d.now - d.bufx.meterAt) : Nat))

/-- Takes bytes from the meter. -/
def takeMeter (d : Dev) (n : Nat) : Dev :=
  let v := d.meterNow
  d.modBufx fun x => { x with meter := v - (1000 * n : Nat), meterAt := d.now }

/-- Ingress limit of a port, MB/s (R359). -/
def ingress (d : Dev) (p : Port) : Nat := (d.grec 0x90).f (1 + p.idx) 0 32

/-- What a port has taken and not yet drained at its limit, 1/1,000 byte (R343). -/
def portLevel (d : Dev) (p : Port) : Nat := match p with
  | .A => d.bufx.portBytes[0] - d.ingress .A * (d.now - d.bufx.portAt[0])
  | .B => d.bufx.portBytes[1] - d.ingress .B * (d.now - d.bufx.portAt[1])

/-- Whether a port is below its ingress limit over a window of 10 µs. -/
def belowIngress (d : Dev) (p : Port) : Bool := decide (d.portLevel p < d.ingress p * 10000)

/-- Counts bytes against a port's ingress limit. -/
def takePort (d : Dev) (p : Port) (n : Nat) : Dev :=
  let v := d.portLevel p + 1000 * n
  let t := d.now
  d.modBufx fun x => match p with
    | .A => { x with portBytes := x.portBytes.set 0 v, portAt := x.portAt.set 0 t }
    | .B => { x with portBytes := x.portBytes.set 1 v, portAt := x.portAt.set 1 t }

/-- RATE_UPDATE (R339, R341): the rates as measured; credit up to now counts at the old rates. -/
def rateUpdate (d : Dev) (dn mn ru : Nat) : Dev :=
  if ¬ d.up then d
  else
    let d := (d.takeMeter 0).refillAll
    let beff := d.get Reg.GCTL_IMG_BWEFF_BWEFF
    let less := if d.bufx.retiring = [] then 0 else 100 * d.get Reg.BUF_PWR_RETIRE_BW
    d.setAll [(Reg.BUF_RATE_D_D_NOW, dn), (Reg.BUF_RATE_M_M_NOW, mn), (Reg.BUF_RATE_R_R_USED, ru),
      (Reg.BUF_RATE_U_U_RATE, beff - dn - mn - ru - less)]

end Dev

/-! ### Meanings -/

/-- BUFFER_SELF_REFRESH_ENTRY (R325). -/
def execBufferSelfRefreshEntry (k : Fin 6) (s : State) : Host.Outcome State Fault Refusal := liftDev (fun d => d.selfRefresh k) s
/-- BUFFER_READ (R327, R329). -/
def execBufferRead (addr : Nat) (r : EccResult) (s : State) : Host.Outcome State Fault Refusal := liftDev (fun d => d.burstRead addr r) s
/-- MR4_POLL (R325). -/
def execMr4Poll (c : Chan) (code : BitVec 3) (hot : Bool) (s : State) : Host.Outcome State Fault Refusal := liftDev (fun d => d.mr4Poll c code hot) s
/-- SCRUB_READ (R328, R330). -/
def execScrubRead (addr : Nat) (r : EccResult) (s : State) : Host.Outcome State Fault Refusal := liftDev (fun d => d.scrub addr r) s
/-- CHANNEL_RETIRE_CAUSE (R332, R335). -/
def execChannelRetireCause (c : Chan) (cause : Fin 6) (readable : Bool) (s : State) : Host.Outcome State Fault Refusal :=
  liftDev (fun d => d.retireCause c cause.val readable) s
/-- BUF_RETIRE_GO (R332). -/
def execBufRetireGo (w : Word) (s : State) : Host.Outcome State Fault Refusal := liftDev (fun d => if d.up then d.retireGo w.toNat else d) s
/-- RETIREMENT_COPY_DONE (R333). -/
def execRetirementCopyDone (c : Chan) (s : State) : Host.Outcome State Fault Refusal := liftDev (fun d => if d.up then d.retireDone c else d) s
/-- RATE_UPDATE (R339). -/
def execRateUpdate (dNow mNow rUsed : Nat) (s : State) : Host.Outcome State Fault Refusal := liftDev (fun d => d.rateUpdate dNow mNow rUsed) s
/-- ZQ_CALIBRATION (R69). -/
def execZqCalibration (c : Chan) (code : Word) (s : State) : Host.Outcome State Fault Refusal := liftDev (fun d => d.zqCal c code) s
/-- DQS_OSCILLATOR_TRACKING (R69). -/
def execDqsOscillatorTracking (c : Chan) (taps : Word) (s : State) : Host.Outcome State Fault Refusal := liftDev (fun d => d.dqsTrack c taps) s
/-- ALL_BANK_REFRESH (R69, R325). -/
def execAllBankRefresh (c : Chan) (s : State) : Host.Outcome State Fault Refusal := liftDev (fun d => d.refreshWindow c) s

end Sys2Proof.Machine
end

