-- ==== Sys2Proof/Machine/Queue.lean ====
section
/-! DEFINITION. The queue engine (R353–R377, R386–R388): rings and doorbells, arbitration, fetch and checks, range locks, classes and
admission of writes, completion entries, freezes, failover, and aggregated interrupts. -/
namespace Sys2Proof.Machine
namespace Dev

/-! ### Rings -/

/-- Logs a host protocol violation (R388). -/
def violation (d : Dev) (p : Port) (q code answer w : Nat) : Dev := d.vlogAdd (0x10 + p.idx) code answer [(0, 1, q), (1, 4, w)]

/-- Entries of the rings of a pair (R356). -/
def ringN (d : Dev) (p : Port) (q : Pair) : Nat := d.get (Reg.QE_QCFG_SIZE p q) + 1

/-- SQ tail last written. -/
def sqTail (d : Dev) (p : Port) (q : Pair) : Nat := (Sparse.lookup d.qe.sqTail (pairKey p q.val)).getD 0

/-- CQ head last written. -/
def cqHead (d : Dev) (p : Port) (q : Pair) : Nat := (Sparse.lookup d.qe.cqHead (pairKey p q.val)).getD 0

/-- Entries of the SQ not fetched yet (R356). -/
def unfetched (d : Dev) (p : Port) (q : Pair) : Nat :=
  (d.sqTail p q + d.ringN p q - d.get (Reg.QE_QPTR_SQ_HEAD p q)) % d.ringN p q

/-- Whether the CQ has no room (R356). -/
def cqFull (d : Dev) (p : Port) (q : Pair) : Bool := decide ((d.get (Reg.QE_QPTR_CQ_TAIL p q) + 1) % d.ringN p q = d.cqHead p q)

/-- Whether the structure image is missing: only the admin queues serve then (R43). -/
def noImage (d : Dev) : Bool := decide (d.img.globals = [])

/-- Pairs of a port (R359). -/
def pairsOf (d : Dev) (p : Port) : Nat := if d.noImage then 1 else (d.grec 0x90).f 0 (8 * p.idx) 8

/-- The largest ring (R359). -/
def ringMax (d : Dev) : Nat := if d.noImage then 4096 else (d.grec 0x90).f 0 16 13

/-- Whether the host reaches the device through a port. -/
def portServes (d : Dev) (p : Port) : Bool := d.up && !d.inReset ⟨16 + p.idx, by cases p <;> decide⟩ && !(d.px p).d3

/-! ### Credit (R347) -/

/-- I/O slots that a port holds. -/
def ioUsed (d : Dev) (p : Port) : Nat := (d.slots.filter (fun s => decide (s.2.port = p) && !isAdmin s.2)).length

/-- Admin slots that a port holds. -/
def adminUsed (d : Dev) (p : Port) : Nat := (d.slots.filter (fun s => decide (s.2.port = p) && isAdmin s.2)).length

/-- Whether an I/O command of a port may take a slot. -/
def ioRoom (d : Dev) (p : Port) : Bool :=
  decide (d.ioUsed p < d.get (Reg.BUF_PORT_CREDIT_LIMIT p) ∧ d.ioUsed .A + d.ioUsed .B < 4064)

/-- Whether a pair can be fetched from (R347, R358): pair 0 takes one of its port's 16 slots. -/
def pairReady (d : Dev) (p : Port) (q : Pair) : Bool :=
  decide (d.get (Reg.QE_QCTL_STATE p q) = 1 ∧ d.unfetched p q ≠ 0) && (if q.val = 0 then decide (d.adminUsed p < 16) else d.ioRoom p)

/-- Pauses the I/O queues of a port that cannot be fetched for want of a slot (R347). -/
def pauseSync (d : Dev) (p : Port) : Dev :=
  if d.ioRoom p then d
  else
    let qs := (List.finRange 128).filter (fun (q : Pair) => decide (q.val ≠ 0 ∧ d.get (Reg.QE_QCTL_STATE p q) = 1 ∧ d.unfetched p q ≠ 0))
    let was := (List.finRange 4).any (fun w => d.on (Reg.BUF_PORT_PAUSE_PAUSED p w))
    let d := qs.foldl (fun d q => d.setBit (Reg.BUF_PORT_PAUSE_PAUSED p ⟨q.val / 32, by omega⟩) (q.val % 32) true) d
    if was ∨ qs = [] then d else d.count (Reg.BUF_PORT_PAUSE_CNT_COUNT p)

/-- Clears the pause of a queue. -/
def unpause (d : Dev) (p : Port) (q : Pair) : Dev := d.setBit (Reg.BUF_PORT_PAUSE_PAUSED p ⟨q.val / 32, by omega⟩) (q.val % 32) false

/-- Publishes the slots in use (R348, R389). -/
def syncSlots (d : Dev) : Dev :=
  d.setAll [(Reg.QE_STAT_SLOTS_USED, d.slots.length), (Reg.BUF_PORT_CREDIT_USED .A, d.ioUsed .A), (Reg.BUF_PORT_CREDIT_USED .B, d.ioUsed .B)]

/-! ### Arbitration (R358) -/

/-- Arbitration of a port. -/
def arb (d : Dev) (p : Port) : ArbX := match p with
  | .A => d.qe.arb[0]
  | .B => d.qe.arb[1]

/-- Writes the arbitration of a port whose turn runs. -/
def setArb (d : Dev) (p : Port) (a : ArbX) : Dev :=
  d.modQe fun x => { x with turn := some p, arb := match p with
    | .A => x.arb.set 0 a
    | .B => x.arb.set 1 a }

/-- Turns of a class in a round. -/
def weight (d : Dev) (c : Nat) : Nat :=
  if c = 0 then (d.grec 0x90).f 3 16 8 else if c = 1 then (d.grec 0x90).f 3 24 8 else (d.grec 0x90).f 4 0 8

/-- Entries of a turn. -/
def burst (d : Dev) : Nat := max 1 ((d.grec 0x90).f 4 8 8)

/-- The pair of a class whose turn is next: ascending, after the pair served last. -/
def nextIn (d : Dev) (p : Port) (c last : Nat) : Option Nat :=
  let qs := ((List.finRange 128).filter (fun (q : Pair) =>
    decide (q.val ≠ 0 ∧ min 2 (d.get (Reg.QE_QCFG_PRIO p q)) = c) && d.pairReady p q)).map (fun q => q.val)
  match qs.find? (fun q => decide (last < q)) with
  | some q => some q
  | none => qs.head?

/-- The weighted round robin over the three classes. -/
def nextTurn (d : Dev) (p : Port) : (fuel : Nat) → ArbX → Option (Nat × ArbX)
  | 0, _ => none
  | n + 1, a =>
    match (if a.turns = 0 then none else d.nextIn p a.cls (a.last.getD a.cls 0)) with
    | some q => some (q, { a with turns := a.turns - 1, last := a.last.set a.cls q, cur := some q, burst := d.burst - 1 })
    | none =>
      let c := (a.cls + 1) % 3
      nextTurn d p n { a with cls := c, turns := d.weight c }

/-- Whether a turn of the port goes on. -/
def turnRuns (d : Dev) (p : Port) : Bool := match (d.arb p).cur with
  | some q => decide (0 < (d.arb p).burst) && (if h : q < 128 then d.pairReady p ⟨q, h⟩ else false)
  | none => false

/-- The pair that a port fetches from next, and its arbitration after that. -/
def pick (d : Dev) (p : Port) : Option (Nat × ArbX) :=
  let a := d.arb p
  if d.turnRuns p then some (a.cur.getD 0, { a with burst := a.burst - 1 })
  else if d.pairReady p 0 then some (0, { a with cur := some 0, burst := d.burst - 1 })
  else d.nextTurn p 5 a

/-- Whether a port has an entry to fetch. -/
def portReady (d : Dev) (p : Port) : Bool := d.portServes p && (List.finRange 128).any (fun q => d.pairReady p q)

/-- The port that fetches next: the one whose turn runs; else turns alternate. -/
def due (d : Dev) : Option Port :=
  let runs (p : Port) : Bool := decide (d.qe.turn = some p) && d.portServes p && d.turnRuns p
  if runs .A then some .A
  else if runs .B then some .B
  else if d.portReady .A ∧ (¬ d.portReady .B ∨ d.qe.turn ≠ some .A) then some .A
  else if d.portReady .B then some .B
  else none

/-! ### Checks (R364) -/

/-- Whether a queue knows an opcode (R361, R362). -/
def queueOp (s : Slot) : Bool :=
  if isAdmin s then decide (1 ≤ opcode s ∧ opcode s ≤ 10) else [0, 1, 2, 4, 8, 0x10, 0x11, 0x20, 0x21, 0x22].contains (opcode s)

/-- What a command does with VOL. -/
inductive VolUse where
  | none | bound | boundOr0 | any
deriving DecidableEq

/-- The use of VOL by a command: Object Put takes its stream's volume and may name it. -/
def volUse (s : Slot) : VolUse :=
  let op := opcode s
  if isAdmin s then if op = 5 then .any else if op = 6 ∨ (op = 1 ∧ cdw s 0 % 4 = 1) then .bound else .none
  else if op = 0 ∨ op = 0x20 then .boundOr0
  else if op = 1 ∨ op = 2 ∨ op = 4 ∨ op = 0x10 ∨ op = 0x21 then .bound
  else .none

/-- Whether a reserved field of an entry is not 0 (R360, R394, R395). -/
def reservedSet (s : Slot) : Bool :=
  decide (2 ≤ ent s 1 1 ∨ ent s 6 2 ≠ 0 ∨ ent s 8 8 ≠ 0 ∨ ent s 28 4 ≠ 0) || (volUse s == .none && volOf s != 0) ||
    (!isAdmin s && opcode s == 0x20 && decide (2 ≤ cdw s 5 ∨ cdw s 6 ≠ 0 ∨ cdw s 7 ≠ 0)) ||
    (!isAdmin s && opcode s == 0x21 && decide (2 ≤ cdw s 7))

/-- A bound volume. -/
def vol (d : Dev) (v : Nat) : Option Vol := Sparse.lookup d.arc.vols v

/-- Whether a command names sectors. -/
def sectorCmd (s : Slot) : Bool := !isAdmin s && (opcode s == 1 || opcode s == 2 || opcode s == 4)

/-- Whether a data list is malformed (R363). -/
def badList (s : Slot) : Bool :=
  let n := ent s 24 4
  tbit (ent s 1 1) 0 && (decide (ent s 16 8 % 16 ≠ 0 ∨ n % 16 ≠ 0 ∨ n = 0 ∨ 4096 < n ∨ s.dlist.length ≠ n) ||
    (List.range (n / 16)).any (fun k => byteField s.dlist (16 * k + 8) 4 == 0 ||
      byteField s.dlist (16 * k + 12) 4 != (if k + 1 = n / 16 then 1 else 0)))

/-- Whether NSECT or DLEN is out of range (R361, R363, R385, R394, R395, R411). -/
def badLen (s : Slot) : Bool :=
  let op := opcode s
  let n := dataLen s
  badList s ||
    (if isAdmin s then op == 1 && decide (n < 4096)
    else if op = 1 ∨ op = 2 then decide (nsect s = 0 ∨ 4096 < nsect s ∨ n ≠ 4096 * nsect s)
    else if op = 4 then decide (nsect s = 0 ∨ 4096 < nsect s ∨ ent s 16 8 ≠ 0 ∨ n ≠ 0)
    else if op = 0x20 then decide (n = 0 ∨ 16777216 < n)
    else if op = 0x21 then decide (4294967295 ≤ n)
    else if op = 0x22 then decide (n < 64)
    else false)

/-- The open stream that a handle names (R391). -/
def stream (d : Dev) (h : Nat) : Option Stream := match Sparse.lookup d.arc.streams (h % 16384) with
  | some s => if s.opened ∧ s.gen = h / 16384 then some s else none
  | none => none

/-- The handle that a command names, if any. -/
def handleOf (s : Slot) : Option Nat :=
  if isAdmin s then none
  else if opcode s = 1 then (if cdw s 3 = 0 then none else some (cdw s 3))
  else if opcode s = 0x11 ∨ opcode s = 0x20 then some (cdw s 0)
  else none

/-- Whether a handle can be used by a command (R364, R393): open, of its volume, and no Stream Close of it was fetched before. -/
def handleOk (d : Dev) (s : Slot) (h : Nat) : Bool := match d.stream h with
  | none => false
  | some st => decide (volOf s = 0 ∨ st.vol = volOf s) && (d.vol st.vol).isSome &&
      !(d.slots.any (fun t => decide (t.2.order < s.order ∧ ¬ isAdmin t.2 ∧ opcode t.2 = 0x11 ∧ cdw t.2 0 = h) &&
        !(t.2.phase == .finished && t.2.status != 0)))

/-- The checks of an entry at its fetch: the status of the first that fails, 0 for none (R364). -/
def checkEntry (d : Dev) (i : Nat) (s : Slot) : Nat :=
  let dup := d.slots.any (fun t => decide (t.1 ≠ i ∧ t.2.port = s.port ∧ t.2.pair = s.pair ∧ t.2.cid = s.cid ∧ t.2.orphan = false))
  let unbound := match volUse s with
    | .bound => (d.vol (volOf s)).isNone
    | .boundOr0 => volOf s != 0 && (d.vol (volOf s)).isNone
    | _ => false
  let beyond := sectorCmd s && (match d.vol (volOf s) with
    | some v => decide (v.capacity < slba s + nsect s)
    | none => false)
  if ¬ queueOp s then 1
  else if s.cid = 0xFFFF ∨ dup ∨ reservedSet s then 2
  else if unbound then 3
  else if beyond then 4
  else if badLen s then 2
  else match handleOf s with
    | some h => if d.handleOk s h then 0 else 5
    | none => 0

/-! ### Range locks (R368) -/

/-- The volume that a command addresses: Object Put, its stream's. -/
def cmdVol (d : Dev) (s : Slot) : Nat :=
  if opcode s = 0x20 ∧ ¬ isAdmin s then match Sparse.lookup d.arc.streams (cdw s 0 % 16384) with
    | some st => st.vol
    | none => volOf s
  else volOf s

/-- Whether a command takes a lock key. -/
def keyed (s : Slot) : Bool := sectorCmd s || (!isAdmin s && (opcode s == 0x20 || opcode s == 0x21))

/-- Whether two keys conflict. -/
def conflicts (d : Dev) (a b : Slot) : Bool :=
  let excl (s : Slot) : Bool := opcode s == 1 || opcode s == 0x20
  keyed a && keyed b && (excl a || excl b) && d.cmdVol a == d.cmdVol b &&
    (if sectorCmd a then sectorCmd b && decide (slba a < slba b + nsect b ∧ slba b < slba a + nsect a)
    else !sectorCmd b && objId a == objId b)

/-- Whether an earlier command that has not committed keeps a command from its lock. -/
def lockBlocked (d : Dev) (s : Slot) : Bool :=
  d.slots.any (fun t => t.2.locks && decide (t.2.order < s.order) && d.conflicts t.2 s)

/-! ### Classes and admission (R341–R346) -/

/-- Whether every disc that could take blocks of a volume is full (R367). -/
def volumeFull (d : Dev) (v : Nat) : Bool := match d.vol v with
  | none => false
  | some v =>
    if v.kind = 0 then d.arc.discs.any (fun x => decide (x.ident = v.disc ∧ x.mech ≠ none) && x.full)
    else (List.finRange 16).all (fun m => !tbit v.mechMask m.val || (match d.discIn m with
      | some x => x.full
      | none => false))

/-- Whether a command waits longer for admission than slot `i` (R344). -/
def olderWaits (d : Dev) (i : Nat) (s : Slot) : Bool :=
  d.slots.any (fun t => decide (t.1 ≠ i ∧ t.2.phase = .admitWait ∧
    (t.2.grantedAt < s.grantedAt ∨ (t.2.grantedAt = s.grantedAt ∧ t.2.order < s.order))))

/-- Whether a write outside a reservation can be admitted (R343, R344). -/
def canAdmit (d : Dev) (i : Nat) (s : Slot) : Bool :=
  decide (d.poolCount .staging * blkBytes + dataLen s + d.heldBytes ≤ d.poolSize .staging * blkBytes ∧ 0 < d.meterNow) &&
    d.belowIngress s.port && !d.olderWaits i s

/-- Counts the wait of an admitted write or buffer read (R343, R344, R348). -/
def countWait (d : Dev) (s : Slot) (isWrite : Bool) : Dev :=
  let us := (d.now - s.grantedAt + 999) / 1000
  let d := if us = 0 then (if isWrite then d.count Reg.BUF_OUT_SERVED_COUNT else d) else d.count Reg.BUF_OUT_DELAYED_COUNT
  d.set Reg.BUF_HOLD_MAX_US (max us (d.get Reg.BUF_HOLD_MAX_US))

/-- Admits a write: its transfer starts (R343). -/
def takeIn (d : Dev) (i : Nat) : Dev := match d.slot i with
  | none => d
  | some s =>
    let d := if s.cls = .reserved then d else d.takeMeter (dataLen s)
    let d := (d.takePort s.port (dataLen s)).countWait s true
    d.setSlot i { s with phase := .running, delay := s.delay + (d.now - s.grantedAt + 999) / 1000 }

/-- A write is granted its lock: its class is decided, and it is admitted or waits (R341, R343). -/
def grantWrite (d : Dev) (i : Nat) (s : Slot) : Dev :=
  if d.volumeFull (d.cmdVol s) then d.finishSlot i 0x12
  else match streamCtx s with
    | none => if d.canAdmit i s then d.takeIn i else d.setSlot i { s with phase := .admitWait }
    | some c => match Sparse.lookup d.arc.streams c with
      | none => d.finishSlot i 5
      | some st =>
        if st.rsv = 0 then if d.canAdmit i s then d.takeIn i else d.setSlot i { s with phase := .admitWait }
        else
          let st := d.refill st
          if 0 < st.credit ∧ d.stagedBytes c < d.quota st then
            let st := { st with credit := st.credit - (1000 * dataLen s : Nat) }
            let d := d.modArc fun a => { a with streams := Sparse.insert (Sparse.erase a.streams c) c st }
            (d.setSlot i { s with cls := .reserved }).takeIn i
          else
            let s := { s with cls := .excess }
            let d := d.setSlot i s
            if d.canAdmit i s then d.takeIn i else d.setSlot i { s with phase := .admitWait }

/-- The unsealed version of an object (R394). -/
def unsealed (d : Dev) (vol ident : Nat) : Option Obj := d.arc.objs.find? (fun o => decide (o.vol = vol ∧ o.ident = ident) && !o.isSealed)

/-- Sectors of the objects of a volume (R394). -/
def objSectors (d : Dev) (vol : Nat) : Nat :=
  ((d.arc.objs.filter (fun o => decide (o.vol = vol))).map (fun o => (o.extents.map (fun e => (e.2 + 4095) / 4096)).foldl (· + ·) 0)).foldl (· + ·) 0

/-- The status that ends an Object Put before its admission (R394), 0 for none. -/
def putStatus (d : Dev) (s : Slot) : Nat :=
  let v := d.cmdVol s
  match d.unsealed v (objId s), d.vol v with
  | some o, some x => if o.strm ≠ cdw s 0 then 2 else if x.capacity < d.objSectors v + (dataLen s + 4095) / 4096 then 0x12 else 0
  | none, some x => if x.capacity < d.objSectors v + (dataLen s + 4095) / 4096 then 0x12 else 0
  | _, none => 3

/-- Grants the lock of slot `i` (R368). -/
def grant (d : Dev) (i : Nat) : Dev := match d.slot i with
  | none => d
  | some s =>
    let w := (d.now - s.arrived) / 1000
    let d := if s.phase = .lockWait then d.set Reg.QE_LOCK_WAIT_MAX_US (min 65535 (max w (d.get Reg.QE_LOCK_WAIT_MAX_US))) else d
    let s := { s with phase := .fetched, grantedAt := d.now }
    let d := d.setSlot i s
    if opcode s = 1 then d.grantWrite i s
    else if opcode s = 0x20 then
      let st := d.putStatus s
      if st = 0 then d.grantWrite i s else d.finishSlot i st
    else d

/-- Slot indices in submission order. -/
def byOrder (l : List (Nat × Slot)) : List Nat :=
  (l.foldl (fun (acc : List (Nat × Nat)) s => acc.takeWhile (fun x => decide (x.2 < s.2.order)) ++ [(s.1, s.2.order)] ++
    acc.dropWhile (fun x => decide (x.2 < s.2.order))) []).map Prod.fst

/-- Grants every lock that no earlier command keeps any more. -/
def grantAll (d : Dev) : Dev :=
  (byOrder (d.slots.filter (fun s => decide (s.2.phase = .lockWait)))).foldl (fun d i => match d.slot i with
    | some s => if s.phase = .lockWait ∧ ¬ d.lockBlocked s then d.grant i else d
    | none => d) d

/-! ### Fetch -/

/-- Key of an SQ entry in the list of Aborts of entries not yet fetched (R373). -/
def entryKey (p : Port) (q index : Nat) : Nat := p.idx * 4294967296 + q * 65536 + index

/-- Answers the Aborts that name an entry, at its fetch (R373). -/
def answerAborts (d : Dev) (i : Nat) (s : Slot) : Dev :=
  let k := entryKey s.port s.pair s.index
  let mine := (d.qe.aborts.filter (fun a => decide (a.2 = k))).map Prod.fst
  let d := d.modQe fun x => { x with aborts := x.aborts.filter (fun a => decide (a.2 ≠ k)) }
  mine.foldl (fun d a => match d.slot a with
    | none => d
    | some t =>
      if opcode s = 8 ∧ ¬ isAdmin s then d.finishSlot a 2
      else if cdw t 1 % 65536 = s.cid ∧ (d.slot i).any (fun x => x.phase != .finished) then
        ((d.finishSlot i 8).count Reg.QE_ABORT_CNT_ABORTED).setSlot a { t with phase := .finished, status := 0, target := some i }
      else d.finishSlot a 0x0A) d

/-- An entry that was fetched: aborted, refused by a check, or on its way (R364, R368, R335). -/
def begin_ (d : Dev) (i : Nat) : Dev := match d.slot i with
  | none => d
  | some s =>
    let d := d.answerAborts i s
    match d.slot i with
    | none => d
    | some s =>
      if s.phase = .finished then d
      else
        let st := d.checkEntry i s
        if st ≠ 0 then d.finishSlot i st
        else if d.on Reg.BUF_STAT_FAILED ∧ ¬ isAdmin s then d.refuseSlot i 0x13 3
        else if ¬ keyed s then d
        else
          let s := { s with locks := true }
          if d.lockBlocked s then (d.setSlot i { s with phase := .lockWait }).count Reg.QE_LOCK_WAIT_COUNT
          else (d.setSlot i s).grant i

/-- A new slot. -/
def newSlot (d : Dev) (p : Port) (q index : Nat) (entry dlist : List Byte) : Slot where
  port := p
  pair := q
  cid := byteField entry 2 2
  index := index
  order := d.qe.nextOrder
  entry := entry
  dlist := dlist
  phase := .fetched
  locks := false
  cls := .unreserved
  grantedAt := d.now
  status := 0
  outcome := .served
  reason := 0
  delay := 0
  result := 0
  arrived := d.now
  wants := []
  covers := []
  earlier := []
  held := none
  reissues := 0
  restarted := false
  orphan := false
  lostXfer := false
  target := none
  lost := 0
  moved := false

/-- The lowest free slot. -/
def freeSlot (d : Dev) : Nat := (firstFrom (fun i => (d.slot i).isNone) 4096 0).getD 4096

/-- SUBMISSION_FETCH (R358, R364): the pair that arbitration gives; an I/O command pauses the march test (R380). -/
def fetch (d : Dev) (p : Port) (entry dlist : List Byte) : Dev :=
  if d.due ≠ some p then d
  else match d.pick p with
    | none => d
    | some (q, a) =>
      if hq : q < 128 then
        let q' : Pair := ⟨q, hq⟩
        let h := d.get (Reg.QE_QPTR_SQ_HEAD p q')
        let i := d.freeSlot
        let s := d.newSlot p q h entry dlist
        let d := ((d.setArb p a).set (Reg.QE_QPTR_SQ_HEAD p q') ((h + 1) % d.ringN p q')).count (Reg.QE_QCNT_FETCHED p q')
        let d := ((d.unpause p q').modQe fun x => { x with nextOrder := x.nextOrder + 1 }).setSlot i s
        let d := (d.begin_ i).pauseSync p
        if q = 0 then d else d.pauseMarch
      else d

/-! ### Completion (R365, R375) -/

/-- Statuses that stop a queue (R367). -/
def stops (st : Nat) : Bool := [1, 2, 3, 4, 5, 6, 7, 0x10, 0x11, 0x12].contains st

/-- The failing blocks of a command (R372): first sector, unrecovered mask and PBA of each. -/
def failing (s : Slot) : List (Nat × Nat × Nat) :=
  (s.wants.filter (fun w => w.unrec != 0)).map (fun w => ((if sectorCmd s then slba s else 0) + w.dest / 4096 - w.first / 4096, w.unrec, w.pba))

/-- Error-log entries of a command (R375, R377). -/
def logCmd (d : Dev) (s : Slot) (frozen dropped : Bool) : Dev :=
  let one (d : Dev) (b : Nat × Nat × Nat) : Dev :=
    d.elogAdd 0x60 1 s.status [(16, 1, s.port.idx), (17, 1, s.pair), (18, 2, s.cid), (20, 1, opcode s), (21, 1, b2n frozen + 2 * b2n dropped),
      (22, 2, s.index), (24, 8, b.1), (32, 4, if sectorCmd s then nsect s else 0), (36, 2, volOf s), (38, 2, b.2.1), (40, 4, b.2.2), (44, 4, s.result)]
  match (if s.status = 0x10 then failing s else []) with
  | [] => one d (if sectorCmd s then slba s else 0, 0, 0)
  | l => l.foldl one d

/-- A completion entry (R365). -/
def cqEntry (s : Slot) (sqhd phase : Nat) (frozen failover : Bool) : List Byte :=
  let oc := match s.outcome with
    | .served => 0
    | .delayed => 1
    | .refused => 2
  leBytes 4 s.result ++ leBytes 4 (min s.delay 0xFFFFFFF + 2 ^ 28 * oc) ++ leBytes 2 sqhd ++ leBytes 1 (s.pair + 128 * s.port.idx) ++
    leBytes 1 (if s.outcome = .refused then s.reason else 0) ++ leBytes 2 s.cid ++
    leBytes 2 (phase + 2 * s.status + 512 * b2n frozen + 1024 * b2n failover)

/-- Interrupt of a posted entry, aggregated by AGG_N (R353, R354). -/
def cqInterrupt (d : Dev) (p : Port) (q : Pair) : Dev :=
  if ¬ d.on (Reg.QE_QCFG_IEN p q) then d
  else
    let k := pairKey p q.val
    let n := (Sparse.lookup d.qe.agg k).getD 0 + 1
    if d.get (Reg.QE_QCFG_AGG_N p q) ≤ n then
      (d.modQe fun x => { x with agg := Sparse.erase x.agg k }).fire p (d.get (Reg.QE_QCFG_VECTOR p q))
    else d.modQe fun x => { x with agg := Sparse.insert (Sparse.erase x.agg k) k n }

/-- Writes a completion entry to a CQ (R356, R365). -/
def cqPost (d : Dev) (p : Port) (q : Pair) (s : Slot) (sqhd : Nat) (frozen failover : Bool) : Dev :=
  let t := d.get (Reg.QE_QPTR_CQ_TAIL p q)
  let ph := d.get (Reg.QE_QPTR_PHASE p q)
  let base := d.get (Reg.QE_CQB_LO_ADDR p q) + 4294967296 * d.get (Reg.QE_CQB_HI_ADDR p q)
  let d := d.emit (.hostWrite p (base + 16 * t) (cqEntry s sqhd ph frozen failover))
  let t' := (t + 1) % d.ringN p q
  ((d.set (Reg.QE_QPTR_CQ_TAIL p q) t').set (Reg.QE_QPTR_PHASE p q) (if t' = 0 then 1 - ph else ph)).cqInterrupt p q

/-- The failover CQ for the orphans of a lost port (R387). -/
def focq (d : Dev) (lost : Port) : Pair :=
  ⟨d.get (match lost with
    | .A => Reg.QE_FO_FOCQ_B
    | .B => Reg.QE_FO_FOCQ_A) % 128, Nat.mod_lt _ (by decide)⟩

/-- The marker that follows the last orphan of a lost port (R387). -/
def postMarker (d : Dev) (p : Port) : Dev :=
  if ¬ d.qe.lost.contains p ∨ d.slots.any (fun s => decide (s.2.port = p) && s.2.orphan) then d
  else
    let q := d.focq p
    let gone (d : Dev) : Dev := d.modQe fun x => { x with lost := x.lost.filter (fun l => decide (l ≠ p)) }
    if ¬ d.focqReady p.other then gone d
    else if d.cqFull p.other q ∨ ¬ d.portServes p.other then d
    else
      let m := { d.newSlot p 0 0 [] [] with cid := 0xFFFF }
      gone (d.cqPost p.other q m 0 false true)

/-- Data blocks that a Flush still waits for (R370). -/
def unreleased (b : Blk) : Bool := decide (b.kind = 0 ∧ b.phase ≠ .cached) && !b.refresh

/-- Forces out partial blocks (R369). -/
def force (d : Dev) (l : List Nat) : Dev := l.foldl (fun d i => match d.blk i with
  | some b => if b.phase = .filling then d.handOff i else d
  | none => d) d

/-- The blocks of a committed write join the Flushes that waited for it (R370). -/
def coverWrite (d : Dev) (i : Nat) (s : Slot) : Dev :=
  let live := s.covers.filter (fun b => (d.blk b).any unreleased)
  if s.status ≠ 0 ∨ ¬ d.slots.any (fun f => f.2.earlier.contains i && opcode f.2 == 0) then d
  else
    let d := { d with slots := d.slots.map (fun (f : Nat × Slot) =>
      if f.2.earlier.contains i ∧ opcode f.2 = 0 then (f.1, { f.2 with covers := f.2.covers ++ live.filter (fun b => !f.2.covers.contains b) }) else f) }
    d.force live

/-- A Stream Close with nothing left to wait for completes (R393). -/
def finishCloses (d : Dev) : Dev :=
  (d.slots.filter (fun s => decide (s.2.phase = .running ∧ opcode s.2 = 0x11 ∧ s.2.earlier = []) && !isAdmin s.2)).foldl
    (fun d s => d.finishSlot s.1 0) d

/-- Whether a stream still has blocks to hand to the FSQ (R393). -/
def hasStaged (d : Dev) (c : Nat) : Bool :=
  d.bufx.blocks.any (fun b => decide (b.2.strm = some c ∧ (b.2.phase = .filling ∨ b.2.phase = .staged)))

/-- Publishes the stream contexts in use (R414). -/
def syncCtx (d : Dev) : Dev :=
  let used := (d.arc.streams.filter (fun s => s.2.opened || s.2.draining)).length
  d.setAll [(Reg.ARC_STAT_STREAMS, (d.arc.streams.filter (fun s => s.2.opened)).length), (Reg.ARC_CTX_USED, used),
    (Reg.ARC_CTX_MAX, max used (d.get Reg.ARC_CTX_MAX))]

/-- What the commit of a Stream Close does (R393). -/
def closeStream (d : Dev) (h : Nat) : Dev :=
  let c := h % 16384
  let d := d.force ((d.bufx.blocks.filter (fun b => decide (b.2.strm = some c))).map Prod.fst)
  let d := (d.arc.groups.filter (fun g => decide (g.strm = some c) && !g.closed)).foldl (fun d g => d.closeGroup g.ident) d
  let drain := d.hasStaged c
  let d := d.modArc fun a =>
    { a with
      streams := a.streams.map (fun s => if s.1 = c then (c, { s.2 with opened := false, draining := drain }) else s)
      objs := a.objs.map (fun o => if o.strm = h then { o with isSealed := true } else o) }
  d.syncCtx.syncRes

/-- A pair that drains and holds no slot any more is disabled (R357). -/
def drainPair (d : Dev) (p : Port) (q : Nat) : Dev :=
  if h : q < 128 then
    if d.get (Reg.QE_QCTL_STATE p ⟨q, h⟩) = 3 ∧ ¬ d.slots.any (fun s => decide (s.2.port = p ∧ s.2.pair = q ∧ s.2.orphan = false)) then
      d.set (Reg.QE_QCTL_STATE p ⟨q, h⟩) 0
    else d
  else d

/-- What follows the commit of slot `i` (R368, R370, R373, R378, R393): no request of it is left at a mechanism. -/
def committed (d : Dev) (i : Nat) (s : Slot) : Dev :=
  let d := { d with slots := Sparse.erase d.slots i }
  let d := { d with mech := d.mech.map (fun (x : MechX) => { x with mch := { x.mch with held := x.mch.held.filter (fun h => decide (h.req.slot ≠ some i)) } }) }
  let d := (d.slots.filter (fun t => decide (t.2.target = some i))).foldl (fun d t =>
    let d := if t.2.phase = .running then (d.finishSlot t.1 9).count Reg.QE_ABORT_CNT_LATE else d
    d.modSlot t.1 fun x => { x with target := none }) d
  let d := d.coverWrite i s
  let d := { d with slots := d.slots.map (fun (t : Nat × Slot) => (t.1, { t.2 with earlier := t.2.earlier.filter (fun e => decide (e ≠ i)) })) }
  let d := (d.finishFlushes d.slots).finishCloses
  let d := if opcode s = 0x11 ∧ ¬ isAdmin s ∧ s.status = 0 then d.closeStream (cdw s 0) else d
  let d := d.modQe fun x =>
    { x with unrecovered := x.unrecovered + b2n (s.status == 0x10), refused := x.refused + b2n (s.outcome == .refused) }
  let d := d.grantAll
  if s.orphan then d else d.drainPair s.port s.pair

/-- COMPLETION_COMMIT (R365): the entry is written and the command commits; while its CQ has no room it waits. -/
def commit (d : Dev) (i : Nat) : Dev := match d.slot i with
  | none => d
  | some s =>
    if s.phase ≠ .finished ∨ s.target ≠ none then d
    else
      let q : Pair := ⟨s.pair % 128, Nat.mod_lt _ (by decide)⟩
      let drop (d : Dev) : Dev := (d.logCmd s false true).committed i s
      if s.orphan then
        if ¬ d.qe.lost.contains s.port ∨ ¬ d.focqReady s.port.other then drop (d.count Reg.QE_FO_CNT_DROPPED)
        else if d.cqFull s.port.other (d.focq s.port) ∨ ¬ d.portServes s.port.other then d
        else
          let d := if stops s.status then d.logCmd s false false else d
          ((d.cqPost s.port.other (d.focq s.port) s (d.get (Reg.QE_QPTR_SQ_HEAD s.port q)) false true).count Reg.QE_FO_CNT_REDIRECTED).committed i s
      else if d.get (Reg.QE_QCTL_STATE s.port q) = 4 then drop d
      else if d.cqFull s.port q ∨ ¬ d.portServes s.port then d
      else
        let d := if stops s.status ∧ s.pair ≠ 0 ∧ d.get (Reg.QE_QCTL_STATE s.port q) = 1 then
            (d.set (Reg.QE_QCTL_STATE s.port q) 2).count (Reg.QE_QCNT_FREEZES s.port q)
          else d
        let frozen := d.get (Reg.QE_QCTL_STATE s.port q) == 2
        let d := if stops s.status then d.logCmd s frozen false else d
        (d.cqPost s.port q s (d.get (Reg.QE_QPTR_SQ_HEAD s.port q)) frozen false).committed i s

/-! ### Doorbells, enable and disable (R355–R357, R376) -/

/-- SQ_TAIL_DOORBELL. -/
def sqDoorbell (d : Dev) (p : Port) (q : Pair) (w : Nat) : Dev :=
  let t := w % 4096
  let st := d.get (Reg.QE_QCTL_STATE p q)
  if d.get (Reg.QE_QCFG_SIZE p q) < t ∨ st = 0 ∨ st = 3 then d.violation p q.val 0x0A01 0 w
  else (d.modQe fun x => { x with sqTail := Sparse.insert (Sparse.erase x.sqTail (pairKey p q.val)) (pairKey p q.val) t }).pauseSync p

/-- CQ_HEAD_DOORBELL: the new head lies among the posted entries. -/
def cqDoorbell (d : Dev) (p : Port) (q : Pair) (w : Nat) : Dev :=
  let h := w % 4096
  let n := d.ringN p q
  let old := d.cqHead p q
  if n ≤ h ∨ (d.get (Reg.QE_QPTR_CQ_TAIL p q) + n - old) % n < (h + n - old) % n then d.violation p q.val 0x0A02 0 w
  else d.modQe fun x => { x with cqHead := Sparse.insert (Sparse.erase x.cqHead (pairKey p q.val)) (pairKey p q.val) h }

/-- Answers the Aborts of unfetched entries of a pair for which `gone` holds (R373). -/
def dropAborts (d : Dev) (p : Port) (q : Pair) (gone : Nat → Bool) (status result : Nat) : Dev :=
  let mine (a : Nat × Nat) : Bool := decide (a.2 / 65536 = entryKey p q.val 0 / 65536) && gone (a.2 % 65536)
  let l := d.qe.aborts.filter mine
  let d := d.modQe fun x => { x with aborts := x.aborts.filter (fun a => !mine a) }
  l.foldl (fun d a => d.finishSlot a.1 status result) d

/-- RESTART_DOORBELL (R376). -/
def restart (d : Dev) (p : Port) (q : Pair) (w : Nat) : Dev :=
  let n := d.ringN p q
  let h := d.get (Reg.QE_QPTR_SQ_HEAD p q)
  let new := if tbit w 31 then h else w % 4096
  let skip := (new + n - h) % n
  if d.get (Reg.QE_QCTL_STATE p q) ≠ 2 ∨ n ≤ new ∨ d.unfetched p q < skip then d.violation p q.val 0x0A03 0 w
  else
    let d := (d.set (Reg.QE_QPTR_SQ_HEAD p q) new).set (Reg.QE_QCTL_STATE p q) 1
    (d.dropAborts p q (fun i => decide ((i + n - h) % n < skip)) 0x0A 1).pauseSync p

/-- QUEUE_ENABLE (R357). -/
def enable (d : Dev) (p : Port) (q : Pair) : Dev :=
  let st := d.get (Reg.QE_QCTL_STATE p q)
  if st ≠ 0 then if st = 3 then d.violation p q.val 0x0A04 0 1 else d
  else if d.get (Reg.QE_SQB_LO_ADDR p q) % 64 ≠ 0 ∨ d.get (Reg.QE_CQB_LO_ADDR p q) % 16 ≠ 0 ∨ d.get (Reg.QE_QCFG_SIZE p q) = 0 ∨
      d.ringMax < d.ringN p q ∨ d.pairsOf p ≤ q.val then d.violation p q.val 0x0A04 0 1
  else
    let k := pairKey p q.val
    let d := d.modQe fun x => { x with sqTail := Sparse.erase x.sqTail k, cqHead := Sparse.erase x.cqHead k, agg := Sparse.erase x.agg k }
    d.setAll [(Reg.QE_QPTR_SQ_HEAD p q, 0), (Reg.QE_QPTR_CQ_TAIL p q, 0), (Reg.QE_QPTR_PHASE p q, 1), (Reg.QE_QCTL_EN p q, 1),
      (Reg.QE_QCTL_STATE p q, 1)]

/-- QUEUE_DISABLE (R357): unfetched entries are dropped; the pair drains. -/
def disable (d : Dev) (p : Port) (q : Pair) : Dev :=
  let st := d.get (Reg.QE_QCTL_STATE p q)
  let d := d.set (Reg.QE_QCTL_EN p q) 0
  if st = 0 ∨ st = 3 then d
  else
    let d := (d.dropAborts p q (fun _ => true) 0x0B 0).unpause p q
    (d.set (Reg.QE_QCTL_STATE p q) 3).drainPair p q.val

/-! ### Host memory errors (R388) -/

/-- A host memory access failed, or a bad TLP came. -/
def hostError (d : Dev) (e : HostErr) : Dev := match e with
  | .data i => match d.slot i with
    | some s =>
      if s.phase = .finished ∨ s.orphan then d
      else (d.violation s.port s.pair 0x0A05 1 0).finishSlot i 6
    | none => d
  | .fetch p q =>
    if d.due ≠ some p ∨ (d.pick p).map Prod.fst ≠ some q.val then d
    else
      let h := d.get (Reg.QE_QPTR_SQ_HEAD p q)
      let i := d.freeSlot
      let s := { d.newSlot p q.val h (List.replicate 64 0) [] with cid := 0xFFFF, phase := .finished, status := 6 }
      let d := (d.violation p q.val 0x0A05 1 0).modQe fun x => { x with nextOrder := x.nextOrder + 1 }
      let d := if q.val = 0 then d else (d.set (Reg.QE_QCTL_STATE p q) 2).count (Reg.QE_QCNT_FREEZES p q)
      d.setSlot i s
  | .cqWrite p q =>
    let st := d.get (Reg.QE_QCTL_STATE p q)
    if ¬ d.portServes p ∨ st = 0 then d else (d.violation p q.val 0x0A06 4 0).set (Reg.QE_QCTL_STATE p q) 4
  | .ecrc p => d.violation p 0 0x0A07 0 0

/-- INTERRUPT_AGGREGATION_TIMEOUT (R354): AGG_T after the first entry not signalled. -/
def aggTimeout (d : Dev) (p : Port) (q : Pair) : Dev :=
  let k := pairKey p q.val
  if d.on (Reg.QE_QCFG_AGG_T p q) ∧ (Sparse.lookup d.qe.agg k).isSome then
    (d.modQe fun x => { x with agg := Sparse.erase x.agg k }).fire p (d.get (Reg.QE_QCFG_VECTOR p q))
  else d

/-- What every command of the queues publishes at its end: occupancy, slots, and the markers that are due. -/
def settleQueues (d : Dev) : Dev := ((d.postMarker .A).postMarker .B).syncBuf.syncSlots

/-- A command of the queues, once the main domains run. -/
def onQueues (d : Dev) (f : Dev → Dev) : Dev := if d.up then (f d).settleQueues else d

/-- An access of a host through its port, which wakes the device from DEEP_IDLE (R59). -/
def viaPort (d : Dev) (p : Port) (f : Dev → Dev) : Dev := if d.portServes p then (f (d.wakePort p)).settleQueues else d

end Dev

/-! ### Meanings -/

/-- SQ_TAIL_DOORBELL (R355, R388). -/
def execSqTailDoorbell (p : Port) (q : Pair) (w : Word) (s : State) : Host.Outcome State Fault Refusal :=
  liftDev (fun d => d.viaPort p fun d => d.sqDoorbell p q w.toNat) s
/-- CQ_HEAD_DOORBELL (R355, R388). -/
def execCqHeadDoorbell (p : Port) (q : Pair) (w : Word) (s : State) : Host.Outcome State Fault Refusal :=
  liftDev (fun d => d.viaPort p fun d => d.cqDoorbell p q w.toNat) s
/-- RESTART_DOORBELL (R376). -/
def execRestartDoorbell (p : Port) (q : Pair) (w : Word) (s : State) : Host.Outcome State Fault Refusal :=
  liftDev (fun d => d.viaPort p fun d => d.restart p q w.toNat) s
/-- QUEUE_ENABLE (R357). -/
def execQueueEnable (p : Port) (q : Pair) (s : State) : Host.Outcome State Fault Refusal := liftDev (fun d => d.viaPort p fun d => d.enable p q) s
/-- QUEUE_DISABLE (R357). -/
def execQueueDisable (p : Port) (q : Pair) (s : State) : Host.Outcome State Fault Refusal := liftDev (fun d => d.viaPort p fun d => d.disable p q) s
/-- SUBMISSION_FETCH (R358, R364). -/
def execSubmissionFetch (p : Port) (entry dlist : List Byte) (s : State) : Host.Outcome State Fault Refusal :=
  liftDev (fun d => d.onQueues fun d => d.fetch p entry dlist) s
/-- COMPLETION_COMMIT (R365). -/
def execCompletionCommit (slot : Nat) (s : State) : Host.Outcome State Fault Refusal := liftDev (fun d => d.onQueues fun d => d.commit slot) s
/-- HOST_MEMORY_ERROR (R388). -/
def execHostMemoryError (e : HostErr) (s : State) : Host.Outcome State Fault Refusal := liftDev (fun d => d.onQueues fun d => d.hostError e) s
/-- INTERRUPT_AGGREGATION_TIMEOUT (R354). -/
def execInterruptAggregationTimeout (p : Port) (q : Pair) (s : State) : Host.Outcome State Fault Refusal :=
  liftDev (fun d => d.onQueues fun d => d.aggTimeout p q) s

end Sys2Proof.Machine
end

