-- ==== Sys2Proof/Machine/Commands.lean ====
section
/-! DEFINITION. The I/O commands (R361, R369–R374, R391–R395, R398, R411) and their admission (R343–R346). -/
namespace Sys2Proof.Machine
namespace Dev

/-! ### The Archive Service -/

/-- Whether the Archive Service serves (R79, R414). -/
def arcServes (d : Dev) : Bool := d.get Reg.ARC_STAT_STATE == 1 && !d.inReset 26

/-- A command of the Archive Service: it waits while the service does not run, and counts the wait as delay (R79, R366). -/
def viaArc (d : Dev) (i : Nat) (f : Dev → Dev) : Dev := match d.slot i with
  | none => d
  | some s =>
    if ¬ d.arcServes then (if s.phase = .finished then d else d.setSlot i { s with held := some (s.held.getD d.now) })
    else
      let d := d.wakeService
      match s.held with
      | some t => f (d.setSlot i { s with held := none, delay := s.delay + (d.now - t) / 1000 })
      | none => f d

/-! ### Staging (R337, R369, R394) -/

/-- Writes a block without publishing the occupancy. -/
def putBlk (d : Dev) (i : Nat) (b : Blk) : Dev := d.modBufx fun x => { x with blocks := Sparse.insert (Sparse.erase x.blocks i) i b }

/-- Adds reserved-class bytes of a stream to a block's list. -/
def addReserved (l : List (Nat × Nat)) (c n : Nat) : List (Nat × Nat) :=
  if n = 0 then l else Sparse.insert (Sparse.erase l c) c ((Sparse.lookup l c).getD 0 + n)

/-- What staging needs to know of a write. -/
structure StageInfo where
  strm : Option Nat
  p : Nat
  q : Nat
  res : Nat

/-- Buffer address at which sector `k` of a block is staged: in the block of its key that is filling, or in the place of a new one. -/
def stageAddr (d : Dev) (key : LKey) (k : Nat) : Nat :=
  (match d.bufx.blocks.find? (fun b => decide (b.2.key = key ∧ b.2.phase = .filling ∧ b.2.kind = 0)) with
    | some (_, b) => b.addr
    | none => d.newAddr) + 4096 * k

/-- The read cache no longer holds a sector that is written (R17): a cached block left with no sector goes. -/
def uncache (l : List (Nat × Blk)) (key : LKey) (k : Nat) : List (Nat × Blk) :=
  (l.map (fun e => if e.2.key = key ∧ e.2.phase = .cached ∧ e.2.kind = 0 ∧ e.2.refresh = false then (e.1, { e.2 with valid := clrb e.2.valid k }) else e)).filter
    (fun e => !(decide (e.2.key = key ∧ e.2.phase = .cached ∧ e.2.kind = 0 ∧ e.2.refresh = false ∧ e.2.valid = 0)))

/-- Stages one sector into the filling block of its key, or into a new block; a full block is ready for placement (R369). -/
def stageSector (w : StageInfo) (x : Dev × Memory × List Nat) (key : LKey) (k : Nat) (bytes : List Byte) : Dev × Memory × List Nat :=
  let d := x.1
  let a := d.stageAddr key k
  let place := d.newAddr
  let d := d.modBufx fun z => { z with blocks := uncache z.blocks key k }
  let (i, b, d) := match d.bufx.blocks.find? (fun b => decide (b.2.key = key ∧ b.2.phase = .filling ∧ b.2.kind = 0)) with
    | some (i, b) => (i, b, d)
    | none =>
      let i := d.bufx.nextBlk
      let b := { emptyBlk key place d.now with strm := w.strm, p := w.p, q := w.q }
      (i, b, d.modBufx fun x => { x with nextBlk := i + 1 })
  let full := setb b.valid k = 0xFFFF
  let o := d.arc.nextOrder + 1
  let d := if full then d.modArc fun z => { z with nextOrder := o } else d
  let b := { b with
    valid := setb b.valid k
    reserved := match w.strm with
      | some c => addReserved b.reserved c w.res
      | none => b.reserved
    phase := if full then .staged else .filling
    order := if full then o else b.order }
  let d := ((d.putBlk i b).touch a).modBufx fun z => { z with poison := z.poison.filter (fun p => !(decide (a ≤ p ∧ p < a + 4096))) }
  (d, x.2.1.writeBytes a bytes, if x.2.2.contains i then x.2.2 else x.2.2 ++ [i])

/-- Cuts data into sectors, the last one filled up with zeros. -/
def sectors : (n : Nat) → List Byte → List (List Byte)
  | 0, _ => []
  | n + 1, l => ((l.take 4096) ++ List.replicate (4096 - (l.take 4096).length) 0) :: sectors n (l.drop 4096)

/-- Stages data from a sector of a sequence on, and ends the command of slot `i` with SUCCESS. -/
def stageAll (d : Dev) (buf : Memory) (i : Nat) (s : Slot) (vol : Nat) (strm : Option Nat) (first : Nat) (data : List Byte) : Dev × Memory :=
  let (p, q) := match streamCtx s, d.vol vol with
    | some c, some v => match Sparse.lookup d.arc.streams c with
      | some st => (if st.p = 0 then v.p else st.p, if st.q = 0 then v.q else st.q)
      | none => (v.p, v.q)
    | none, some v => (v.p, v.q)
    | _, none => (0, 0)
  let w : StageInfo := ⟨streamCtx s, p, q, if s.cls = .reserved then 4096 else 0⟩
  let d := d.finishSlot i 0
  let x := ((sectors ((data.length + 4095) / 4096) data).zipIdx).foldl
    (fun x e => stageSector w x ⟨vol, strm, (first + e.2) / 16⟩ ((first + e.2) % 16) e.1) (d, buf, [])
  (x.1.modSlot i fun t => { t with covers := x.2.2 }, x.2.1)

/-- WRITE (R369): the data of an admitted write has reached the buffer. -/
def write (d : Dev) (buf : Memory) (i : Nat) (data : List Byte) : Dev × Memory := match d.slot i with
  | none => (d, buf)
  | some s =>
    if ¬ inTransfer s ∨ opcode s ≠ 1 ∨ data.length ≠ dataLen s then (d, buf)
    else d.stageAll buf i s (volOf s) none (slba s) data

/-- Appends an Object Put to its object (R394): the bytes begin at sector `first` of the stream's sequence. -/
def appendObj (d : Dev) (vol h ident first len : Nat) (final : Bool) : Dev :=
  match d.unsealed vol ident with
  | some _ => d.modArc fun a =>
      { a with objs := a.objs.map (fun x => if x.vol = vol ∧ x.ident = ident ∧ x.isSealed = false then
          { x with extents := x.extents ++ [(first, len)], size := x.size + len, isSealed := final } else x) }
  | none =>
    let v := ((d.arc.objs.filter (fun x => decide (x.vol = vol ∧ x.ident = ident))).map Obj.version).foldl max 0
    d.modArc fun a => { a with objs := a.objs ++ [⟨vol, ident, v + 1, len, final, h, [(first, len)]⟩] }

/-- OBJECT_PUT (R394). -/
def objectPut (d : Dev) (buf : Memory) (i : Nat) (data : List Byte) : Dev × Memory := match d.slot i with
  | none => (d, buf)
  | some s =>
    if ¬ inTransfer s ∨ opcode s ≠ 0x20 ∨ data.length ≠ dataLen s ∨ ¬ d.arcServes then (d, buf)
    else
      let c := cdw s 0 % 16384
      match Sparse.lookup d.arc.streams c with
      | none => (d, buf)
      | some st =>
        let first := st.seq
        let (d, buf) := d.stageAll buf i s st.vol (some (cdw s 0)) first data
        let d := d.modArc fun a =>
          { a with streams := Sparse.insert (Sparse.erase a.streams c) c { st with seq := first + (data.length + 4095) / 4096 } }
        (d.appendObj st.vol (cdw s 0) (objId s) first data.length (tbit (cdw s 5) 0), buf)

/-! ### Reads (R17, R344, R361, R395) -/

/-- Bytes that a list of pieces takes from the buffer. -/
def bufferBytes (d : Dev) (ps : List Piece) : Nat :=
  (ps.map (fun p => match d.sectorSrc false p.key p.sector with
    | .buffer _ => p.len
    | _ => 0)).foldl (· + ·) 0

/-- Serves one piece from the buffer, or with zeros for a sector never written (R17, R372). -/
def servePiece (buf : Memory) (s : Slot) (d : Dev) (p : Piece) : Dev :=
  match d.sectorSrc false p.key p.sector with
  | .buffer a => ((d.touch (a + p.off)).putHost s p.dest (buf.readBytes (a + p.off) p.len))
  | .zeros => d.putHost s p.dest (List.replicate p.len 0)
  | _ => d

/-- Notes the use of the cached blocks that pieces come from (R337). -/
def noteUse (d : Dev) (ps : List Piece) : Dev :=
  let u := d.bufx.useClock + 1
  d.modBufx fun x =>
    { x with
      useClock := u
      blocks := x.blocks.map (fun (b : Nat × Blk) => if b.2.phase = .cached ∧ ps.any (fun p => decide (p.key = b.2.key)) then (b.1, { b.2 with use := u }) else b) }

/-- Runs a read whose transfer from the buffer may go: the buffer's sectors move, the others are read from media. -/
def runRead (d : Dev) (buf : Memory) (i : Nat) (s : Slot) (result : Nat) : Dev :=
  if s.lostXfer then d.finishSlot i 0x0C
  else
    let ps := d.piecesOf s
    let ws := d.wantsOf false ps
    let d := if d.bufferBytes ps = 0 then d else (d.takeMeter (d.bufferBytes ps)).noteUse ps
    let d := ps.foldl (servePiece buf s) d
    let moved := ps.any (fun p => match d.sectorSrc false p.key p.sector with
      | .buffer _ => true
      | .zeros => true
      | _ => false)
    (d.modSlot i fun t => { t with phase := .running, wants := ws, moved := moved, result := result }).finishWants i

/-- Starts a read (R344): sectors in the buffer wait for the meter. -/
def startRead (d : Dev) (buf : Memory) (i : Nat) (s : Slot) (result : Nat) : Dev :=
  let ps := d.piecesOf s
  match d.absentDisc false ps with
  | some x =>
    let d := d.refuseSlot i 0x13 7
    if opcode s = 0x21 then d.arcNeeded x (volOf s) else d
  | none =>
    if d.bufferBytes ps ≠ 0 ∧ (d.meterNow ≤ 0 ∨ d.olderWaits i s) then d.setSlot i { s with phase := .admitWait, result := result }
    else d.runRead buf i s result

/-- READ (R361). -/
def read (d : Dev) (buf : Memory) (i : Nat) : Dev := match d.slot i with
  | none => d
  | some s => if s.phase ≠ .fetched ∨ isAdmin s ∨ opcode s ≠ 2 then d else d.startRead buf i s 0

/-- Blocks not yet released that hold sectors of a command (R371). -/
def coversOf (d : Dev) (ps : List Piece) : List Nat :=
  (d.bufx.blocks.filter (fun b => unreleased b.2 && ps.any (fun p => decide (p.key = b.2.key) && tbit b.2.valid p.sector))).map Prod.fst

/-- Starts a verify (R371): it waits for the release of its blocks. -/
def beginVerify (d : Dev) (i : Nat) (s : Slot) (result : Nat) : Dev :=
  let l := d.coversOf (d.piecesOf s)
  let d := (d.setSlot i { s with phase := .running, covers := l, result := result }).force l
  d.finishFlushes d.slots

/-- VERIFY (R371). -/
def verify (d : Dev) (i : Nat) : Dev := match d.slot i with
  | none => d
  | some s => if s.phase ≠ .fetched ∨ isAdmin s ∨ opcode s ≠ 4 then d else d.beginVerify i s 0

/-- OBJECT_GET (R395). -/
def objectGet (d : Dev) (buf : Memory) (i : Nat) : Dev := match d.slot i with
  | none => d
  | some s =>
    if s.phase ≠ .fetched ∨ isAdmin s ∨ opcode s ≠ 0x21 then d
    else match d.newestSealed (volOf s) (objId s) with
      | none => d.finishSlot i 0 0xFFFFFFFF
      | some o =>
        let n := min (dataLen s) (o.size - byteField s.entry 52 8)
        if verifies s then d.beginVerify i s n else d.startRead buf i s n

/-! ### Flush (R370) and the placement hold (R398) -/

/-- FLUSH: it waits for earlier writes of its volume to commit, and for the blocks of those that have. -/
def flush (d : Dev) (i : Nat) : Dev := match d.slot i with
  | none => d
  | some s =>
    if s.phase ≠ .fetched ∨ isAdmin s ∨ opcode s ≠ 0 then d
    else
      let v := volOf s
      let earlier := (d.slots.filter (fun t => decide (t.2.order < s.order ∧ (opcode t.2 = 1 ∨ opcode t.2 = 0x20) ∧ (v = 0 ∨ d.cmdVol t.2 = v)) && !isAdmin t.2)).map Prod.fst
      let covers := (d.bufx.blocks.filter (fun b => unreleased b.2 && decide (v = 0 ∨ b.2.key.vol = v))).map Prod.fst
      let d := (d.setSlot i { s with phase := .running, earlier := earlier, covers := covers }).force covers
      d.finishFlushes d.slots

/-- PLACE_HOLD_TIMEOUT (R398): a block of the command has waited PLACE_HOLD_S for placement. -/
def placeHold (d : Dev) (i : Nat) : Dev := match d.slot i with
  | none => d
  | some s =>
    if s.phase = .running ∧ ¬ isAdmin s ∧ (opcode s = 0 ∨ verifies s) ∧
        s.covers.any (fun b => (d.blk b).any (fun x => x.phase == .staged || x.phase == .filling)) then d.refuseSlot i 0x13 8
    else d

/-! ### Admission (R343–R346) -/

/-- WRITE_ADMISSION: a waiting write or buffer read goes when its conditions hold. -/
def writeAdmission (d : Dev) (buf : Memory) (i : Nat) : Dev := match d.slot i with
  | none => d
  | some s =>
    if s.phase ≠ .admitWait then d
    else if opcode s = 1 ∨ opcode s = 0x20 then if d.canAdmit i s then d.takeIn i else d
    else if d.meterNow ≤ 0 ∨ d.olderWaits i s then d
    else
      let s := { s with delay := s.delay + (d.now - s.grantedAt + 999) / 1000 }
      ((d.countWait s false).setSlot i s).runRead buf i s s.result

/-- HOLD_LIMIT_REFUSAL (R345): in pressure, an unreserved write has waited beyond the hold limit. -/
def holdLimit (d : Dev) (i : Nat) : Dev := match d.slot i with
  | none => d
  | some s =>
    if d.on Reg.BUF_STAT_PRESSURE ∧ s.phase = .admitWait ∧ s.cls = .unreserved ∧ (opcode s = 1 ∨ opcode s = 0x20) then
      (d.refuseSlot i 0x13 1).count Reg.BUF_OUT_REFUSED_COUNT
    else d

/-! ### Abort (R373, R374) -/

/-- Media work for a command stops: its requests leave the mechanisms, with the reads and contexts that nothing else wants. -/
def dropRequests (d : Dev) (t : Nat) (m : Mech) : Dev :=
  let d := d.modMch m fun x => { x with held := x.held.filter (fun h => decide (h.req.slot ≠ some t)) }
  let wanted (pba : Nat) : Bool := (d.mx m).mch.held.any (readsPba pba)
  let gone := ((d.mx m).goat.ctxs.filter (fun c => !wanted c.pba)).map GoatCtx.pba
  let d := d.modMech m fun x =>
    { x with
      goat := { x.goat with ctxs := x.goat.ctxs.filter (fun c => !gone.contains c.pba), waiting := x.goat.waiting.filter (fun w => wanted w.1) }
      fsq := { x.fsq with items := x.fsq.items.filter (fun w => !((w.entry == 2 && !wanted w.blk) || (w.entry == 6 && gone.contains w.blk))) } }
  d.goatSync m

/-- Whether an Abort can end a command where it stands (R373). -/
def abortable (s : Slot) : Bool :=
  let op := opcode s
  !isAdmin s && (s.phase == .lockWait || ((op == 1 || op == 0x20) && s.phase == .admitWait) ||
    ((op == 2 || op == 0x21 || op == 4 || op == 0) && s.phase != .finished && !s.moved))

/-- ABORT: the target is looked up where it stands at this moment. -/
def abort (d : Dev) (i : Nat) : Dev := match d.slot i with
  | none => d
  | some s =>
    if s.phase ≠ .fetched ∨ isAdmin s ∨ opcode s ≠ 8 then d
    else
      let p : Port := if tbit (cdw s 0) 7 then .B else .A
      let q : Pair := ⟨cdw s 0 % 128, Nat.mod_lt _ (by decide)⟩
      let idx := bits (cdw s 0) 16 12
      let cid := cdw s 1 % 65536
      let at_ := d.slots.find? (fun t => decide (t.1 ≠ i ∧ t.2.port = p ∧ t.2.pair = q.val ∧ t.2.index = idx))
      match at_ with
      | some (j, t) =>
        if opcode t = 8 ∧ ¬ isAdmin t then d.finishSlot i 2
        else if t.cid ≠ cid then (d.finishSlot i 9).count Reg.QE_ABORT_CNT_LATE
        else if abortable t then
          let d := (d.finishSlot j 8).count Reg.QE_ABORT_CNT_ABORTED
          let d := (List.finRange 16).foldl (fun d m => d.dropRequests j m) d
          d.setSlot i { s with phase := .finished, status := 0, target := some j }
        else d.setSlot i { s with phase := .running, target := some j }
      | none =>
        let n := d.ringN p q
        let st := d.get (Reg.QE_QCTL_STATE p q)
        if (st = 1 ∨ st = 2) ∧ idx < n ∧ (idx + n - d.get (Reg.QE_QPTR_SQ_HEAD p q)) % n < d.unfetched p q then
          (d.setSlot i { s with phase := .running }).modQe fun x => { x with aborts := x.aborts ++ [(i, entryKey p q.val idx)] }
        else (d.finishSlot i 9).count Reg.QE_ABORT_CNT_LATE

/-! ### Streams (R340, R391–R393) -/

/-- Whether the disc of a region volume is in a mechanism. -/
def discThere (d : Dev) (v : Vol) : Bool := d.arc.discs.any (fun x => decide (x.ident = v.disc ∧ x.mech ≠ none))

/-- Headroom of the reservations (R340): BW_LEFT in MB/s and CAP_LEFT in bytes × 100. -/
def resHeadroom (d : Dev) : Nat × Nat :=
  let quotas := (d.arc.streams.map (fun s => if s.2.opened then d.quota s.2 else 0)).foldl (· + ·) 0
  (d.get Reg.GCTL_IMG_RESMAX_RESMAX - d.resSum, d.poolSize .staging * blkBytes * d.get Reg.BUF_WM_RES_SHARE - 100 * quotas)

/-- Whether a reservation can be granted (R340). -/
def canReserve (d : Dev) (p : Port) (rsv : Nat) : Bool :=
  let (bw, cap) := d.resHeadroom
  let thru := (d.arc.streams.map (fun s => if s.2.opened ∧ s.2.port = p then s.2.rsv else 0)).foldl (· + ·) 0
  decide (rsv ≤ bw ∧ rsv * d.get Reg.BUF_RES_CFG_HORIZON_MS * 100000 ≤ cap ∧ thru + rsv ≤ d.ingress p)

/-- The lowest context that is free (R391). -/
def freeCtx (d : Dev) : Option Nat :=
  firstFrom (fun i => match Sparse.lookup d.arc.streams i with
    | some s => !s.opened && !s.draining
    | none => true) ((d.grec 0xA0).f 0 0 14) 0

/-- Strengths of the code (R273). -/
def codeP (p : Nat) : Bool := [4, 6, 8, 10, 12, 16, 21].contains p

/-- STREAM_OPEN (R340, R391, R392). -/
def streamOpen (d : Dev) (i : Nat) : Dev := match d.slot i with
  | none => d
  | some s =>
    if s.phase ≠ .fetched ∨ isAdmin s ∨ opcode s ≠ 0x10 then d
    else match d.vol (volOf s) with
      | none => d.finishSlot i 3
      | some v =>
        let rsv := cdw s 0
        let p := cdw s 1 % 32
        let q := bits (cdw s 1) 8 4
        if (p ≠ 0 ∧ (p < v.p ∨ ¬ codeP p)) ∨ (q ≠ 0 ∧ (q < v.q ∨ 8 < q)) then d.finishSlot i 2
        else if v.kind = 0 ∧ ¬ d.discThere v then d.refuseSlot i 0x13 7
        else match d.freeCtx with
          | none => d.refuseSlot i 0x13 6
          | some c =>
            if 0 < rsv ∧ ¬ d.canReserve s.port rsv then
              let (bw, cap) := d.resHeadroom
              d.refuseSlot i 0x13 2 (min bw (cap / (100000 * max 1 (d.get Reg.BUF_RES_CFG_HORIZON_MS))))
            else
              let gen := match Sparse.lookup d.arc.streams c with
                | some o => if o.gen = 0x3FFFF then 1 else o.gen + 1
                | none => 1
              let st : Stream := ⟨gen, true, false, volOf s, s.port, rsv, p, q, (rsv * d.get Reg.BUF_RES_CFG_RES_WINDOW_MS * 1000000 : Nat), d.now, 0⟩
              let d := d.modArc fun a => { a with streams := Sparse.insert (Sparse.erase a.streams c) c st }
              (d.finishSlot i 0 (c + 16384 * gen)).syncCtx.syncRes

/-- STREAM_CLOSE (R393): it waits for the earlier commands that name its handle. -/
def streamClose (d : Dev) (i : Nat) : Dev := match d.slot i with
  | none => d
  | some s =>
    if s.phase ≠ .fetched ∨ isAdmin s ∨ opcode s ≠ 0x11 then d
    else
      let earlier := (d.slots.filter (fun t => decide (t.2.order < s.order ∧ t.1 ≠ i ∧ handleOf t.2 = some (cdw s 0)))).map Prod.fst
      (d.setSlot i { s with phase := .running, earlier := earlier }).finishCloses

/-! ### Catalogue Query (R411) -/

/-- An entry of 64 bytes. -/
def fit64 (l : List Byte) : List Byte := (l ++ List.replicate 64 0).take 64

/-- The mechanism of a disc as an entry names it. -/
def mechByte (d : Dev) (ident : Nat) : Nat := match d.arc.discs.find? (fun x => decide (x.ident = ident)) with
  | some x => x.mech.getD 0xFF
  | none => 0xFF

/-- Where block `index` of a volume or stream lies on media. -/
def blockLoc (d : Dev) (vol : Nat) (strm : Option Nat) (index : Nat) : Option Loc :=
  (List.range 16).findSome? (fun k => d.located ⟨vol, strm, index⟩ k)

/-- Joins a block to a run of consecutive blocks and PBAs: first index, blocks, disc and first PBA. -/
def addRun (l : List (Nat × Nat × Nat × Nat)) (i : Nat) (x : Loc) : List (Nat × Nat × Nat × Nat) := match l with
  | (a, n, dc, p) :: t => if a + n = i ∧ dc = x.disc ∧ p + n = x.pba then (a, n + 1, dc, p) :: t else (i, 1, x.disc, x.pba) :: l
  | [] => [(i, 1, x.disc, x.pba)]

/-- The entries of a query; `none` for an unknown kind. -/
def queryEntries (d : Dev) (s : Slot) : Option (List (List Byte)) :=
  let kind := cdw s 0
  let id64 := cdw s 1 + 4294967296 * cdw s 2
  if kind = 1 then
    let os := d.arc.objs.filter (fun o => decide (o.ident = objId s ∧ o.vol = cdw s 5 % 65536 ∧ (cdw s 6 = 0 ∨ o.version = cdw s 6)))
    some (os.map (fun o =>
      let l := match o.extents with
        | e :: _ => d.blockLoc o.vol (some o.strm) (e.1 / 16)
        | [] => none
      Config.layout 1 [o.version, o.size, b2n o.isSealed, (l.map Loc.disc).getD 0, (l.map Loc.pba).getD 0, o.extents.length]))
  else if kind = 2 then
    let v := cdw s 1 % 65536
    let lba := cdw s 2 + 4294967296 * cdw s 3
    let b0 := lba / 16
    let runs := (List.range ((lba + cdw s 4 + 15) / 16 - b0)).foldl (fun l k => match d.blockLoc v none (b0 + k) with
      | some x => addRun l (b0 + k) x
      | none => l) []
    some (runs.reverse.map (fun r => Config.layout 2 [v, r.1, r.2.1, r.2.2.1, r.2.2.2, d.mechByte r.2.2.1]))
  else if kind = 3 then
    some ((d.arc.discs.filter (fun x => decide (id64 = 0 ∨ x.ident = id64))).map (fun x =>
      Config.layout 3 [x.ident, x.p, x.q, x.layers, x.placed, x.mech.getD 0xFF, x.ckptSeq, x.ckptAt]))
  else if kind = 4 then
    let m : Mech := ⟨cdw s 1 % 16, Nat.mod_lt _ (by decide)⟩
    let pba := cdw s 2
    match d.discIn m with
    | none => some []
    | some x => match d.arc.gander.find? (fun g => decide (g.disc = x.ident ∧ g.pba = pba)) with
      | none => some []
      | some g =>
        let r := d.drtFind m pba
        let gid := match d.arc.groups.find? (fun g => g.disc == x.ident && (g.members.any (fun e => e.2 == pba) || g.parityPba.contains pba)) with
          | some g => g.ident
          | none => 0
        some [Config.layout 4 [g.cls, g.load, g.frags.length, (r.map (fun e => e.1.kind)).getD 0, (r.map (fun e => e.1.dst)).getD 0, gid]]
  else if kind = 5 then
    match d.arc.groups.find? (fun g => decide (g.ident = id64)) with
    | none => some []
    | some g =>
      let ps := g.members.map Prod.snd ++ g.parityPba
      some ((List.range (max 1 ((ps.length + 11) / 12))).map (fun k =>
        Config.layout 5 ([popcount 32 g.written, g.q, g.missing] ++ (ps.drop (12 * k)).take 12)))
  else none

/-- CATALOGUE_QUERY (R411). -/
def query (d : Dev) (i : Nat) : Dev := match d.slot i with
  | none => d
  | some s =>
    if s.phase ≠ .fetched ∨ isAdmin s ∨ opcode s ≠ 0x22 then d
    else if s.lostXfer then d.finishSlot i 0x0C
    else match d.queryEntries s with
      | none => d.finishSlot i 2
      | some l =>
        let l := l.take (dataLen s / 64)
        (d.putHost s 0 (l.flatMap fit64)).finishSlot i 0 l.length

end Dev

/-- A command of the queues that reads the buffer memory. -/
def liftQueue (s : State) (f : Dev → Memory → Dev) : Host.Outcome State Fault Refusal := liftDev (fun d => d.onQueues fun d => f d s.buf) s

/-- A command of the queues that writes the buffer memory. -/
def liftQueueBuf (s : State) (f : Dev → Memory → Dev × Memory) : Host.Outcome State Fault Refusal :=
  liftBuf (fun d b => if d.up then ((f d b).1.settleQueues, (f d b).2) else (d, b)) s

/-! ### Meanings -/

/-- FLUSH (R370). -/
def execFlush (slot : Nat) (s : State) : Host.Outcome State Fault Refusal := liftQueue s fun d _ => d.flush slot
/-- WRITE (R369). -/
def execWrite (slot : Nat) (data : List Byte) (s : State) : Host.Outcome State Fault Refusal := liftQueueBuf s fun d b => d.write b slot data
/-- READ (R17, R361). -/
def execRead (slot : Nat) (s : State) : Host.Outcome State Fault Refusal := liftQueue s fun d b => d.read b slot
/-- VERIFY (R371). -/
def execVerify (slot : Nat) (s : State) : Host.Outcome State Fault Refusal := liftQueue s fun d _ => d.verify slot
/-- ABORT (R373). -/
def execAbort (slot : Nat) (s : State) : Host.Outcome State Fault Refusal := liftQueue s fun d _ => d.abort slot
/-- STREAM_OPEN (R392). -/
def execStreamOpen (slot : Nat) (s : State) : Host.Outcome State Fault Refusal := liftQueue s fun d _ => d.viaArc slot fun d => d.streamOpen slot
/-- STREAM_CLOSE (R393). -/
def execStreamClose (slot : Nat) (s : State) : Host.Outcome State Fault Refusal := liftQueue s fun d _ => d.viaArc slot fun d => d.streamClose slot
/-- OBJECT_PUT (R394). -/
def execObjectPut (slot : Nat) (data : List Byte) (s : State) : Host.Outcome State Fault Refusal :=
  liftQueueBuf s fun d b => (d.viaArc slot id).objectPut b slot data
/-- OBJECT_GET (R395). -/
def execObjectGet (slot : Nat) (s : State) : Host.Outcome State Fault Refusal := liftQueue s fun d b => d.viaArc slot fun d => d.objectGet b slot
/-- CATALOGUE_QUERY (R411). -/
def execCatalogueQuery (slot : Nat) (s : State) : Host.Outcome State Fault Refusal := liftQueue s fun d _ => d.viaArc slot fun d => d.query slot
/-- WRITE_ADMISSION (R343, R344). -/
def execWriteAdmission (slot : Nat) (s : State) : Host.Outcome State Fault Refusal := liftQueue s fun d b => d.writeAdmission b slot
/-- HOLD_LIMIT_REFUSAL (R345). -/
def execHoldLimitRefusal (slot : Nat) (s : State) : Host.Outcome State Fault Refusal := liftQueue s fun d _ => d.holdLimit slot
/-- PLACE_HOLD_TIMEOUT (R398). -/
def execPlaceHoldTimeout (slot : Nat) (s : State) : Host.Outcome State Fault Refusal := liftQueue s fun d _ => d.placeHold slot

end Sys2Proof.Machine
end

