-- ==== Sys2Proof/Machine/Admin.lean ====
section
/-! DEFINITION. Admin commands on logs, self-tests, volumes and features (R362, R377–R385), attestation (R479–R481), the health page
(R378) and the power estimate (R129). -/
namespace Sys2Proof.Machine
namespace Dev

/-- An admin command in slot `i`, fetched and not yet run, with its opcode. -/
def admin (d : Dev) (i op : Nat) (f : Slot → Dev) : Dev := match d.slot i with
  | none => d
  | some s => if s.phase ≠ .fetched ∨ ¬ isAdmin s ∨ opcode s ≠ op then d else f s

/-- Sends the data of an admin command and ends it; the path of a lost port is gone (R386). -/
def adminReply (d : Dev) (i : Nat) (s : Slot) (bytes : List Byte) (result : Nat := 0) : Dev :=
  if s.lostXfer then d.finishSlot i 0x0C else (d.putHost s 0 bytes).finishSlot i 0 result

/-! ### Identify (R385) -/

/-- The Device Serial Number: the low 64 bits of ID_HASH (R350, R478). -/
def serialNo : Nat := Config.idHash.toNat % 2 ^ 64

/-- Cuts or fills with zeros to `n` bytes. -/
def fitBytes (n : Nat) (l : List Byte) : List Byte := (l ++ List.replicate (n - l.length) 0).take n

/-- FSQ_UCODE_VER of the lowest mechanism present. -/
def ucodeVer (d : Dev) : Nat := match (List.finRange 16).find? (fun m => d.present m) with
  | some m => d.get (Reg.FSQ_UCODE_VER_VERSION m)
  | none => 0

/-- MECH_PRESENT of the DEVICE record. -/
def mechPresent (d : Dev) : Nat := (d.grec 0x10).f 1 0 16

/-- Volumes that the POLICY record allows. -/
def volumes (d : Dev) : Nat := (d.grec 0xA0).f 0 16 11

/-- Stream contexts of the POLICY record. -/
def contexts (d : Dev) : Nat := (d.grec 0xA0).f 0 0 14

/-- CNS 0. -/
def identDevice (d : Dev) : List Byte :=
  leBytes 2 0x1616 ++ leBytes 2 0xB0 ++ leBytes 8 serialNo ++ leBytes 4 0 ++
    fitBytes 32 (match d.sec.svc with
      | some i => Config.layout 0 [i.version.toNat]
      | none => []) ++
    leBytes 4 d.ucodeVer ++ leBytes 2 4096 ++ leBytes 2 4096 ++ leBytes 1 (d.pairsOf .A) ++ leBytes 1 (d.pairsOf .B) ++
    leBytes 2 d.ringMax ++ leBytes 2 1024 ++ leBytes 2 d.contexts ++ leBytes 2 d.mechPresent ++ leBytes 1 (d.get Reg.BUF_STAT_ACTIVE) ++
    leBytes 1 (b2n Config.bar2Implemented) ++ leBytes 4 (d.get Reg.GCTL_IMG_RESMAX_RESMAX)

/-- Sectors of a volume that hold data, in the buffer or on media. -/
def sectorsWritten (d : Dev) (v : Nat) : Nat :=
  let keys := ((d.bufx.blocks.filter (fun b => decide (b.2.kind = 0 ∧ b.2.key.vol = v))).map (fun b => b.2.key) ++
    (d.arc.map.filter (fun l => decide (l.key.vol = v))).map Loc.key).eraseDups
  (keys.map (fun k => ((List.range 16).filter (fun i => (d.located k i).isSome || d.holders k i != [])).length)).foldl (· + ·) 0

/-- The QE_FO word. -/
def foWord (d : Dev) : Nat :=
  d.get Reg.QE_FO_EN + 256 * d.get Reg.QE_FO_FOCQ_A + 65536 * d.get Reg.QE_FO_FOCQ_B + 2 ^ 24 * d.get Reg.QE_FO_EVT_ROUTE + 2 ^ 25 * d.get Reg.QE_FO_EVT_ACTIVE

/-- IDENTIFY (R385). -/
def identify (d : Dev) (i : Nat) : Dev := d.admin i 1 fun s =>
  match cdw s 0 % 4 with
  | 0 => d.adminReply i s (fitBytes 4096 d.identDevice)
  | 1 => match d.vol (volOf s) with
    | none => d.finishSlot i 3
    | some v => d.adminReply i s (fitBytes 4096 (Config.layout 6 [v.kind, v.mechMask, v.stripe, v.capacity, d.sectorsWritten (volOf s), v.p, v.q, v.disc % 2 ^ 64]))
  | 2 => d.adminReply i s (fitBytes 4096 (Config.layout 7 [b2n (d.px s.port).linkUp, d.pairsOf s.port, d.ingress s.port, d.foWord]))
  | _ => d.finishSlot i 2

/-! ### The health page (R378) -/

/-- Sum of a register field over the mechanisms. -/
def sumMech (d : Dev) (f : Mech → Field) : Nat := ((List.finRange 16).map (fun m => d.get (f m))).foldl (· + ·) 0

/-- Flags of the health page. -/
def healthFlags (d : Dev) : Nat :=
  b2n (d.on Reg.BUF_STAT_FAILED) +
    2 * b2n (match d.hottest with
      | some t => decide ((d.get Reg.OXA_TEMP_CFG_WARN : Int) * 16 ≤ t)
      | none => false) +
    4 * b2n ((List.finRange 16).any (fun m => d.mstate m == .fault || d.mstate m == .safe)) +
    8 * b2n ((List.finRange 24).any (fun c => d.get (Reg.BUF_CH_STAT_STATE c) == 4)) +
    16 * b2n (decide (d.get Reg.BUF_RES_SCALE_SCALE < 65535)) +
    32 * b2n ((List.finRange 16).any (fun m => decide (2048 * 90 ≤ 100 * d.get (Reg.DRT_STAT_USED m)))) +
    64 * b2n (decide (256 < d.elog.next)) + 128 * b2n ((d.fw.results.head?.map TestResult.result) == some 1)

/-- Bytes of one mechanism. -/
def healthMech (d : Dev) (m : Mech) : List Byte :=
  let st := d.get (Reg.MCH_STATE_STATE m) + 16 * d.get (Reg.MCH_STATE_AUTO_ACTIVE m) + 32 * d.get (Reg.MCH_STATE_DISC m) +
    64 * d.get (Reg.MCH_STATE_CAL_VALID m) + 128 * d.get (Reg.MCH_STATE_AT_REST m) + 256 * d.get (Reg.MCH_STATE_ESCALATED m) +
    512 * d.get (Reg.MCH_STATE_RECORDING_CLASS m)
  leBytes 2 st ++ leBytes 2 (d.get (Reg.MCH_FAULT_FIRST_CODE m) + 256 * d.get (Reg.MCH_FAULT_FIRST_STATE m)) ++
    leBytes 2 (d.get (Reg.MCH_BEAM_RETIRED m)) ++ leBytes 2 (d.get (Reg.DRT_STAT_USED m)) ++ leBytes 2 (d.get (Reg.GOAT_BKT_LVL_LEVEL m)) ++
    leBytes 4 (d.get (Reg.GANDER_FAIL_COUNT m)) ++ leBytes 2 (d.get (Reg.GOAT_UNREC_UNREC m)) ++ leBytes 2 ((d.mx m).spn.speed.natAbs / 2) ++
    leBytes 8 (match d.discIn m with
      | some x => x.ident % 2 ^ 64
      | none => 0) ++ leBytes 4 0

/-- The health page. -/
def healthPage (d : Dev) : List Byte :=
  leBytes 4 d.healthFlags ++ leBytes 1 (d.get Reg.BUF_STAT_ACTIVE) ++ leBytes 1 d.hottestC ++
    leBytes 2 (((List.finRange 16).map (fun m => popcount 16 (d.get (Reg.MCH_BEAM_RETIRED m)))).foldl (· + ·) 0) ++
    leBytes 8 (d.now / 1000000000) ++ leBytes 4 (min 0xFFFFFFFF d.qe.unrecovered) ++ leBytes 4 (min 0xFFFFFFFF d.qe.failedBlocks) ++
    leBytes 2 (min 0xFFFF (d.sumMech Reg.DRT_STAT_USED)) ++ leBytes 2 (min 0xFFFF (d.sumMech Reg.DRT_STAT_UNPERSISTED)) ++
    leBytes 4 (min 0xFFFFFFFF d.qe.refused) ++ (List.finRange 16).flatMap (fun m => d.healthMech m)

/-- HEALTH_PAGE_UPDATE: the service firmware rewrites the page. -/
def healthUpdate (d : Dev) : Dev := if d.up ∧ d.arcServes then { d with health := d.healthPage } else d

/-! ### Get Log (R378) -/

/-- A self-test result entry (R381). -/
def testBytes (r : TestResult) : List Byte :=
  leBytes 8 r.start ++ leBytes 8 r.stop ++ leBytes 1 r.kind ++ leBytes 1 r.result ++ leBytes 1 r.step ++ leBytes 1 r.mech ++
    leBytes 2 r.mask ++ leBytes 2 r.rung4 ++ leBytes 4 r.first ++ leBytes 4 0

/-- `n` positions of a ring from a sequence number on; a ring has 256. -/
def ringRead (size n first : Nat) (entries : List (Nat × List Byte)) : List Byte :=
  (List.range (min n 256)).flatMap (fun k => ringBytes size ((first + k) % 256) entries)

/-- GET_LOG. Where the page has no sequence numbers RESULT is a free value. -/
def getLog (d : Dev) (i : Nat) : Dev := d.admin i 2 fun s =>
  let first := cdw s 1
  let n := cdw s 2
  let short (size : Nat) : Bool := decide (dataLen s < n * size)
  match cdw s 0 % 256 with
  | 1 => if short 64 then d.finishSlot i 2
      else d.adminReply i s (ringRead 64 n first (d.elog.entries.map (fun e => (e.seq, ebytes e)))) d.elog.next
  | 2 => if short 32 then d.finishSlot i 2
      else d.adminReply i s (ringRead 32 n first (d.vlog.entries.map (fun e => (e.seq, vbytes e)))) d.vlog.next
  | 3 => d.useFree.adminReply i s ((d.health.drop first).take (dataLen s)) (d.freeVal % 2 ^ 32)
  | 4 => if short 32 then d.finishSlot i 2
      else d.useFree.adminReply i s (fitBytes (32 * min n 16) (d.fw.results.reverse.flatMap testBytes)) (d.freeVal % 2 ^ 32)
  | _ => d.finishSlot i 2

/-! ### Self-tests (R379–R381) -/

/-- SELF_TEST: it commits when the test starts. -/
def selfTest (d : Dev) (i : Nat) : Dev := d.admin i 3 fun s =>
  let kind := cdw s 0 % 16
  if kind = 15 then (d.endTest 2 0 0xFF 0 0).finishSlot i 0
  else if kind ≠ 1 ∧ kind ≠ 2 then d.finishSlot i 2
  else if d.fw.test.isSome then d.finishSlot i 0x22
  else
    let io := d.slots.any (fun t => !isAdmin t.2)
    let busy := (List.finRange 16).foldl (fun a m => if (d.mx m).mch.held.any (fun h => h.req.slot.isSome) then setb a m.val else a) 0
    (d.modFw fun x => { x with test := some ⟨kind, if kind = 2 then bits (cdw s 0) 16 16 else 0, d.now, busy, decide (kind = 1) && io⟩ }).finishSlot i 0

/-- SELFTEST_RESUME: the parts that no request or command holds go on. -/
def selftestResume (d : Dev) : Dev := match d.fw.test with
  | none => d
  | some t =>
    let idle (m : Mech) : Bool := !(d.mx m).mch.held.any (fun h => h.req.slot.isSome)
    let still := (List.finRange 16).foldl (fun a m => if tbit t.paused m.val ∧ ¬ idle m then setb a m.val else a) 0
    d.modFw fun x => { x with test := some { t with paused := still, marchPaused := t.marchPaused && d.slots.any (fun s => !isAdmin s.2) } }

/-- SELFTEST_END. -/
def selftestEnd (d : Dev) (fail : Bool) (step mech rung4 first : Nat) : Dev := d.endTest (b2n fail) step mech rung4 first

/-! ### Features (R384) -/

/-- The value of a feature. -/
def feature (d : Dev) (f : Nat) : Nat := match f with
  | 1 => d.get Reg.QE_FO_EN + 256 * d.get Reg.QE_FO_FOCQ_A + 65536 * d.get Reg.QE_FO_FOCQ_B + 2 ^ 24 * d.get Reg.QE_FO_EVT_ROUTE
  | 2 => Sparse.get 1000 d.feats 2
  | 3 => Sparse.get 112 d.feats 3
  | _ => Sparse.get 0 d.feats 4

/-- Whether a feature takes a value. -/
def featureOk (f v : Nat) : Bool := match f with
  | 1 => v % 2 ^ 32 == bits v 0 1 + 256 * bits v 8 7 + 65536 * bits v 16 7 + 2 ^ 24 * bits v 24 1
  | 2 => decide (10 ≤ v ∧ v ≤ 60000)
  | 3 => decide (20 ≤ v ∧ v ≤ 112)
  | _ => decide (v ≤ 1)

/-- Writes a feature. -/
def setFeatureValue (d : Dev) (f v : Nat) : Dev := match f with
  | 1 => d.setAll [(Reg.QE_FO_EN, bits v 0 1), (Reg.QE_FO_FOCQ_A, bits v 8 7), (Reg.QE_FO_FOCQ_B, bits v 16 7), (Reg.QE_FO_EVT_ROUTE, bits v 24 1),
      (Reg.QE_FO_EVT_ACTIVE, bits v 24 1)]
  | 2 => { d with feats := Sparse.put 1000 d.feats 2 v }
  | 3 => { d with feats := Sparse.put 112 d.feats 3 v }
  | _ => { d with feats := Sparse.put 0 d.feats 4 v }

/-- SET_FEATURE. -/
def setFeature (d : Dev) (i : Nat) : Dev := d.admin i 4 fun s =>
  let f := cdw s 0 % 256
  let v := cdw s 1
  if f = 0 ∨ 4 < f then d.finishSlot i 2
  else if tbit (cdw s 0) 31 then d.finishSlot i 0 (d.feature f)
  else if featureOk f v ∧ cdw s 2 = 0 then (d.setFeatureValue f v).finishSlot i 0
  else d.finishSlot i 2

/-! ### Volumes (R382, R383) -/

/-- Whether the fields of Create Volume are valid. -/
def volumeOk (d : Dev) (s : Slot) : Bool :=
  let mask := cdw s 1 % 65536
  let p := bits (cdw s 0) 8 5
  let q := bits (cdw s 0) 16 4
  let co := d.grec 0x70
  decide (1 ≤ volOf s ∧ volOf s ≤ d.volumes ∧ andNot mask d.presentMask = 0) &&
    (if cdw s 0 % 2 = 0 then popcount 16 mask == 1 else decide (2 ≤ popcount 16 mask ∧ 1 ≤ cdw s 1 / 65536 ∧ cdw s 1 / 65536 ≤ 1024)) &&
    (p == 0 || (codeP p && decide (co.f 0 0 5 ≤ p))) && (q == 0 || decide (co.f 0 8 4 ≤ q ∧ q ≤ 8))

/-- CREATE_VOLUME. -/
def createVolume (d : Dev) (i : Nat) : Dev := d.admin i 5 fun s =>
  if ¬ d.volumeOk s then d.finishSlot i 2
  else if (d.vol (volOf s)).isSome then d.finishSlot i 0x20
  else
    let kind := cdw s 0 % 2
    let mask := cdw s 1 % 65536
    let p := bits (cdw s 0) 8 5
    let q := bits (cdw s 0) 16 4
    let co := d.grec 0x70
    let named := cdw s 4 + 2 ^ 32 * cdw s 5
    let here := match (List.finRange 16).find? (fun (m : Mech) => tbit mask m.val) with
      | some m => match d.discIn m with
        | some x => x.ident
        | none => 0
      | none => 0
    let v : Vol :=
      { kind := kind, mechMask := mask, stripe := cdw s 1 / 65536, capacity := cdw s 2 + 2 ^ 32 * cdw s 3, p := if p = 0 then co.f 0 0 5 else p,
        q := if q = 0 then co.f 0 8 4 else q, disc := if kind = 1 then 0 else if named = 0 then here else named, lastMech := 15, unitLeft := 0,
        skipped := 0, starved := false }
    (d.modArc fun a => { a with vols := Sparse.insert a.vols (volOf s) v }).finishSlot i 0

/-- Whether a command other than slot `i`'s names a volume. -/
def volumeUsed (d : Dev) (i v : Nat) : Bool :=
  d.slots.any (fun t => decide (t.1 ≠ i) && !(volUse t.2 == .none) && decide (d.cmdVol t.2 = v)) ||
    d.bufx.blocks.any (fun b => decide (b.2.key.vol = v) && unreleased b.2)

/-- DELETE_VOLUME: media, catalogue and the record of what lies where stay. -/
def deleteVolume (d : Dev) (i : Nat) : Dev := d.admin i 6 fun s =>
  if (d.vol (volOf s)).isNone then d.finishSlot i 3
  else if d.volumeUsed i (volOf s) then d.finishSlot i 0x21
  else (d.modArc fun a => { a with vols := Sparse.erase a.vols (volOf s) }).finishSlot i 0

/-! ### Attestation (R479–R481) -/

/-- A measurement entry (R480). -/
def measure (ty idx version digest : Nat) : List Byte :=
  leBytes 1 ty ++ leBytes 1 idx ++ leBytes 2 0 ++ leBytes 4 version ++ leBytes 8 0 ++ leBytes 64 digest

/-- The digest of a bank: header and words as loaded, with the ECC byte as 0. -/
def bankDigest (b : Bank) : Nat :=
  (Crypto.shake256 (Ucode.header b.version b.rollback b.words.length b.mechMask ++ b.words.flatMap (fun w => leBytes 16 (w.toNat % 2 ^ 120)))).toNat

/-- The banks of every mechanism present, active or inactive. -/
def measureBanks (d : Dev) (staged : Bool) : List (List Byte) :=
  (List.finRange 16).filterMap (fun m =>
    let a := d.get (Reg.FSQ_UCODE_STAT_ACTIVE m) % 2
    let b := (d.mx m).fsq.banks.toList.getD (if staged then 1 - a else a) Bank.reset
    if d.present m ∧ b.loaded then some (measure (if staged then 4 else 3) m.val b.version (bankDigest b)) else none)

/-- The measurements in force, in order. -/
def measurements (d : Dev) : List (List Byte) :=
  (match d.sec.boot with
    | some (n, i) => [measure 1 n i.rollback i.digest.toNat]
    | none => []) ++
  (match d.sec.svc with
    | some i => [measure 2 0 i.rollback i.digest.toNat]
    | none => []) ++ d.measureBanks false ++ d.measureBanks true ++
  d.sec.applied.filterMap (fun k => (d.sec.containers.find? (fun c => decide (c.1 = k))).map (fun c => measure 5 k 0 c.2.1.toNat)) ++
  (if d.img.globals = [] then [] else [measure 6 0xFF d.img.serial d.img.digest]) ++
  (List.finRange 16).filterMap (fun m => match d.img.sections[m.val] with
    | some x => if x.partialLoad then some (measure 7 m.val x.serial x.digest) else none
    | none => none) ++
  (match d.ownerHash with
    | some h => [measure 8 (d.sec.owners.length - 1) 0 h.toNat]
    | none => [])

/-- The report without its signature. -/
def reportBody (d : Dev) (s : Slot) (ms : List (List Byte)) : List Byte :=
  let flags := d.get Reg.SEC_STAT_ID_BAD + 2 * b2n Config.endorsement.isNone + 4 * b2n d.ownerHash.isSome + 8 * b2n Config.legacyDis +
    16 * b2n d.sec.gk0Revoked + 32 * d.get Reg.SEC_STAT_ARB_FAIL
  ([0x4B, 0x56, 0x41, 0x54] : List Byte) ++ leBytes 2 1 ++ leBytes 2 ms.length ++ leBytes 4 (80 + 80 * ms.length + 4376) ++ leBytes 4 0 ++ (s.entry.drop 32).take 32 ++
    leBytes 8 d.now ++ leBytes 8 serialNo ++ leBytes 2 0x1616 ++ leBytes 1 0xB0 ++ leBytes 1 flags ++ leBytes 1 d.sec.arb[0] ++ leBytes 1 d.sec.arb[1] ++
    leBytes 1 d.sec.arb[2] ++ leBytes 1 (if d.ownerHash.isSome then d.sec.owners.length - 1 else 0xFF) ++ leBytes 8 0 ++ ms.flatten ++
    fitBytes 1793 Config.idPublic ++ leBytes 7 0 ++ fitBytes 1296 (Config.endorsement.getD [])

/-- ATTESTATION: one at a time, in order of arrival; `sig` is the identity key's signature. -/
def attest (d : Dev) (i : Nat) (sig : List Byte) : Dev := d.admin i 10 fun s =>
  if d.slots.any (fun t => decide (t.2.order < s.order ∧ t.2.phase = .fetched ∧ opcode t.2 = 10) && isAdmin t.2) then d
  else
    let ms := d.measurements
    let n := 80 + 80 * ms.length + 4376
    if dataLen s < n then d.finishSlot i 2
    else d.adminReply i s (d.reportBody s ms ++ (if d.on Reg.SEC_STAT_ID_BAD then List.replicate 1280 0 else fitBytes 1280 sig)) n

end Dev

/-! ### Meanings -/

/-- IDENTIFY (R385). -/
def execIdentify (slot : Nat) (s : State) : Host.Outcome State Fault Refusal := liftQueue s fun d _ => d.identify slot
/-- GET_LOG (R378). -/
def execGetLog (slot : Nat) (s : State) : Host.Outcome State Fault Refusal := liftQueue s fun d _ => d.getLog slot
/-- SELF_TEST (R379). -/
def execSelfTest (slot : Nat) (s : State) : Host.Outcome State Fault Refusal := liftQueue s fun d _ => d.selfTest slot
/-- SELFTEST_RESUME (R380). -/
def execSelftestResume (s : State) : Host.Outcome State Fault Refusal := liftDev (fun d => if d.up then d.selftestResume else d) s
/-- SELFTEST_END (R381). -/
def execSelftestEnd (fail : Bool) (step mech : Byte) (rung4 : BitVec 16) (firstPba : Word) (s : State) : Host.Outcome State Fault Refusal :=
  liftDev (fun d => if d.up then d.selftestEnd fail step.toNat mech.toNat rung4.toNat firstPba.toNat else d) s
/-- SET_FEATURE (R384). -/
def execSetFeature (slot : Nat) (s : State) : Host.Outcome State Fault Refusal := liftQueue s fun d _ => d.setFeature slot
/-- CREATE_VOLUME (R382). -/
def execCreateVolume (slot : Nat) (s : State) : Host.Outcome State Fault Refusal := liftQueue s fun d _ => d.createVolume slot
/-- DELETE_VOLUME (R383). -/
def execDeleteVolume (slot : Nat) (s : State) : Host.Outcome State Fault Refusal := liftQueue s fun d _ => d.deleteVolume slot
/-- ATTESTATION (R479–R481). -/
def execAttestation (slot : Nat) (sig : List Byte) (s : State) : Host.Outcome State Fault Refusal := liftQueue s fun d _ => d.attest slot sig
/-- HEALTH_PAGE_UPDATE (R378). -/
def execHealthPageUpdate (s : State) : Host.Outcome State Fault Refusal := liftDev Dev.healthUpdate s
/-- POWER_ESTIMATE_UPDATE (R129): GCTL's estimate in mW. -/
def execPowerEstimateUpdate (p : Nat) (s : State) : Host.Outcome State Fault Refusal := liftDev (fun d => if d.up then { d with pest := p } else d) s

end Sys2Proof.Machine
end

