-- ==== Sys2Proof/Machine/Mech.lean ====
section
/-! DEFINITION. Mechanism control: the commands of MCH_CMD (R86–R91, R96, R103–R105), media requests (R92–R95), the events that
end or time out a state (R86, R87, R94–R99) and fault escalation (R102). -/
namespace Sys2Proof.Machine
namespace Dev

/-! ### Commands -/

/-- The OP codes of R89. -/
def knownOp (op : Nat) : Bool := decide (1 ≤ op ∧ op ≤ 14)

/-- A command in a state that does not accept it (R90, R91). -/
def cmdConflict (d : Dev) (m : Mech) (op : Nat) (arc : Bool) : Dev :=
  let st := d.get (Reg.MCH_STATE_STATE m)
  let au := d.get (Reg.MCH_STATE_AUTO_ACTIVE m)
  let d := d.setAll [(Reg.MCH_CMDSTAT_RESULT m, 3), (Reg.MCH_CMDSTAT_OP m, op), (Reg.MCH_CMDSTAT_SNAP_STATE m, st),
    (Reg.MCH_CMDSTAT_SNAP_AUTO m, au), (Reg.MCH_CMDSTAT_SOURCE m, b2n arc)]
  let d := d.elogAdd (0x40 + m.val) 0x0A 0x0A06 [(16, 1, op), (17, 1, st), (18, 1, au), (19, 1, b2n arc)]
  d.mchEvent m Reg.MCH_EVENT_CONFLICT

/-- A command that completes at once with BAD_ARG. -/
def cmdBadArg (d : Dev) (m : Mech) (op : Nat) (arc : Bool) : Dev :=
  d.setAll [(Reg.MCH_CMDSTAT_RESULT m, 4), (Reg.MCH_CMDSTAT_OP m, op), (Reg.MCH_CMDSTAT_SOURCE m, b2n arc)]

/-- A write to MCH_CMD while a command is in progress that is not taken (R88). -/
def cmdBusyReject (d : Dev) (m : Mech) : Dev := (d.set (Reg.MCH_CMDSTAT_REJ_BUSY m) 1).vlogAdd 0x14 0x0400 0

/-- MCH at rest (R86). -/
def atRest (d : Dev) (m : Mech) : Bool := d.on (Reg.MCH_STATE_AT_REST m)

/-- FAULT at rest. -/
def faultRest (d : Dev) (m : Mech) : Bool := d.mstate m == .fault && d.atRest m

/-- The states that accept a command (R89). -/
def accepts (d : Dev) (m : Mech) (op : Nat) : Bool :=
  let st := d.mstate m
  match op with
  | 1 => st == .off
  | 2 => st == .parked || d.faultRest m
  | 3 => (st == .parked && d.on (Reg.MCH_STATE_DISC m)) || st == .spinningDown
  | 4 => st == .spun
  | 5 => st == .focused && d.on (Reg.MCH_STATE_CAL_VALID m)
  | 6 => st == .tracking || st == .seeking
  | 7 => st == .spinningUp || d.running m
  | 8 => st == .parked || st == .spinningUp || st == .spinningDown || d.running m
  | 9 => st == .exchange
  | 10 => d.faultRest m
  | 11 => st != .off || d.cmdBusy m
  | 12 => st != .off
  | 13 => st == .parked || st == .exchange || d.faultRest m
  | 14 => d.running m
  | _ => false

/-- A target speed: 0, or from 1,000 rpm to MAX_RPM (R89). -/
def rpmOk (d : Dev) (m : Mech) (arg : BitVec 24) : Bool :=
  let r := bits arg.toNat 0 16
  r == 0 || decide (1000 ≤ r ∧ r ≤ d.get (Reg.SPN_LIM0_MAX_RPM m))

/-- Beam named by ARG. -/
def argBeam (arg : BitVec 24) : Beam := ⟨bits arg.toNat 0 4 % 16, Nat.mod_lt _ (by decide)⟩

/-- Whether ARG is in range (R89, R105). -/
def argOk (d : Dev) (m : Mech) (op : Nat) (arg : BitVec 24) : Bool := match op with
  | 3 | 14 => d.rpmOk m arg
  | 6 => decide (bits arg.toNat 0 14 ≤ 6874)
  | 12 => d.bit (Reg.MCH_BEAM_ENABLE m) (argBeam arg).val && !d.bit (Reg.MCH_BEAM_RETIRED m) (argBeam arg).val
  | 13 => d.bit (Reg.MCH_BEAM_ENABLE m) (argBeam arg).val && d.bit (Reg.MCH_BEAM_RETIRED m) (argBeam arg).val
  | _ => true

/-- A command of R89 at MCH: busy rule, state, automatic sequencing, ARG, then its effect `act`, which runs with the command in
progress (R88–R91). -/
def command (d : Dev) (m : Mech) (op : Nat) (arg : BitVec 24) (arc : Bool) (act : Dev → Dev) : Dev :=
  if d.cmdBusy m ∧ op ≠ 11 ∧ ¬ (op = 2 ∧ d.accepts m 2) then d.cmdBusyReject m
  else if ¬ d.accepts m op then d.cmdConflict m op arc
  else if d.on (Reg.MCH_STATE_AUTO_ACTIVE m) ∧ op ≠ 7 ∧ op ≠ 8 ∧ op ≠ 11 then d.cmdConflict m op arc
  else if ¬ d.argOk m op arg then d.cmdBadArg m op arc
  else act ((d.cancelCmd m op).setAll [(Reg.MCH_CMDSTAT_RESULT m, 1), (Reg.MCH_CMDSTAT_OP m, op), (Reg.MCH_CMDSTAT_SOURCE m, b2n arc)])

/-- A command as it arrives: none before step 9; a host write to a partition IN_RESET is discarded and logged (R486). -/
def mchWrite (d : Dev) (m : Mech) (arc : Bool) (act : Dev → Dev) : Dev :=
  if ¬ d.up then d
  else if d.mechInReset m then
    if arc then d else d.vlogAdd 0x14 0x0E02 0 [(0, 4, 0x800004 + 0x100000 * m.val), (4, 1, m.val), (5, 1, 1)]
  else (act d).settle m

def doOff (d : Dev) (m : Mech) : Dev := (d.enterOff m).endCmd m 2

/-- SPIN_UP: the target becomes the profile source (R89, R130). It is taken in no state that holds the recording class. -/
def doSpinUp (d : Dev) (m : Mech) (arg : BitVec 24) : Dev :=
  (d.modSpn m fun x => { x with profile := bits arg.toNat 0 16 }).spinUp m

/-- FOCUS: layer 0 (R144); an acquisition in progress is joined. -/
def doFocus (d : Dev) (m : Mech) : Dev := if (d.mx m).opt.focus = .none then d.startFocus m 0 else d

/-- SEEK: a new seek, or a new target for the one in progress (R152, R154). -/
def doSeek (d : Dev) (m : Mech) (arg : BitVec 24) : Dev :=
  let swath := bits arg.toNat 0 14
  let l := bits arg.toNat 16 2
  if d.layerAbsent m l then d.endCmd m 5
  else if d.mstate m = .tracking then d.startSeek m swath l
  else
    let d := d.setAll [(Reg.SRV_SEEK_STAT_TARGET m, swath), (Reg.SRV_SEEK_STAT_TLAYER m, l)]
    let x := (d.mx m).opt
    match x.seek with
    | .sledMove => d.sldMove m (d.sledTarget m swath) true
    | .jump => if x.jump = .none ∧ (d.layer m).val = l then d.seekMove m else d
    | .none => d.startSeek m swath l
    | _ => d

/-- PARK (R89). -/
def doPark (d : Dev) (m : Mech) : Dev := ((d.set (Reg.MCH_CTL_AUTO m) 0).endAuto m).parkFor m .park

/-- EXCHANGE (R96 steps 1 and 2). Written directly by the host, it bypasses the Archive Service, which closes the disc's groups
without parity (R410). -/
def doExchange (d : Dev) (m : Mech) (arc : Bool) : Dev :=
  let auto := d.on (Reg.MCH_CTL_AUTO m)
  let d := (d.set (Reg.MCH_CTL_AUTO m) 0).endAuto m
  let d := d.modMch m fun x => { x with savedAuto := some auto, exchFault := false, exchEnding := false }
  let d := if arc then d else d.closeGroups m true
  match d.mstate m with
  | .parked => d.enterExchange m
  | .spinningDown => d.modMch m fun x => { x with goal := .exchange }
  | _ => d.parkFor m .exchange

/-- Whether MOTm_DISC_N has been stable for 200 ms (R96). -/
def discStable (d : Dev) (m : Mech) : Bool := decide (d.ox.discEdge[m.val] + 200000000 ≤ d.ox.tox)

/-- EXCHANGE_END (R96 step 6). -/
def doExchangeEnd (d : Dev) (m : Mech) : Dev :=
  let d := d.modMch m fun x => { x with exchEnding := true }
  if d.discStable m then d.xpermit m false else d

/-- CLEAR_FAULT (R89). -/
def doClearFault (d : Dev) (m : Mech) : Dev :=
  let d := (d.set (Reg.MCH_FAULT_FIRST_CODE m) 0).set (Reg.MCH_FAULT_FIRST_STATE m) 0
  (d.enterParked m).endCmd m 2

/-- SAFE (R86, R89): SAFE_CMD is recorded, AUTO clears. -/
def doSafe (d : Dev) (m : Mech) : Dev :=
  let d := (d.set (Reg.MCH_CTL_AUTO m) 0).noteFault m 19
  (if d.mstate m = .safe then d else d.enterSafe m).endCmd m 2

/-- RETIRE_BEAM (R103, R105): carried out and done before a BEAMS_LOW that it raises. -/
def doRetire (d : Dev) (m : Mech) (b : Beam) : Dev := (d.endCmd m 2).retire m b.val

/-- RESTORE_BEAM (R104): the beam is not used until the next full calibration has completed. -/
def doRestore (d : Dev) (m : Mech) (b : Beam) : Dev :=
  let d := d.setBit (Reg.MCH_BEAM_RETIRED m) b.val false
  let d := (d.modMch m fun x => { x with restored := setb x.restored b.val }).dropCal m
  d.endCmd m 2

/-- SET_SPEED (R89, R130); a target far from the present speed hands back (R183 cause 4). -/
def doSpeed (d : Dev) (m : Mech) (arg : BitVec 24) : Dev :=
  ((d.modSpn m fun x => { x with profile := bits arg.toNat 0 16 }).handbackCause m 4).endCmd m 2

/-- The effect of an accepted command. -/
def mchAct (d : Dev) (m : Mech) (op : Nat) (arg : BitVec 24) (arc : Bool) : Dev := match op with
  | 1 => d.startInit m arc
  | 2 => d.doOff m
  | 3 => d.doSpinUp m arg
  | 4 => d.doFocus m
  | 5 => d.startTrack m
  | 6 => d.doSeek m arg
  | 7 => d.doPark m
  | 8 => d.doExchange m arc
  | 9 => d.doExchangeEnd m
  | 10 => d.doClearFault m
  | 11 => d.doSafe m
  | 12 => d.doRetire m (argBeam arg)
  | 13 => d.doRestore m (argBeam arg)
  | _ => d.doSpeed m arg

/-- A command of R89, by its OP. -/
def mchOp (d : Dev) (m : Mech) (op : Nat) (arg : BitVec 24) (arc : Bool) : Dev :=
  d.mchWrite m arc fun d => d.command m op arg arc fun d => d.mchAct m op arg arc

/-- A write of an OP that is not listed (R89, R90). -/
def mchBadOp (d : Dev) (m : Mech) (op : Nat) (arc : Bool) : Dev :=
  d.mchWrite m arc fun d => if d.cmdBusy m then d.cmdBusyReject m else d.cmdBadArg m op arc

/-- A write of MCH_CMD (R88, R89). -/
def mchCmd (d : Dev) (m : Mech) (w : Nat) (arc : Bool) : Dev :=
  if knownOp (w % 256) then d.mchOp m (w % 256) (BitVec.ofNat 24 (w / 256)) arc else d.mchBadOp m (w % 256) arc

/-! ### Media requests -/

/-- Whether a request for `pba` names the slot of a command in progress. -/
def reqLive (d : Dev) (r : MediaReq) : Bool := match r.slot with
  | none => true
  | some i => match d.slot i with
    | some s => s.phase != .finished
    | none => false

/-- A media request arrives at mechanism `m` (R92, R94): held until the mechanism can serve it, or answered MECHANISM_FAULT. At a
partition IN_RESET it completes with PARTITION_RESET and is issued again at the new epoch (R24, R366); in PARKED it wakes the
mechanism's domains (R59). -/
def mediaReq (d : Dev) (m : Mech) (r : MediaReq) : Dev :=
  if ¬ d.up ∨ ¬ d.reqLive r then d
  else
    let st := d.mstate m
    if (st = .fault ∨ st = .safe) ∧ ¬ d.reloadHolds m ∧ ¬ d.mechInReset m then match r.slot with
      | some i => d.refuseSlot i 0x15 5
      | none => d
    else
      let now := d.now
      let (d, l) := if d.mechInReset m ∧ ¬ d.reloadHolds m then d.reissueMedia [⟨r, now, false⟩] else (d, [⟨r, now, false⟩])
      let d := (d.modMch m fun x => { x with held := x.held ++ l }).pauseTest m.val
      let d := if st = .parked ∧ ¬ d.mechInReset m then d.clkWake m else d
      let d := if r.kind = .read ∨ r.kind = .verify ∨ r.kind = .objectGet then
          d.queueItem m (d.itemOf m 2 (d.remap m r.pba.toNat) r.pba.toNat)
        else d
      if d.mechInReset m then d else d.settle m

/-- Causes of R94 that hold a request: AUTO at 0, a slice not loaded, a halted sequencer. -/
def heldByCause (d : Dev) (m : Mech) (h : HeldReq) : Bool :=
  !d.on (Reg.MCH_CTL_AUTO m) || !d.servable m h || d.on (Reg.FSQ_STAT_HALTED m)

/-- HOLD_S runs out for a request held at `m` (R94). -/
def holdTimeout (d : Dev) (m : Mech) (i : Nat) : Dev :=
  let mine (h : HeldReq) : Bool := decide (h.req.slot = some i) && d.heldByCause m h
  if (d.mx m).mch.held.any mine ∧ ¬ d.reloadHolds m then
    (d.refuseSlot i 0x14 4).modMch m fun x => { x with held := x.held.filter (fun h => !mine h) }
  else d

/-- The idle park (R95). -/
def idlePark (d : Dev) (m : Mech) : Dev :=
  if d.mstate m = .tracking ∧ (d.mx m).mch.held.all (fun h => !d.reqLive h.req) ∧ d.on (Reg.MCH_CFG_IDLE_S m) ∧ ¬ d.cmdBusy m then d.parkFor m .idle else d

/-! ### Ends of states -/

/-- Target speed reached (R86): a coast window opens at the entry to SPUN (R194). -/
def speedReached (d : Dev) (m : Mech) : Dev :=
  if d.mstate m = .spinningUp then
    let d := (d.setMstate m .spun).applyLoops m .spun
    let d := if d.spnClass m = 2 ∧ d.windowDue m then d.openWindow m .up else d
    if d.cmdOp m = 3 then d.endCmd m 2 else d
  else d

/-- SPINUP_TMO (R100). -/
def spinupTimeout (d : Dev) (m : Mech) : Dev := if d.mstate m = .spinningUp then d.raiseFault m 3 else d

/-- FOCUS_TMO (R145): the acquisition fails. -/
def focusTimeout (d : Dev) (m : Mech) : Dev := if (d.mx m).opt.focus ≠ .none then d.raiseFault m 1 else d

/-- Whether tracking is being closed from FOCUSED: a TRACK or a relock in any of its steps, a move to the swath after a failed address
check and the quick calibration before tracking locks among them (R87, R151, R165). -/
def locking (d : Dev) (m : Mech) : Bool :=
  d.mstate m == .focused && ((d.mx m).opt.seek != .none || ((d.mx m).mch.relock && (d.mx m).opt.cal == .quick))

/-- TRACK_TMO (R87). -/
def trackTimeout (d : Dev) (m : Mech) : Dev := if d.locking m then d.raiseFault m 2 else d

/-- SEEK_TMO (R152). -/
def seekTimeout (d : Dev) (m : Mech) : Dev := if d.mstate m = .seeking then d.raiseFault m 3 else d

/-- CAL_TMO (R164). -/
def calTimeout (d : Dev) (m : Mech) : Dev :=
  if (d.mx m).opt.cal ≠ .none ∧ (d.mx m).opt.cal ≠ .quick ∧ (d.mx m).opt.cal ≠ .warm then d.raiseFault m 3 else d

/-- INIT is done: PARKED (R89). Automatic sequencing that began it goes on from there (R92). -/
def initDone (d : Dev) (m : Mech) : Dev :=
  ((d.enterParked m).set (Reg.MCH_STATE_AUTO_ACTIVE m) (d.get (Reg.MCH_STATE_AUTO_ACTIVE m))).endCmd m 2

/-- The sled half of "at rest" (R215). -/
def atPark (d : Dev) (m : Mech) : Bool := d.on (Reg.SLD_STATE_AT_PARK m)

/-- The park sequence ends (R86). -/
def parkDone (d : Dev) (m : Mech) : Dev :=
  if (d.mx m).mch.goal = .exchange then d.enterExchange m
  else
    let op := d.cmdOp m
    let d := d.enterParked m
    if op = 7 then d.endCmd m 2 else d

/-- SAFE ends in FAULT (R86); a partial reload takes the mechanism before FAULT moves the sled (R50). -/
def safeToFault (d : Dev) (m : Mech) : Dev :=
  let d := (d.setMstate m .fault).applyLoops m .fault
  if d.reloadHolds m then d.reloadReset m else (d.spnEnter m 0).sldPark m

/-- The spin-down of an INIT is over: OFF, from which INIT homes the sled (R89). Automatic sequencing that began the INIT goes on
(R92). -/
def initSpunDown (d : Dev) (m : Mech) : Dev :=
  ((d.enterOff m).set (Reg.MCH_STATE_AUTO_ACTIVE m) (d.get (Reg.MCH_STATE_AUTO_ACTIVE m))).initHome m

/-- No rotation for REST_MS (R86, R89). -/
def restReached (d : Dev) (m : Mech) : Dev :=
  let i := (d.mx m).mch.init
  if d.on (Reg.OXA_MECH_MOTION m) then d
  else match d.mstate m with
    | .spinningDown => if i = .spinDown then d.initSpunDown m else if d.atPark m then d.parkDone m else d
    | .off => if i = .check then d.initHome m else if i = .homing ∧ d.atPark m then d.initDone m else d
    | .safe => d.safeToFault m
    | .fault => if d.atPark m then d.set (Reg.MCH_STATE_AT_REST m) 1 else d
    | .parked => d.set (Reg.MCH_STATE_AT_REST m) 1
    | _ => d

/-! ### Exchange -/

/-- The disc pin has been stable for 200 ms with EXCHANGE_END waiting: XPERMIT falls (R96 step 6). -/
def exchStable (d : Dev) (m : Mech) : Dev := if (d.mx m).mch.exchEnding then d.xpermit m false else d

/-- Step 4 of R96. -/
def discOutDone (d : Dev) (m : Mech) : Dev :=
  if d.mstate m = .exchange ∧ ¬ (d.mx m).mch.discLevel then
    (((d.set (Reg.MCH_STATE_DISC m) 0).mchEvent m Reg.MCH_EVENT_DISC_OUT).discGone m).exchStable m
  else d

/-- Step 5 of R96. -/
def discInDone (d : Dev) (m : Mech) : Dev :=
  if d.mstate m = .exchange ∧ (d.mx m).mch.discLevel then
    let d := (d.set (Reg.MCH_STATE_DISC m) 1).mchEvent m Reg.MCH_EVENT_DISC_IN
    (d.modArc fun a => { a with discInAt := a.discInAt.set m.val (some d.now) }).exchStable m
  else d

/-- Step 7 of R96, R99. -/
def exchangeComplete (d : Dev) (m : Mech) : Dev :=
  let x := (d.mx m).mch
  if d.mstate m = .exchange ∧ x.exchEnding ∧ ¬ (d.mx m).pins.xpermit then
    let d := match x.savedAuto with
      | some b => d.setB (Reg.MCH_CTL_AUTO m) b
      | none => d
    let d := d.modArc fun a => { a with exch := clrb a.exch m.val }
    let d := d.modMch m fun y => { y with savedAuto := none }
    if x.exchFault then (d.endCmd m 5).enterFault m else (d.enterParked m).endCmd m 2
  else d

/-- R97. -/
def exchangeTimeout (d : Dev) (m : Mech) : Dev :=
  if d.mstate m = .exchange ∧ ¬ (d.mx m).mch.exchEnding then
    (d.mchEvent m Reg.MCH_EVENT_XTIMEOUT).elogAdd (0x40 + m.val) 0x0A 0x0A07 [(16, 1, d.get (Reg.MCH_STATE_DISC m))]
  else d

/-- A change of MOTm_DISC_N outside EXCHANGE (R98, R319). -/
def discChange (d : Dev) (m : Mech) (present : Bool) : Dev :=
  let st := d.mstate m
  let d := d.modMch m fun x => { x with discLevel := present }
  if st = .exchange then d
  else
    let d := d.vlogAdd (0x20 + m.val) 0x0401 0 [(0, 1, st.code)]
    let d := if present then d else d.set (Reg.MCH_STATE_DISC m) 0
    let d := (d.discGone m)
    if st = .off ∨ st = .parked then d.dropCal m
    else if present then d
    else (d.dropCal m).raiseFault m 8

/-- Rotation shown in PARKED or EXCHANGE (R100); one that appears before the check of an INIT has ended is spun down first (R89). -/
def motionChange (d : Dev) (m : Mech) : Dev :=
  if d.mstate m = .parked ∨ d.mstate m = .exchange then d.raiseFault m 18
  else if d.mstate m = .off ∧ (d.mx m).mch.init = .check then d.initSpin m
  else d

/-- Escalation (R102): at rest, and not in an exchange (R99). Another reset of the partition before the INIT that R102 waits for ends
ESCALATED and the ignoring of AUTO_INIT, as a partition reset clears MCH state (R74; DEDUCED, log entry 185: R102 does not speak of it). -/
def escalation (d : Dev) (m : Mech) : Dev :=
  if (d.mx m).mch.escalate ∧ (d.atRest m ∨ d.mstate m = .off) ∧ d.mstate m ≠ .exchange then
    d.requestReset ⟨m.val, by omega⟩ .escalation
  else d

end Dev

/-! ### Meanings -/

/-- INIT (R89). -/
def execMchInit (m : Mech) (arg : BitVec 24) (arc : Bool) (s : State) : Host.Outcome State Fault Refusal := liftDev (fun d => d.mchOp m 1 arg arc) s
/-- OFF (R89). -/
def execMchOff (m : Mech) (arg : BitVec 24) (arc : Bool) (s : State) : Host.Outcome State Fault Refusal := liftDev (fun d => d.mchOp m 2 arg arc) s
/-- SPIN_UP (R89). -/
def execSpinUp (m : Mech) (arg : BitVec 24) (arc : Bool) (s : State) : Host.Outcome State Fault Refusal := liftDev (fun d => d.mchOp m 3 arg arc) s
/-- FOCUS (R89). -/
def execFocus (m : Mech) (arg : BitVec 24) (arc : Bool) (s : State) : Host.Outcome State Fault Refusal := liftDev (fun d => d.mchOp m 4 arg arc) s
/-- TRACK (R89). -/
def execTrack (m : Mech) (arg : BitVec 24) (arc : Bool) (s : State) : Host.Outcome State Fault Refusal := liftDev (fun d => d.mchOp m 5 arg arc) s
/-- SEEK (R152). -/
def execSeek (m : Mech) (arg : BitVec 24) (arc : Bool) (s : State) : Host.Outcome State Fault Refusal := liftDev (fun d => d.mchOp m 6 arg arc) s
/-- PARK (R89). -/
def execPark (m : Mech) (arg : BitVec 24) (arc : Bool) (s : State) : Host.Outcome State Fault Refusal := liftDev (fun d => d.mchOp m 7 arg arc) s
/-- EXCHANGE (R96). -/
def execExchange (m : Mech) (arg : BitVec 24) (arc : Bool) (s : State) : Host.Outcome State Fault Refusal := liftDev (fun d => d.mchOp m 8 arg arc) s
/-- EXCHANGE_END (R96). -/
def execExchangeEnd (m : Mech) (arg : BitVec 24) (arc : Bool) (s : State) : Host.Outcome State Fault Refusal := liftDev (fun d => d.mchOp m 9 arg arc) s
/-- CLEAR_FAULT (R89). -/
def execClearFault (m : Mech) (arg : BitVec 24) (arc : Bool) (s : State) : Host.Outcome State Fault Refusal := liftDev (fun d => d.mchOp m 10 arg arc) s
/-- SAFE (R89). -/
def execSafe (m : Mech) (arg : BitVec 24) (arc : Bool) (s : State) : Host.Outcome State Fault Refusal := liftDev (fun d => d.mchOp m 11 arg arc) s
/-- RETIRE_BEAM (R103). -/
def execRetireBeam (m : Mech) (arg : BitVec 24) (arc : Bool) (s : State) : Host.Outcome State Fault Refusal := liftDev (fun d => d.mchOp m 12 arg arc) s
/-- RESTORE_BEAM (R104). -/
def execRestoreBeam (m : Mech) (arg : BitVec 24) (arc : Bool) (s : State) : Host.Outcome State Fault Refusal := liftDev (fun d => d.mchOp m 13 arg arc) s
/-- SET_SPEED (R89). -/
def execSetSpeed (m : Mech) (arg : BitVec 24) (arc : Bool) (s : State) : Host.Outcome State Fault Refusal := liftDev (fun d => d.mchOp m 14 arg arc) s
/-- MCH_UNKNOWN_OP (R90): an OP of R89 is not this event. -/
def execMchUnknownOp (m : Mech) (op : Byte) (arc : Bool) (s : State) : Host.Outcome State Fault Refusal :=
  liftDev (fun d => if Dev.knownOp op.toNat then d else d.mchBadOp m op.toNat arc) s
/-- MEDIA_REQUEST (R92). -/
def execMediaRequest (m : Mech) (r : MediaReq) (s : State) : Host.Outcome State Fault Refusal := liftDev (fun d => d.mediaReq m r) s
/-- SPEED_REACHED (R86). -/
def execSpeedReached (m : Mech) (s : State) : Host.Outcome State Fault Refusal := liftMech m (fun d => d.speedReached m) s
/-- SPINUP_TIMEOUT (R100). -/
def execSpinupTimeout (m : Mech) (s : State) : Host.Outcome State Fault Refusal := liftMech m (fun d => d.spinupTimeout m) s
/-- FOCUS_TIMEOUT (R145). -/
def execFocusTimeout (m : Mech) (s : State) : Host.Outcome State Fault Refusal := liftMech m (fun d => d.focusTimeout m) s
/-- TRACK_TIMEOUT (R87). -/
def execTrackTimeout (m : Mech) (s : State) : Host.Outcome State Fault Refusal := liftMech m (fun d => d.trackTimeout m) s
/-- SEEK_TIMEOUT (R152). -/
def execSeekTimeout (m : Mech) (s : State) : Host.Outcome State Fault Refusal := liftMech m (fun d => d.seekTimeout m) s
/-- CAL_TIMEOUT (R164). -/
def execCalTimeout (m : Mech) (s : State) : Host.Outcome State Fault Refusal := liftMech m (fun d => d.calTimeout m) s
/-- HOLD_TIMEOUT (R94). -/
def execHoldTimeout (m : Mech) (slot : Nat) (s : State) : Host.Outcome State Fault Refusal := liftMech m (fun d => d.holdTimeout m slot) s
/-- IDLE_PARK (R95). -/
def execIdlePark (m : Mech) (s : State) : Host.Outcome State Fault Refusal := liftMech m (fun d => d.idlePark m) s
/-- REST_REACHED (R86). -/
def execRestReached (m : Mech) (s : State) : Host.Outcome State Fault Refusal := liftMech m (fun d => d.restReached m) s
/-- DISC_OUT (R96). -/
def execDiscOut (m : Mech) (s : State) : Host.Outcome State Fault Refusal := liftMech m (fun d => d.discOutDone m) s
/-- DISC_IN (R96). -/
def execDiscIn (m : Mech) (s : State) : Host.Outcome State Fault Refusal := liftMech m (fun d => d.discInDone m) s
/-- EXCHANGE_COMPLETE (R96). -/
def execExchangeComplete (m : Mech) (s : State) : Host.Outcome State Fault Refusal := liftMech m (fun d => d.exchangeComplete m) s
/-- EXCHANGE_TIMEOUT (R97). -/
def execExchangeTimeout (m : Mech) (s : State) : Host.Outcome State Fault Refusal := liftMech m (fun d => d.exchangeTimeout m) s
/-- DISC_CHANGE (R98). -/
def execDiscChange (m : Mech) (present : Bool) (s : State) : Host.Outcome State Fault Refusal := liftMech m (fun d => d.discChange m present) s
/-- MOTION_CHANGE (R100). -/
def execMotionChange (m : Mech) (s : State) : Host.Outcome State Fault Refusal := liftMech m (fun d => d.motionChange m) s
/-- PSTAGE_FAULT_INPUT (R100). -/
def execPstageFaultInput (m : Mech) (s : State) : Host.Outcome State Fault Refusal := liftMech m (fun d => d.raiseFault m 17) s
/-- FAULT_ESCALATION (R102). -/
def execFaultEscalation (m : Mech) (s : State) : Host.Outcome State Fault Refusal := liftMech m (fun d => d.escalation m) s

end Sys2Proof.Machine
end

