-- ==== Sys2Proof/Machine/Archive.lean ====
section
/-! DEFINITION. The Archive Service (R390–R414): eligibility and joining, placement, groups, checkpoints, discs, exchanges and the
mailbox. -/
namespace Sys2Proof.Machine
namespace Dev

/-! ### Policy and geometry -/

/-- A field of the POLICY record (R390). -/
def policy (d : Dev) (w lo n : Nat) : Nat := (d.grec 0xA0).f w lo n

/-- The last swath of a layer that takes data (R400). -/
def dataEnd (d : Dev) (m : Mech) (q : Nat) : Nat := 6874 - d.get (Reg.GPE_GROUP_SPACING m) * q

/-- Data slots of a swath that are not reserve slots, for the settings of the disc in `m` (R256). -/
def placeable (d : Dev) (m : Mech) (p q swath : Nat) : Nat :=
  let ds := Codec.dataSlots (d.slotsIn m swath (max 1 (popcount 16 (d.beamsInUse m))) p) q
  ds - Codec.reserveSlots ds (d.get (Reg.GPE_CODE_RELOC_PCT m))

/-- The data slots of a disc of `layers` layers. -/
def discSlots (d : Dev) (m : Mech) (p q layers : Nat) : Nat :=
  let z := d.srec m 0x60
  let nz := z.f 0 0 5
  let stop := d.dataEnd m q + 1
  let perLayer := ((List.range nz).map (fun i =>
    let lo := max 208 (z.f (1 + 2 * i) 0 14)
    let hi := if i + 1 < nz then min stop (z.f (3 + 2 * i) 0 14) else stop
    (hi - lo) * d.placeable m p q lo)).foldl (· + ·) 0
  layers * perLayer

/-- p and q that the disc in `m` has, or takes from the block placed first (R399). -/
def discCode (x : Disc) (b : Blk) : Nat × Nat := if x.blank then (b.p, b.q) else (x.p, x.q)

/-- The first placeable slot of a swath from data slot `ds` on that nothing holds. -/
def slotFrom (d : Dev) (m : Mech) (p q layer swath ds : Nat) (used : List Nat) : Option Nat :=
  firstFrom (fun t => !used.contains (Codec.pba layer swath 0 t)) (d.placeable m p q swath - ds) ds

/-- The next placeable slot from a write cursor (R400): layers from the deepest to 0, swaths from 208 to the data end. -/
def nextSlot (d : Dev) (m : Mech) (p q : Nat) (used : List Nat) : (fuel layer swath ds : Nat) → Option (Nat × Nat × Nat)
  | 0, _, _, _ => none
  | n + 1, layer, swath, ds =>
    if d.dataEnd m q < swath then (if layer = 0 then none else nextSlot d m p q used n (layer - 1) 208 0)
    else match d.slotFrom m p q layer swath ds used with
      | some t => some (layer, swath, t)
      | none => nextSlot d m p q used n layer (swath + 1) 0

/-- The slot for the next data block of the disc in `m`. -/
def cursorSlot (d : Dev) (m : Mech) (x : Disc) (p q : Nat) : Option (Nat × Nat × Nat) := d.nextSlot m p q x.parityUsed 27504 x.layer x.swath x.dslot

/-! ### Catalogue area (R405) -/

/-- Slot `n` of the catalogue log: layer, swath of copy A and physical slot; `none` when the areas of every layer are exhausted. -/
def catSlot (d : Dev) (m : Mech) (p : Nat) : (fuel : Nat) → (layer swath n : Nat) → Option (Nat × Nat × Nat)
  | 0, _, _, _ => none
  | f + 1, layer, swath, n =>
    if 151 < swath then (if layer = 0 then none else catSlot d m p f (layer - 1) 128 n)
    else
      let k := d.slotsIn m swath (max 1 (popcount 16 (d.beamsInUse m))) p
      if n < k then some (layer, swath, n) else catSlot d m p f layer (swath + 1) (n - k)

/-- The next slot of the log of the disc in `m`. -/
def catNextSlot (d : Dev) (m : Mech) (x : Disc) : Option (Nat × Nat × Nat) := d.catSlot m (d.codeOf m).1 100 (x.layers - 1) 128 x.catNext

/-! ### Eligibility and joining (R396, R408) -/

/-- GAP in ms (R408): the fill time of a blank four-layer disc at 200 rev/s (R19), and EXCH_S, over N. -/
def gap (d : Dev) : Nat :=
  let n := popcount 16 ((d.grec 0x10).f 1 0 16)
  if n = 0 then 0 else (4 * 6667 * 5 + d.policy 1 8 8 * 1000) / n

/-- Whether the disc in `m` can take another data block. -/
def discRoom (d : Dev) (m : Mech) (x : Disc) : Bool :=
  let (p, q) := d.codeOf m
  !x.full && (d.cursorSlot m x p q).isSome

/-- R396 but for the volume's mask, the code settings and the join time. -/
def canPlace (d : Dev) (m : Mech) : Bool :=
  let st := d.mstate m
  d.on (Reg.MCH_CTL_AUTO m) && !(st == .off || st == .exchange || st == .fault || st == .safe) && d.on (Reg.DRT_STAT_LOADED m) &&
    !tbit d.arc.held m.val && !(match d.arc.ckpts[m.val] with
      | some c => c.thenExchange
      | none => false) && (match d.discIn m with
      | some x => d.discRoom m x
      | none => false)

/-- Whether the disc in `m` is blank. -/
def blankDisc (d : Dev) (m : Mech) : Bool := match d.discIn m with
  | some x => x.blank
  | none => false

/-- Mechanism `m` joins (R408). -/
def join (d : Dev) (m : Mech) (t : Nat) : Dev :=
  (d.modArc fun a => { a with joined := setb a.joined m.val }).arcEvent 9 (some m.val) [(0, 8, t)]

/-- Gives the members of the present run their join times, by rank (R408). -/
def rankRun (d : Dev) (first : Nat) (ms : List Mech) : Dev :=
  ms.zipIdx.foldl (fun d e =>
    let t := first + e.2 * d.gap * 1000000
    let d := d.modArc fun a => { a with joinAt := a.joinAt.set e.1.val (some t) }
    if t ≤ d.now then (if tbit d.arc.joined e.1.val then d else d.join e.1 t)
    else d.modArc fun a => { a with joined := clrb a.joined e.1.val }) d

/-- A mechanism with a blank disc has become eligible: it opens a run, or joins the one that began within GAP (R408). -/
def enterRun (d : Dev) (m : Mech) : Dev :=
  match d.arc.firstEligible with
  | some t =>
    if d.now < t + d.gap * 1000000 then
      d.rankRun t ((List.finRange 16).filter (fun k => decide (k = m) || ((d.arc.joinAt[k.val]).any (fun j => decide (t ≤ j)) && d.blankDisc k)))
    else (d.modArc fun a => { a with firstEligible := some d.now }).rankRun d.now [m]
  | none => (d.modArc fun a => { a with firstEligible := some d.now }).rankRun d.now [m]

/-- Follows one mechanism's eligibility. -/
def joinSync (d : Dev) (m : Mech) : Dev :=
  if ¬ d.canPlace m then d.modArc fun a => { a with joined := clrb a.joined m.val, joinAt := a.joinAt.set m.val none }
  else if tbit d.arc.joined m.val ∨ (d.arc.joinAt[m.val]).isSome then d
  else if d.blankDisc m ∧ d.policy 1 0 1 = 1 then d.enterRun m
  else (d.modArc fun a => { a with joinAt := a.joinAt.set m.val (some d.now) }).join m d.now

/-- Publishes ARC_MECHm (R414). -/
def arcMech (d : Dev) (m : Mech) : Dev :=
  let x := d.discIn m
  let place := match x with
    | none => 5
    | some x => if tbit d.arc.held m.val then 3 else if ¬ d.discRoom m x then 4 else if ¬ d.canPlace m then 0 else if tbit d.arc.joined m.val then 1 else 2
  let fill := match x with
    | some x => if d.discSlots m x.p x.q x.layers = 0 then 0 else min 100 (100 * x.placed / d.discSlots m x.p x.q x.layers)
    | none => 0
  let left := match d.arc.joinAt[m.val] with
    | some t => if tbit d.arc.joined m.val then 0 else (t - d.now + 999999999) / 1000000000
    | none => 0
  d.setAll [(Reg.ARC_MECH_PLACE m, place), (Reg.ARC_MECH_BLANK m, b2n (d.blankDisc m)), (Reg.ARC_MECH_FILL m, fill),
    (Reg.ARC_MECH_JOIN_S m, min 65535 left)]

/-- What follows every command of the Archive Service: eligibility, joining and ARC_MECH. -/
def arcSync (d : Dev) : Dev :=
  let d := if d.arcServes then (List.finRange 16).foldl (fun d m => d.joinSync m) d else d
  ((List.finRange 16).foldl (fun d m => d.arcMech m) d).set Reg.ARC_GAP_GAP d.gap

/-! ### Choice of a mechanism (R397) -/

/-- Predicted full time of the disc in `m`; `none` while it does not turn. -/
def fullTime (d : Dev) (m : Mech) : Option Nat := match d.discIn m with
  | none => none
  | some x =>
    let den := d.placeable m x.p x.q x.swath * (d.mx m).spn.speed.natAbs
    if x.blank ∨ den = 0 then none else some (d.now + (d.discSlots m x.p x.q x.layers - x.placed) * 120000000000 / den)

/-- Whether another writing mechanism is full before `m`, by less than GAP. -/
def tooClose (d : Dev) (m : Mech) : Bool := match d.fullTime m with
  | none => false
  | some t => (List.finRange 16).any (fun k => k != m && d.canPlace k && (match d.fullTime k with
      | some u => decide (u < t ∧ t < u + d.gap * 1000000)
      | none => false))

/-- The mechanisms in turn after `last`. -/
def inTurn (last : Nat) : List Mech :=
  (List.finRange 16).filter (fun m => decide (last < m.val)) ++ (List.finRange 16).filter (fun m => decide (m.val ≤ last))

/-- Takes the next turn among the mechanisms in `l`: the mechanism, and the mask of those whose last turn was skipped. -/
def takeTurn (d : Dev) (ok : Mech → Bool) : List Mech → (skipped : Nat) → Option Mech × Nat
  | [], s => (none, s)
  | m :: t, s =>
    if ¬ ok m then takeTurn d ok t s
    else if d.policy 1 0 1 = 1 ∧ d.tooClose m ∧ ¬ tbit s m.val then takeTurn d ok t (setb s m.val)
    else (some m, clrb s m.val)

/-- Whether a mechanism may take a block of a stripe set (R396). -/
def eligible (d : Dev) (v : Vol) (b : Blk) (m : Mech) : Bool :=
  tbit v.mechMask m.val && d.canPlace m && tbit d.arc.joined m.val && (match d.discIn m with
    | some x => x.blank || (decide (x.p = b.p) && decide (x.q = b.q))
    | none => false)

/-- Whether a region volume's mechanism may take a block (R382, R398, R399). -/
def regionOk (d : Dev) (v : Vol) (m : Mech) : Bool := d.canPlace m && (match d.discIn m with
  | some x => decide (x.ident = v.disc)
  | none => false)

/-- Whether a slot keeps R275 for member `k` of a group: SPACING swaths from every other member. -/
def spaced (d : Dev) (m : Mech) (g : Group) (k swath : Nat) : Bool :=
  let sp := d.get (Reg.GPE_GROUP_SPACING m)
  let far (a : Nat) : Bool := decide (pbaSwath a + sp ≤ swath ∨ swath + sp ≤ pbaSwath a)
  g.members.all (fun e => decide (e.1 = k) || far e.2) && g.parityPba.all far

/-- Whether a block handed back keeps its group at the next slot of its mechanism (R403). -/
def keeps (d : Dev) (m : Mech) (b : Blk) : Bool :=
  match d.discIn m, d.arc.groups.find? (fun g => decide (g.ident = b.group)) with
  | some x, some g => (!g.closed || tbit g.written b.member) && decide (g.disc = x.ident) && (match d.cursorSlot m x x.p x.q with
      | some (l, s, _) => decide (l = g.layer) && d.spaced m g b.member s
      | none => false)
  | _, _ => false

/-- The mechanism for a block, and the volume's turn after it. -/
def chooseMech (d : Dev) (v : Vol) (b : Blk) : Option (Mech × Vol) :=
  let old := (List.finRange 16).find? (fun m => decide (b.mech = some m.val))
  if v.kind = 0 then ((List.finRange 16).find? (d.regionOk v)).map (fun m => (m, v))
  else match old with
    | some o =>
      let elig (m : Mech) : Bool := d.eligible v b m
      if elig o ∧ d.keeps o b then some (o, v)
      else match (inTurn o.val).find? (fun m => elig m) with
        | some m => some (m, v)
        | none => none
    | none =>
      let go := (List.finRange 16).find? (fun m => decide (m.val = v.lastMech ∧ 0 < v.unitLeft) && d.eligible v b m)
      match go with
      | some m => some (m, { v with unitLeft := v.unitLeft - 1 })
      | none =>
        let turns := inTurn v.lastMech
        match d.takeTurn (d.eligible v b) (turns ++ turns) v.skipped with
        | (some m, s) => some (m, { v with lastMech := m.val, unitLeft := v.stripe - 1, skipped := s })
        | (none, _) => none

/-! ### Placement (R399–R403) -/

/-- The count that a group opened at swath `s`, data slot `t` plans for (R401). -/
def planCount (d : Dev) (m : Mech) (x : Disc) (layer s t : Nat) : Nat :=
  let sp := max 1 (d.get (Reg.GPE_GROUP_SPACING m))
  min 32 ((List.range ((d.dataEnd m x.q - s) / sp + 1)).filter (fun k =>
    decide (t < d.placeable m x.p x.q (s + k * sp)) && !x.parityUsed.contains (Codec.pba layer (s + k * sp) 0 t))).length

/-- The disc takes p, q and its DISC_ID from its first data block (R273, R399, R405). -/
def fixDisc (d : Dev) (m : Mech) (x : Disc) (b : Blk) : Dev :=
  let writer := leBytes 4 Config.idHash.toNat
  let new := (Crypto.shake256 (writer ++ leBytes 8 d.now ++ leBytes 1 m.val)).toNat % 2 ^ 64
  let d := d.modArc fun a =>
    { a with
      discs := a.discs.map (fun y => if y.ident = x.ident then { y with ident := new, p := b.p, q := b.q, blank := false } else y)
      vols := a.vols.map (fun v => if v.2.kind = 0 ∧ v.2.disc = x.ident then (v.1, { v.2 with disc := new }) else v)
      groups := a.groups.map (fun g => if g.disc = x.ident then { g with disc := new } else g)
      gander := a.gander.map (fun g => if g.disc = x.ident then { g with disc := new } else g)
      map := a.map.map (fun l => if l.disc = x.ident then { l with disc := new } else l) }
  if d.following m then d.setGeom m (d.mx m).opt.swath (d.get (Reg.WCH_MASK_MASK m)) else d

/-- The group and member index of a block placed at a slot: that of a block handed back that keeps its group, an open group of the
key, or a new one (R401, R403). -/
def joinGroup (d : Dev) (m : Mech) (x : Disc) (b : Blk) (keep : Bool) (layer s t pba : Nat) : Dev × Nat × Nat × Nat :=
  let sp := max 1 (d.get (Reg.GPE_GROUP_SPACING m))
  if keep then
    let d := d.modGroup b.group fun g => { g with members := g.members.map (fun e => if e.1 = b.member then (e.1, pba) else e) }
    (d, b.group, b.member, b.planned)
  else
    let d := if b.mech.isSome then d.modGroup b.group fun g => { g with missing := setb g.missing b.member } else d
    match d.arc.groups.find? (fun g => decide (g.disc = x.ident ∧ g.layer = layer ∧ g.res = s % sp ∧ g.dslot = t ∧ g.members.length < min 32 g.planned) && !g.closed) with
    | some g =>
      let k := g.members.length
      (d.modGroup g.ident fun y => { y with members := y.members ++ [(k, pba)] }, g.ident, k, g.planned)
    | none =>
      let gid := d.arc.nextGid
      let n := d.planCount m x layer s t
      let g : Group :=
        { ident := gid, disc := x.ident, mech := m.val, layer := layer, res := s % sp, dslot := t, q := x.q, planned := n, members := [(0, pba)],
          parityPba := [], written := 0, missing := 0, closed := false, opened := none, lastSwath := s, strm := b.strm,
          parity := List.replicate x.q (List.replicate blkBytes 0) }
      ((d.modArc fun a => { a with nextGid := gid + 1, groups := g :: a.groups }).gpeSync m, gid, 0, n)

/-- A stream whose last block has been handed to the FSQ no longer drains (R393). -/
def drainSync (d : Dev) (strm : Option Nat) : Dev := match strm with
  | none => d
  | some c =>
    if d.hasStaged c then d
    else (d.modArc fun a => { a with streams := a.streams.map (fun s => if s.1 = c then (c, { s.2 with draining := false }) else s) }).syncCtx

/-- Places block `i` on mechanism `m` at the next slot of its disc. -/
def placeOn (d : Dev) (i : Nat) (b : Blk) (m : Mech) (pool : Pool) : Dev :=
  match d.discIn m with
  | none => d
  | some x0 =>
    let keep := b.mech = some m.val ∧ d.keeps m b = true
    let d := if x0.blank then d.fixDisc m x0 b else d
    match d.discIn m with
    | none => d
    | some x => match d.cursorSlot m x x.p x.q with
      | none => d
      | some (layer, s, t) =>
        let pba := Codec.pba layer s 0 t
        let d := d.modDisc x.ident fun y => { y with layer := layer, swath := s, dslot := t + 1, placed := y.placed + 1 }
        let (d, gid, k, n) := d.joinGroup m x b (decide keep) layer s t pba
        let spill := pool = .spare ∧ b.pool = .staging
        let d := d.modBlk i fun y =>
          { y with
            pool := pool, phase := .placed, mech := some m.val, pba := pba, orig := if keep ∧ y.replaced then y.orig else pba, copies := 0, copyFlag := false,
            replaced := decide keep && y.replaced, group := gid, member := k, planned := n, reserved := [] }
        let d := if spill then d.bufEvent Reg.BUF_EVENT_RETAINED_SPILL else d
        let d := (d.queueItem m (d.itemOf m 1 pba i)).modMch m fun x => { x with held := x.held ++ [⟨⟨none, .write, BitVec.ofNat 32 pba⟩, d.now, false⟩] }
        let d := match b.mech with
          | some o => d.arcEvent 7 (some m.val) [(0, 4, 1), (4, 1, o), (5, 1, m.val)]
          | none => d
        (d.drainSync b.strm).settle m

/-- Whether block `b` is the next of its volume: blocks handed back first, then in the order of hand-off (R397, R403). -/
def isNext (d : Dev) (b : Blk) : Bool :=
  d.bufx.blocks.all (fun c => !(decide (c.2.phase = .staged ∧ c.2.key.vol = b.key.vol ∧ c.2.order < b.order)))

/-- BLOCK_PLACEMENT. -/
def place (d : Dev) (i : Nat) : Dev :=
  match d.blk i with
  | none => d
  | some b =>
    match d.vol b.key.vol, (if b.pool = .staging then d.retainPool else some b.pool) with
    | some v, some pool =>
      if b.phase ≠ .staged ∨ ¬ d.isNext b then d
      else match d.chooseMech v b with
        | some (m, v') =>
          let d := d.modArc fun a => { a with vols := Sparse.insert (Sparse.erase a.vols b.key.vol) b.key.vol { v' with starved := false } }
          d.placeOn i b m pool
        | none =>
          if v.starved then d
          else (d.modArc fun a => { a with vols := Sparse.insert (Sparse.erase a.vols b.key.vol) b.key.vol { v with starved := true } }).arcEvent 6 none
            [(0, 2, b.key.vol)]
    | _, _ => d

/-! ### Checkpoints (R405, R406) -/

/-- Queues one copy of a catalogue block. -/
def catCopy (d : Dev) (m : Mech) (layer swath slot q : Nat) : Dev :=
  let pba := Codec.pbaOfPhys layer swath q slot
  let i := d.bufx.nextBlk
  let b := { emptyBlk ⟨0, none, 0⟩ d.newAddr d.now with pool := .catalogue, phase := .placed, kind := 2, valid := 0xFFFF, mech := some m.val, pba := pba, orig := pba }
  let d := (d.addBlk b).queueItem m (d.itemOf m 8 pba i)
  d.modMch m fun x => { x with held := x.held ++ [⟨⟨none, .catalogue, BitVec.ofNat 32 pba⟩, d.now, false⟩] }

/-- Queues the next catalogue block, copy A and copy B, or copy B alone (R405). -/
def catWrite (d : Dev) (m : Mech) (x : Disc) (both : Bool) : Dev :=
  match d.catNextSlot m x with
  | none => d
  | some (layer, swath, slot) =>
    let q := (d.codeOf m).2
    let d := d.modDisc x.ident fun y => { y with catNext := y.catNext + 1 }
    let d := if both then d.catCopy m layer swath slot q else d
    d.catCopy m layer (swath + 24) slot q

/-- Starts a checkpoint, or joins the one in progress (R406). -/
def startCkpt (d : Dev) (m : Mech) (mbox exch : Bool) : Dev := match d.discIn m with
  | none => d
  | some x => match d.arc.ckpts[m.val] with
    | some c => d.modArc fun a => { a with ckpts := a.ckpts.set m.val (some { c with mbox := c.mbox || mbox, thenExchange := c.thenExchange || exch }) }
    | none =>
      let es := ((d.mx m).goat.drt.filter (fun e => !e.persisted)).map (fun e => (e.src, e.dst))
      let d := d.modArc fun a => { a with ckpts := a.ckpts.set m.val (some ⟨es, mbox, exch⟩) }
      (d.catWrite m x true).settle m

/-- Ends a mailbox command (R413). -/
def mboxDone (d : Dev) : Dev := d.set Reg.ARC_MBOX_STAT_RESULT 2

/-- The service issues EXCHANGE (R409, R410). -/
def issueExchange (d : Dev) (m : Mech) : Dev :=
  (d.modArc fun a => { a with exch := setb a.exch m.val, discInAt := a.discInAt.set m.val none }).mchOp m 8 0 true

/-- Drops what a checkpoint queued. -/
def dropCat (d : Dev) (m : Mech) : Dev :=
  let bs := (d.bufx.blocks.filter (fun b => decide (b.2.mech = some m.val ∧ b.2.kind = 2))).map Prod.fst
  let d := bs.foldl (fun d i => d.dropBlk i) d
  (d.modFsq m fun x => { x with items := x.items.filter (fun w => decide (w.entry ≠ 8)) }).modMch m fun x =>
    { x with held := x.held.filter (fun h => h.req.kind != .catalogue) }

/-- CHECKPOINT_WRITTEN: copy B has been classified; a FAILED copy is written again in the next free slot. -/
def ckptWritten (d : Dev) (m : Mech) (cls : Nat) : Dev := match d.arc.ckpts[m.val], d.discIn m with
  | some c, some x =>
    if cls = 2 then ((d.dropCat m).catWrite m x false).settle m
    else
      let d := (d.dropCat m).modArc fun a => { a with ckpts := a.ckpts.set m.val none }
      let d := (d.modGoat m fun g => { g with drt := g.drt.map (fun e => if c.entries.contains (e.src, e.dst) then { e with persisted := true } else e) }).drtSync m
      let d := d.modDisc x.ident fun y => { y with ckptSeq := y.ckptSeq + 1, ckptAt := d.now }
      let d := d.arcEvent 4 (some m.val) [(0, 8, x.ident % 2 ^ 64), (8, 4, x.ckptSeq + 1)]
      let d := if c.mbox then d.mboxDone else d
      if c.thenExchange then d.issueExchange m else d.settle m
  | _, _ => d

/-- CHECKPOINT_INTERVAL. -/
def ckptInterval (d : Dev) (m : Mech) : Dev := if (d.arc.ckpts[m.val]).isSome then d else d.startCkpt m false false

/-! ### Discs (R407, R409) -/

/-- The blocks, objects and groups that a catalogue lists (R405, R407). -/
def loadCatalogue (d : Dev) (m : Mech) (x : Disc) (r : DiscInfo) : Dev :=
  let vm := r.volmap.map (fun e => (⟨0, ⟨e.vol, none, e.index⟩, x.ident, e.pba.toNat, e.mask.toNat⟩ : Loc))
  let base := 2 ^ 32 + d.arc.nextGid * 65536
  let os := r.objects.zipIdx.map (fun e =>
    let o := e.1
    let h := base + e.2
    let locs := o.extents.zipIdx.map (fun y => (⟨0, ⟨o.vol, some h, y.2⟩, x.ident, y.1.pba.toNat, ((2 ^ y.1.sectors - 1) <<< y.1.first) % 65536⟩ : Loc))
    ((⟨o.vol, o.ident, o.version, o.size, o.isSealed, h, o.extents.zipIdx.map (fun y => (16 * y.2 + y.1.first, 4096 * y.1.sectors))⟩ : Obj), locs))
  let gs := r.groups.map (fun g =>
    ({ ident := g.ident, disc := x.ident, mech := m.val, layer := 0, res := 0, dslot := 0, q := g.parity.length, planned := g.members.length,
       members := g.members.map (fun e => (e.1, e.2.toNat)), parityPba := g.parity.map BitVec.toNat,
       written := g.members.foldl (fun a e => setb a e.1) 0, missing := g.missing, closed := true, opened := none, lastSwath := 0, strm := none, parity := [] } : Group))
  d.modArc fun a => { a with map := a.map ++ vm ++ os.flatMap Prod.snd, objs := a.objs ++ os.map Prod.fst, groups := a.groups ++ gs, nextGid := a.nextGid + 1 }

/-- Keeps the catalogues of the last 64 discs loaded (R411). -/
def trimDiscs (l : List Disc) : List Disc :=
  if l.length ≤ 64 then l
  else match l.reverse.find? (fun x => x.mech.isNone) with
    | some x => l.filter (fun y => decide (y.ident ≠ x.ident))
    | none => l

/-- The write cursor after `n` placed blocks. -/
def cursorAfter (d : Dev) (m : Mech) (p q : Nat) : (fuel : Nat) → (layer swath n : Nat) → Nat × Nat × Nat
  | 0, layer, swath, n => (layer, swath, n)
  | f + 1, layer, swath, n =>
    if d.dataEnd m q < swath then (if layer = 0 then (0, swath, 0) else cursorAfter d m p q f (layer - 1) 208 n)
    else
      let k := d.placeable m p q swath
      if n < k then (layer, swath, n) else cursorAfter d m p q f layer (swath + 1) (n - k)

/-- The record of a disc that the device has not held before. -/
def newDisc (d : Dev) (m : Mech) (r : DiscInfo) : Disc :=
  let c := d.cursorAfter m r.p r.q 27504 (r.layers - 1) 208 (if r.blank then 0 else r.placed)
  { ident := if r.blank then 2 ^ 64 + 16 * d.arc.nextGid + m.val else r.discId.toNat, p := if r.blank then d.get (Reg.GPE_CODE_P_DEFAULT m) else r.p,
    q := if r.blank then d.get (Reg.GPE_CODE_Q_DEFAULT m) else r.q, layers := r.layers, layer := c.1, swath := c.2.1, dslot := c.2.2,
    placed := if r.blank then 0 else r.placed, full := false, blank := r.blank, mech := some m.val, ckptSeq := if r.blank then 0 else r.ckptSeq, ckptAt := 0, catNext := 0,
    parityUsed := [], swaths := if r.blank then [] else r.swaths.map (fun e => ⟨e.1.val, e.2.1, e.2.2.1.toNat, e.2.2.2⟩) }

/-- DISC_LOAD (R407): the catalogue has been replayed or rebuilt. -/
def loadDisc (d : Dev) (m : Mech) (r : DiscInfo) : Dev :=
  if ¬ d.on (Reg.MCH_STATE_DISC m) ∨ (d.discIn m).isSome then d
  else
    let old := if r.blank then none else d.arc.discs.find? (fun x => decide (x.ident = r.discId.toNat ∧ x.mech = none))
    let x := match old with
      | some x => { x with mech := some m.val }
      | none => d.newDisc m r
    let d := d.modArc fun a => { a with discs := trimDiscs (x :: a.discs.filter (fun y => decide (y.ident ≠ x.ident))), nextGid := a.nextGid + 1 }
    let d := if old.isSome ∨ r.blank then d else d.loadCatalogue m x r
    let d := if old.isSome then d.modArc fun a => { a with groups := a.groups.map (fun g => if g.disc = x.ident then { g with mech := m.val } else g) } else d
    let d := ((d.modGoat m fun g => { g with drt := (if r.blank then [] else r.drt).map (fun e => { drtOf e with persisted := true }) }).drtSync m).set (Reg.DRT_STAT_LOADED m) 1
    let total := d.discSlots m x.p x.q x.layers
    let d := d.arcEvent 3 (some m.val) [(0, 8, x.ident % 2 ^ 64), (8, 1, b2n r.blank + 2 * b2n r.rebuilt), (9, 1, x.p), (10, 1, x.q),
      (11, 1, if total = 0 then 0 else min 100 (100 * x.placed / total))]
    let d := if r.rebuilt then d.arcEvent 10 (some m.val) [(0, 8, x.ident % 2 ^ 64), (8, 4, r.scanned)] else d
    d.settle m

/-- Whether the disc in `m` can take no more data, or no more catalogue (R400, R406). -/
def exhausted (d : Dev) (m : Mech) (x : Disc) : Bool := (d.cursorSlot m x x.p x.q).isNone || (d.catNextSlot m x).isNone

/-- DISC_FULL (R409). -/
def discFullEvent (d : Dev) (m : Mech) : Dev := match d.discIn m with
  | none => d
  | some x =>
    if x.full ∨ ¬ d.exhausted m x then d
    else
      let d := d.modDisc x.ident fun y => { y with full := true }
      let d := (d.arcEvent 1 (some m.val) [(0, 8, x.ident % 2 ^ 64), (8, 4, x.placed)]).closeGroups m
      d.startCkpt m false (d.policy 1 1 1 == 1)

/-- WITHDRAW_TIMEOUT (R409). -/
def withdraw (d : Dev) (m : Mech) : Dev :=
  if d.policy 1 2 1 = 1 ∧ tbit d.arc.exch m.val ∧ d.mstate m = .exchange ∧ (d.arc.discInAt[m.val]).isSome then
    (d.modArc fun a => { a with discInAt := a.discInAt.set m.val none }).mchOp m 9 0 true
  else d

/-! ### The mailbox (R413) -/

/-- A mailbox command: refused while another runs or the service does not, or in the wrong state; else carried out. -/
def mailbox (d : Dev) (op : Nat) (ok : Bool) (f : Dev → Dev) : Dev :=
  let refuse (code : Nat) : Dev := d.setAll [(Reg.ARC_MBOX_STAT_RESULT, 3), (Reg.ARC_MBOX_STAT_OP, op), (Reg.ARC_MBOX_STAT_CODE, code)]
  if ¬ d.arcServes ∨ d.arc.ckpts.toList.any (fun c => c.any (fun c => c.mbox)) then refuse 1
  else if ¬ ok then refuse 2
  else f (d.setAll [(Reg.ARC_MBOX_STAT_RESULT, 1), (Reg.ARC_MBOX_STAT_OP, op), (Reg.ARC_MBOX_STAT_CODE, 0)])

/-- Whether a mechanism holds a loaded disc. -/
def discLoaded (d : Dev) (m : Mech) : Bool := (d.discIn m).isSome && d.on (Reg.DRT_STAT_LOADED m)

/-- EXCH_DONE. -/
def mbExchDone (d : Dev) (m : Mech) : Dev :=
  d.mailbox 1 (tbit d.arc.exch m.val && d.mstate m == .exchange) fun d => (d.mchOp m 9 0 true).mboxDone
/-- CHECKPOINT. -/
def mbCheckpoint (d : Dev) (m : Mech) : Dev := d.mailbox 2 (d.discLoaded m) fun d => d.startCkpt m true false
/-- HOLD. -/
def mbHold (d : Dev) (m : Mech) : Dev :=
  d.mailbox 3 (d.present m) fun d => (d.modArc fun a => { a with held := setb a.held m.val }).mboxDone
/-- RELEASE. -/
def mbRelease (d : Dev) (m : Mech) : Dev :=
  d.mailbox 4 (tbit d.arc.held m.val) fun d => (d.modArc fun a => { a with held := clrb a.held m.val }).mboxDone
/-- EXCHANGE (R410). -/
def mbExchange (d : Dev) (m : Mech) : Dev :=
  d.mailbox 5 (d.discLoaded m && d.mstate m != .exchange) fun d => (d.closeGroups m).startCkpt m true true

/-- A write of ARC_MBOX_CMD: none before step 9; to a partition IN_RESET it is discarded and logged (R486). -/
def mboxWrite (d : Dev) (f : Dev → Dev) : Dev :=
  if ¬ d.up then d
  else if d.inReset 26 then d.vlogAdd 0x14 0x0E02 0 [(0, 4, 0x700008), (4, 1, 26), (5, 1, 1)]
  else (f d.wakeService).arcSync

/-- ARC_MBOX_CMD by its value; an OP that is not listed is refused. -/
def mboxCmd (d : Dev) (w : Nat) : Dev :=
  let m : Mech := ⟨bits w 8 4 % 16, Nat.mod_lt _ (by decide)⟩
  match w % 256 with
  | 1 => d.mbExchDone m
  | 2 => d.mbCheckpoint m
  | 3 => d.mbHold m
  | 4 => d.mbRelease m
  | 5 => d.mbExchange m
  | op => d.mailbox op false id

/-- MECHANISM_JOIN. -/
def joinTime (d : Dev) (m : Mech) : Dev := match d.arc.joinAt[m.val] with
  | some t => if tbit d.arc.joined m.val ∨ ¬ d.canPlace m then d else d.join m t
  | none => d

/-- Whether a writing mechanism has less than PREALLOC_MS of its drain placed ahead of its write cursor (R404): the time in which it
writes the blocks placed on it and not yet written, at its present speed and swath. -/
def leadShort (d : Dev) (m : Mech) : Bool := d.mstate m == .writing && (match d.discIn m with
  | none => false
  | some x =>
    let n := (d.bufx.blocks.filter (fun b => decide (b.2.mech = some m.val ∧ b.2.phase = .placed ∧ b.2.kind = 0))).length
    decide (n * 120000000000 < d.policy 2 16 16 * 1000000 * (d.placeable m x.p x.q x.swath * (d.mx m).spn.speed.natAbs)))

/-- The next staged block whose turn falls to a mechanism with too little placed ahead. -/
def leadBlk (d : Dev) : Option Nat := (d.bufx.blocks.find? (fun b => b.2.phase == .staged && d.isNext b.2 && (match d.vol b.2.key.vol with
  | some v => match d.chooseMech v b.2 with
    | some (m, _) => d.leadShort m
    | none => false
  | none => false))).map Prod.fst

/-- The service places staged blocks as long as a writing mechanism they fall to has too little placed ahead (R404). -/
def prealloc (d : Dev) : (fuel : Nat) → Dev
  | 0 => d
  | n + 1 => match d.leadBlk with
    | some i => prealloc (d.place i).arcSync n
    | none => d

/-- What follows the work of the service: blocks placed ahead, eligibility and the queues. -/
def arcUpkeep (d : Dev) : Dev := (d.prealloc d.bufx.blocks.length).arcSync.settleQueues

/-- Work of the service itself: only while it runs; it wakes the service processors (R59). -/
def onArc (d : Dev) (f : Dev → Dev) : Dev := if d.up ∧ d.arcServes then (f d.wakeService.arcSync).arcUpkeep else d

end Dev

/-! ### Meanings -/

/-- BLOCK_PLACEMENT (R397). -/
def execBlockPlacement (blk : Nat) (s : State) : Host.Outcome State Fault Refusal := liftDev (fun d => d.onArc fun d => d.place blk) s
/-- MECHANISM_JOIN (R408). -/
def execMechanismJoin (m : Mech) (s : State) : Host.Outcome State Fault Refusal := liftDev (fun d => d.onArc fun d => d.joinTime m) s
/-- CHECKPOINT_INTERVAL (R406). -/
def execCheckpointInterval (m : Mech) (s : State) : Host.Outcome State Fault Refusal := liftDev (fun d => d.onArc fun d => d.ckptInterval m) s
/-- CHECKPOINT_WRITTEN (R406). -/
def execCheckpointWritten (m : Mech) (cls : Fin 3) (s : State) : Host.Outcome State Fault Refusal :=
  liftDev (fun d => d.onArc fun d => d.ckptWritten m cls.val) s
/-- DISC_LOAD (R407). -/
def execDiscLoad (m : Mech) (r : DiscInfo) (s : State) : Host.Outcome State Fault Refusal := liftDev (fun d => d.onArc fun d => d.loadDisc m r) s
/-- DISC_FULL (R409). -/
def execDiscFull (m : Mech) (s : State) : Host.Outcome State Fault Refusal := liftDev (fun d => d.onArc fun d => d.discFullEvent m) s
/-- WITHDRAW_TIMEOUT (R409). -/
def execWithdrawTimeout (m : Mech) (s : State) : Host.Outcome State Fault Refusal := liftDev (fun d => d.onArc fun d => d.withdraw m) s
/-- EXCH_DONE (R413). -/
def execExchDone (m : Mech) (s : State) : Host.Outcome State Fault Refusal := liftDev (fun d => d.mboxWrite fun d => d.mbExchDone m) s
/-- CHECKPOINT (R413). -/
def execMboxCheckpoint (m : Mech) (s : State) : Host.Outcome State Fault Refusal := liftDev (fun d => d.mboxWrite fun d => d.mbCheckpoint m) s
/-- HOLD (R413). -/
def execMboxHold (m : Mech) (s : State) : Host.Outcome State Fault Refusal := liftDev (fun d => d.mboxWrite fun d => d.mbHold m) s
/-- RELEASE (R413). -/
def execMboxRelease (m : Mech) (s : State) : Host.Outcome State Fault Refusal := liftDev (fun d => d.mboxWrite fun d => d.mbRelease m) s
/-- EXCHANGE of the mailbox (R410, R413). -/
def execMboxExchange (m : Mech) (s : State) : Host.Outcome State Fault Refusal := liftDev (fun d => d.mboxWrite fun d => d.mbExchange m) s

end Sys2Proof.Machine
end

