-- ==== Sys2Proof/Machine/Mdc.lean ====
section
/-! DEFINITION. The commands of the metadata cache (R432–R444). -/
namespace Sys2Proof.Machine
namespace Dev

/-- METADATA_REQUEST: the part of a request within one line. -/
def metaRequest (d : Dev) (b : Memory) (a : Nat) (wr : Option (List Byte)) : Dev × Memory :=
  if ¬ d.up then (d, b)
  else
    let x := d.tickFull.demand b ⟨a, wr.map (fun l => l.take (128 - a % 128))⟩
    (x.1.tickFull.syncMdc, x.2)

/-- CACHE_FILL_DONE: an uncorrectable error of the fill, or one before it, poisons the data (R327, R329, R441). -/
def cacheFill (d : Dev) (b : Memory) (l : Nat) (poisoned : Bool) : Dev × Memory :=
  let l := lineOf l
  if ¬ d.up ∨ (d.missOf l).isNone ∨ d.groupDown l then (d, b)
  else
    let d := match d.bufx.poison.find? (fun p => decide (l ≤ p ∧ p < l + 128)) with
      | some p => d.burstRead p .double
      | none => if poisoned then d.burstRead l .double else d
    d.fillDone b l

end Dev

/-! ### Meanings -/

/-- METADATA_REQUEST (R433). -/
def execMetadataRequest (addr : Nat) (wr : Option (List Byte)) (s : State) : Host.Outcome State Fault Refusal :=
  liftBuf (fun d b => d.metaRequest b addr wr) s
/-- CACHE_FILL_DONE (R434). -/
def execCacheFillDone (line : Nat) (poisoned : Bool) (s : State) : Host.Outcome State Fault Refusal :=
  liftBuf (fun d b => d.cacheFill b line poisoned) s
/-- ZERO (R438). -/
def execMaintZero (s : State) : Host.Outcome State Fault Refusal := liftBuf (fun d b => d.maintGo b 0) s
/-- CLEAN (R438). -/
def execMaintClean (s : State) : Host.Outcome State Fault Refusal := liftBuf (fun d b => d.maintGo b 1) s
/-- INVALIDATE (R438). -/
def execMaintInvalidate (s : State) : Host.Outcome State Fault Refusal := liftBuf (fun d b => d.maintGo b 2) s
/-- CLEAN_INV (R438). -/
def execMaintCleanInv (s : State) : Host.Outcome State Fault Refusal := liftBuf (fun d b => d.maintGo b 3) s
/-- LOCK_LOAD (R438). -/
def execMaintLockLoad (s : State) : Host.Outcome State Fault Refusal := liftBuf (fun d b => d.maintGo b 4) s
/-- INV_ALL (R438). -/
def execMaintInvAll (s : State) : Host.Outcome State Fault Refusal := liftBuf (fun d b => d.maintGo b 5) s
/-- MAINT_DONE (R439). -/
def execMaintDone (s : State) : Host.Outcome State Fault Refusal := liftDev Dev.maintEnd s
/-- MDC_DISABLE (R442). -/
def execMdcDisable (s : State) : Host.Outcome State Fault Refusal := liftDev Dev.mdcOff s
/-- MDC_ENABLE (R443). -/
def execMdcEnable (s : State) : Host.Outcome State Fault Refusal := liftDev Dev.mdcOn s
/-- BANK_PREFETCH_DONE (R124). -/
def execBankPrefetchDone (m : Mech) (l : LoopId) (s : State) : Host.Outcome State Fault Refusal :=
  liftMechBuf m (fun d b => d.prefetchDone b m l) s

end Sys2Proof.Machine
end

