-- ==== Sys2Proof/Machine/DmaCtl.lean ====
section
/-! DEFINITION. The DMA channels as software drives them (R415, R424, R425, R430, R431): START, STOP, CLEAR, the program counter,
the configuration, the semaphores; and how a channel halts (R428). -/
namespace Sys2Proof.Machine
namespace Dev

def modDma (d : Dev) (n : DmaCh) (f : DmaX → DmaX) : Dev := { d with dma := d.dma.set n.val (f d.dma[n.val]) }

/-- State codes of R424. -/
def dmaIdle : Nat := 0
def dmaRunning : Nat := 1
def dmaWaiting : Nat := 2
def dmaStopped : Nat := 3
def dmaHalted : Nat := 4
def dmaDone : Nat := 5

/-- State of a channel. -/
def dmaState (d : Dev) (n : DmaCh) : Nat := d.get (Reg.DMA_CH_STAT_STATE n)

/-- Enters a state and publishes the channel masks. -/
def dmaEnter (d : Dev) (n : DmaCh) (st : Nat) : Dev :=
  let runs := decide (st = dmaRunning ∨ st = dmaWaiting)
  let d := d.set (Reg.DMA_CH_STAT_STATE n) st
  let d := if st = dmaStopped ∨ st = dmaHalted ∨ st = dmaIdle ∨ st = dmaDone then d.set (Reg.DMA_CH_STAT_STOP_PENDING n) 0 else d
  if n.val < 32 then (d.setBit Reg.DMA_RUN_LO_RUN n.val runs).setBit Reg.DMA_HALT_LO_HALT n.val (st == dmaHalted)
  else (d.setBit Reg.DMA_RUN_HI_RUN (n.val - 32) runs).setBit Reg.DMA_HALT_HI_HALT (n.val - 32) (st == dmaHalted)

/-- The program counter of a channel. -/
def dmaPc (d : Dev) (n : DmaCh) : Nat := d.get (Reg.DMA_CH_PC_LO_PC n) + 4294967296 * d.get (Reg.DMA_CH_PC_HI_PC n)

def setDmaPc (d : Dev) (n : DmaCh) (pc : Nat) : Dev :=
  (d.set (Reg.DMA_CH_PC_LO_PC n) pc).set (Reg.DMA_CH_PC_HI_PC n) (pc / 4294967296)

/-- A channel halts (R428), on an access (address and space) or on no access: the halt of a host-owned channel goes to the error
log. -/
def dmaHalt (d : Dev) (n : DmaCh) (code : Nat) (acc : Option (Nat × Nat) := none) : Dev :=
  let d := d.set (Reg.DMA_CH_STAT_HALT n) code
  let d := match acc with
    | some (a, sp) => d.setAll [(Reg.DMA_CH_FAULT_LO_ADDR n, a), (Reg.DMA_CH_FAULT_HI_ADDR n, a / 4294967296), (Reg.DMA_CH_FAULT_SP_SPACE n, sp)]
    | none => d
  let d := (d.dmaEnter n dmaHalted).modDma n fun x => { x with line := none, tries := 0, reissues := 0 }
  if d.get (Reg.DMA_CH_CFG_OWNER n) = 2 then
    d.elogAdd 0x52 0x0A code [(16, 1, n.val), (24, 8, d.dmaPc n), (32, 8, match acc with
      | some (a, _) => a
      | none => 0)]
  else d

/-- Logs a BAR0 write that has no effect (R415). -/
def dmaRefuse (d : Dev) : Dev := d.vlogAdd 0x14 0x0B02 0

/-- A BAR0 write to a channel's registers: discarded while partition 18 is IN_RESET (R486), refused when the host does not own the
channel (R415). -/
def dmaAccess (d : Dev) (n : DmaCh) (off : Nat) (f : Dev → Dev) : Dev :=
  if ¬ d.up then d
  else if d.inReset 18 then d.vlogAdd 0x14 0x0E02 0 [(0, 4, 0x301000 + 0x40 * n.val + off), (4, 1, 18), (5, 1, 1)]
  else if d.get (Reg.DMA_CH_CFG_OWNER n) ≠ 2 then d.dmaRefuse
  else f d

/-- START (R424): from IDLE at the PC last written. -/
def dmaGo (d : Dev) (n : DmaCh) : Dev := d.dmaAccess n 0 fun d =>
  let st := d.dmaState n
  if st = dmaIdle ∨ st = dmaStopped ∨ (st = dmaDone ∧ (d.dma[n.val]).pcWritten) then
    let d := if st = dmaIdle then d.setDmaPc n (d.dma[n.val]).pc else d
    (d.dmaEnter n dmaRunning).modDma n fun x => { x with line := none, tries := 0, reissues := 0, pcWritten := false }
  else d.dmaRefuse

/-- STOP (R425): a WAIT is abandoned at once, any other instruction runs to its end. -/
def dmaHold (d : Dev) (n : DmaCh) : Dev := d.dmaAccess n 0 fun d =>
  let st := d.dmaState n
  if st = dmaRunning then d.set (Reg.DMA_CH_STAT_STOP_PENDING n) 1
  else if st = dmaWaiting then d.dmaEnter n dmaStopped
  else d.dmaRefuse

/-- CLEAR (R424). -/
def dmaReset (d : Dev) (n : DmaCh) : Dev := d.dmaAccess n 0 fun d =>
  let st := d.dmaState n
  if st = dmaStopped ∨ st = dmaHalted ∨ st = dmaDone then
    let d := (List.finRange 4).foldl (fun d k => d.set (Reg.DMA_CH_CNT_CNT n k) 0) d
    let d := d.setAll [(Reg.DMA_CH_FAULT_LO_ADDR n, 0), (Reg.DMA_CH_FAULT_HI_ADDR n, 0), (Reg.DMA_CH_FAULT_SP_SPACE n, 0)]
    (d.dmaEnter n dmaIdle).modDma n fun x => { DmaX.reset with pcWritten := x.pcWritten, pc := x.pc }
  else d.dmaRefuse

/-- A write of DMA_CHn_CTL. The bits of one write act in the order STOP, CLEAR, START (log entry 27). -/
def dmaCtl (d : Dev) (n : DmaCh) (w : Nat) : Dev :=
  let d := if tbit w 1 then d.dmaHold n else d
  let d := if tbit w 2 then d.dmaReset n else d
  if tbit w 0 then d.dmaGo n else d

/-- A write of one half of DMA_CHn_PC (R424). -/
def dmaPcWrite (d : Dev) (n : DmaCh) (hi : Bool) (w : Nat) : Dev := d.dmaAccess n (if hi then 0x10 else 0x0C) fun d =>
  let st := d.dmaState n
  if st = dmaIdle ∨ st = dmaStopped ∨ st = dmaDone then
    let d := d.set (if hi then Reg.DMA_CH_PC_HI_PC n else Reg.DMA_CH_PC_LO_PC n) w
    let pc := d.dmaPc n
    d.modDma n fun x => { x with pcWritten := true, pc := pc, line := none }
  else d.dmaRefuse

/-- A write of DMA_CHn_CFG (R415): only RETRY and EPOCH_STOP of a host channel change. -/
def dmaCfgWrite (d : Dev) (n : DmaCh) (w : Nat) : Dev := d.dmaAccess n 4 fun d =>
  if bits w 0 2 ≠ d.get (Reg.DMA_CH_CFG_OWNER n) then d.dmaRefuse
  else d.setAll [(Reg.DMA_CH_CFG_RETRY n, bits w 2 4), (Reg.DMA_CH_CFG_EPOCH_STOP n, bits w 6 1)]

/-- A software write of a semaphore (R430). -/
def dmaSem (d : Dev) (i : Fin 64) (w : Nat) : Dev :=
  if ¬ d.up then d
  else if d.inReset 18 then d.vlogAdd 0x14 0x0E02 0 [(0, 4, 0x300100 + 4 * i.val), (4, 1, 18), (5, 1, 1)]
  else d.set (Reg.DMA_SEM_VALUE i) w

end Dev

/-! ### Meanings -/

/-- START (R424). -/
def execDmaStart (n : DmaCh) (s : State) : Host.Outcome State Fault Refusal := liftDev (fun d => d.dmaGo n) s
/-- DMA_STOP (R425). -/
def execDmaStop (n : DmaCh) (s : State) : Host.Outcome State Fault Refusal := liftDev (fun d => d.dmaHold n) s
/-- CLEAR (R424). -/
def execDmaClear (n : DmaCh) (s : State) : Host.Outcome State Fault Refusal := liftDev (fun d => d.dmaReset n) s
/-- DMA_PC_WRITE (R424). -/
def execDmaPcWrite (n : DmaCh) (hi : Bool) (w : Word) (s : State) : Host.Outcome State Fault Refusal :=
  liftDev (fun d => d.dmaPcWrite n hi w.toNat) s
/-- DMA_CFG_WRITE (R415). -/
def execDmaCfgWrite (n : DmaCh) (w : Word) (s : State) : Host.Outcome State Fault Refusal := liftDev (fun d => d.dmaCfgWrite n w.toNat) s
/-- DMA_SEM_WRITE (R430). -/
def execDmaSemWrite (i : Fin 64) (w : Word) (s : State) : Host.Outcome State Fault Refusal := liftDev (fun d => d.dmaSem i w.toNat) s

end Sys2Proof.Machine
end

