-- ==== Sys2Proof/Machine/HeadLink.lean ====
section
/-! DEFINITION. The Head Link (R225–R249): upstream blocks, messages, violations, trainings and host accesses to head registers. -/
namespace Sys2Proof.Machine
namespace Dev

/-- A violation by the head front-end (R248): lane, beam or 0xFF, and the POS, SEQ or register address. -/
def hlkViolation (d : Dev) (m : Mech) (code answer lane beam v : Nat) : Dev :=
  d.vlogAdd m.val code answer [(0, 1, lane), (1, 1, beam), (2, 4, v)]

/-! ### Messages -/

/-- What ends a register access of the host (R249). -/
def hostAccessDone (d : Dev) (m : Mech) (result code : Nat) : Dev :=
  (d.setAll [(Reg.HLK_REG_STAT_RESULT m, result), (Reg.HLK_REG_STAT_CODE m, code)]).hlkEvent m Reg.HLK_EVENT_REG_DONE

/-- A reply to an outstanding tag (R240, R241, R248): data, or an error code. -/
def reply (d : Dev) (m : Mech) (tag addr : Nat) (data : Option Nat) (code : Nat) : Dev :=
  match (d.mx m).hlk.tags.find? (fun e => decide (e.tag = tag)) with
  | none => d.hlkViolation m 0x0706 0 0 0xFF addr
  | some e =>
    let d := d.modHlk m fun x => { x with tags := x.tags.filter (fun e => decide (e.tag ≠ tag)) }
    let d := if ¬ e.host then d
      else match data with
        | some v => (d.set (Reg.HLK_REG_DATA_DATA m) v).hostAccessDone m 2 0
        | none => d.hostAccessDone m 3 code
    d.hlkPump m 16

/-- DN_ERR (R244): a block of write symbols with a good header leaves its span unwritten. One with a bad header, or that carried the
actuator cell, acts as a gate drop on every beam, from the first symbol sent in or after it. -/
def dnErr (d : Dev) (m : Mech) (seq : Nat) (hdr : Bool) : Dev :=
  let d := ((if hdr then d.count (Reg.HLK_ERR_HDR m 3) else d.count (Reg.HLK_ERR_CRC m 3)).count (Reg.HLK_WERR_FRAG m)).hlkEvent m Reg.HLK_EVENT_WLOSS
  match (d.mx m).hlk.sent.find? (fun s => decide (s.seq = seq)) with
  | none => if hdr then d.dropGates m 0xFFFF else d
  | some s =>
    if hdr ∨ s.sv then d.dropFrom m 0xFFFF (d.firstSince m seq)
    else match s.beam with
      | some b => d.addFrag m s.pba b s.off (some (s.off + s.n - 1))
      | none => d

/-- WLATE (R244): the span of the whole block that came late is an erasure fragment. -/
def wlate (d : Dev) (m : Mech) (b pos : Nat) : Dev :=
  let d := (d.count (Reg.HLK_WERR_FRAG m)).hlkEvent m Reg.HLK_EVENT_WLOSS
  match (d.mx m).hlk.sent.find? (fun s => decide (s.beam = some b ∧ s.pos = pos)) with
  | some s => d.addFrag m s.pba b s.off (some (s.off + s.n - 1))
  | none => d

/-- STATUS (R240, R244, R248): a fault bit drops LDEN and requests a retrain. -/
def headStatus (d : Dev) (m : Mech) (st : Nat) : Dev :=
  let fault := decide (st % 8 ≠ 0)
  let d := d.setAll [(Reg.HLK_HEAD_STAT_STATUS m, st % 2 ^ 32), (Reg.HLK_STATE_HEAD_FAULT m, b2n fault), (Reg.HLK_STATE_DN_LOCK m, bits st 4 1)]
  if fault then
    (((d.hlkEvent m Reg.HLK_EVENT_HEAD_FAULT).hlkViolation m 0x070C 4 0 0xFF 0).lden m false).train m false
  else d

/-- The message of a trailer (R240), from a block with a good header. -/
def message (d : Dev) (m : Mech) (lane mtype data : Nat) : Dev :=
  if mtype = 0 then d
  else if lane ≠ 0 ∨ 6 ≤ mtype then d.hlkViolation m 0x0705 0 lane 0xFF 0
  else match mtype with
    | 1 => d.reply m (bits data 0 4) (bits data 20 16) (some (bits data 4 16)) 0
    | 2 => d.reply m (bits data 0 4) (bits data 20 16) none (bits data 4 8)
    | 3 => d.dnErr m (bits data 30 6) (tbit data 29)
    | 4 => d.wlate m (bits data 32 4) (bits data 0 32)
    | _ => d.headStatus m data

/-! ### Blocks -/

/-- Moves the end of the samples placed of a beam. -/
def setPlaced (d : Dev) (m : Mech) (b : Beam) (e : Nat) : Dev :=
  d.modHlk m fun x => { x with placed := x.placed.set b.val (some (e % 4294967296)) }

/-- A stream block is placed or erased (R233): the gap before its first sample is erased; samples behind those already placed are
discarded. -/
def placeBlock (d : Dev) (m : Mech) (lane : Nat) (b : Beam) (s : Link.Stream) : Dev :=
  let n := s.samples.length + s.erased
  let e := (d.mx m).hlk.placed[b.val].getD s.pos
  let gap := Link.cbcDiff s.pos e
  let excess := if gap < 0 then min n gap.natAbs else 0
  let d := if gap < 0 then d.hlkViolation m 0x0703 0 lane b.val s.pos else d.count (Reg.HLK_ERASE_ERASED m) gap.toNat
  let d := if s.erased = 0 then d else d.count (Reg.HLK_ERASE_ERASED m) (s.erased - excess)
  (d.rchTake m b ((s.pos + excess) % 4294967296) (s.samples.drop excess)).setPlaced m b (if n = excess then e else s.pos + n)

/-- The servo cell's place in a good block (R236, R248): lane 0, one in a frame window. The cell itself reaches the Mule as a
servo frame. -/
def cellCheck (d : Dev) (m : Mech) (lane : Nat) (t : Link.Trailer) : Dev :=
  if ¬ t.sv then d
  else if lane ≠ 0 ∨ (d.mx m).hlk.cellSeen then d.hlkViolation m 0x0702 0 lane 0xFF t.pos
  else d.modHlk m fun x => { x with cellSeen := true }

/-- The stream of a block with a good header (R229, R232, R233, R248); the symbols whose time it shows are sent (R235), and the read
channels take the frames that are whole. -/
def streamOf (d : Dev) (m : Mech) (lane : Nat) (b : Link.Block) : Dev :=
  if h : b.t.stream < 16 then
    if ¬ d.bit (Reg.MCH_BEAM_ENABLE m) b.t.stream then d.hlkViolation m 0x0704 0 lane b.t.stream b.t.pos
    else
      let k : Beam := ⟨b.t.stream, h⟩
      let s := Link.streamOf b (d.mx m).hlk.part[k.val]
      let d := (d.placeBlock m lane k s).modHlk m fun x => { x with part := x.part.set k.val s.part }
      (d.sendDue m k (d.swathN m (d.mx m).opt.swath)).rchPump m
  else d

/-- A stream value that no block may carry now (R229, R248). -/
def badStream (d : Dev) (m : Mech) (s : Nat) : Bool :=
  decide (17 ≤ s ∧ s ≤ 30) || (s == 31 && d.linkUp m)

/-- A bad block of a lane: those of the last millisecond are remembered (R246). -/
def badBlock (d : Dev) (m : Mech) (lane : Fin 3) : Dev :=
  let t := d.now
  d.modHlk m fun x => { x with bad := x.bad.set lane.val ((t :: x.bad[lane.val].filter (fun u => decide (t < u + 1000000))).take 256) }

/-- An upstream block (R227–R233, R244). -/
def upstream (d : Dev) (m : Mech) (lane : Fin 3) (b : Link.Block) : Dev :=
  let l := d.get (Reg.HLK_STATE_LINK m)
  let k : Fin 4 := ⟨lane.val, by omega⟩
  if l = 0 ∨ l = 4 then d
  else if ¬ b.hdrOk then (d.count (Reg.HLK_ERR_HDR m k)).badBlock m lane
  else
    let d := if b.crcOk then d else (d.count (Reg.HLK_ERR_CRC m k)).badBlock m lane
    let d := d.message m lane.val b.t.mtype b.t.mdata
    if b.crcOk ∧ d.badStream m b.t.stream then d.hlkViolation m 0x0701 0 lane.val 0xFF b.t.seq
    else (if b.crcOk then d.cellCheck m lane.val b.t else d).streamOf m lane.val b

/-- What the levels of a lane carry: the block, and the state with the lane's descrambler moved past it (R226). -/
def hear (d : Dev) (m : Mech) (lane : Fin 3) (levels : List (BitVec 2)) : Dev × Link.Block :=
  let r := Link.receive levels (d.mx m).hlk.rx[lane.val]
  (d.modHlk m fun x => { x with rx := x.rx.set lane.val r.2 }, r.1)

/-! ### Training -/

/-- Alignment is lost on a lane (R230, R246). -/
def lockLoss (d : Dev) (m : Mech) (lane : Nat) : Dev :=
  if d.linkUp m then ((d.setBit (Reg.HLK_STATE_UP_LOCK m) lane false).hlkViolation m 0x070B 3 lane 0xFF 0).train m false else d

/-- Whether a lane had more than ERR_LIMIT bad blocks within the last millisecond (R246). -/
def rateExceeded (d : Dev) (m : Mech) (lane : Fin 3) : Bool :=
  decide (d.get (Reg.HLK_CFG_ERR_LIMIT m) < ((d.mx m).hlk.bad[lane.val].filter (fun u => decide (d.now < u + 1000000))).length)

/-- Bad blocks above ERR_LIMIT (R246). -/
def errorRate (d : Dev) (m : Mech) (lane : Fin 3) : Dev :=
  if d.linkUp m ∧ d.rateExceeded m lane then ((d.hlkEvent m Reg.HLK_EVENT_ERR_RATE).hlkViolation m 0x070A 3 lane.val 0xFF 0).train m false else d

/-- A training fails (R246): another fast retrain, a full training after RETRY of them, or FAILED. -/
def trainFailed (d : Dev) (m : Mech) : Dev :=
  if d.get (Reg.HLK_STATE_LINK m) = 2 then
    let n := (d.mx m).hlk.fastFails + 1
    let d := (d.modHlk m fun x => { x with fastFails := n }).set (Reg.HLK_STATE_LINK m) 0
    d.train m (decide (d.get (Reg.HLK_CFG_RETRY m) ≤ n))
  else
    let d := (d.modHlk m fun x => { x with fastFails := 0 }).set (Reg.HLK_STATE_LINK m) 4
    (d.hlkEvent m Reg.HLK_EVENT_FAILED).raiseFault m 4

/-- HF_SDLY = round((950 ns − RTT) ÷ 0.8 ns), within its register (R241, R243). -/
def sdlyOf (rtt : Nat) : Nat := (clampInt 0 2047 ((2 * (9500 - (rtt : Int)) + 8) / 16)).toNat

/-- What training records (R245, R249): a fast retrain keeps the taps stored by the last full training (R246). -/
def trainRecord (d : Dev) (m : Mech) (r : TrainResult) : Dev :=
  let d := d.setAll [(Reg.HLK_HEAD_ID_ID m, r.id.toNat), (Reg.HLK_HEAD_ID_VER m, r.ver.toNat), (Reg.HLK_SKEW_SKEW1 m, r.skew1.toNat),
    (Reg.HLK_SKEW_SKEW2 m, r.skew2.toNat), (Reg.HLK_HEAD_STAT_STATUS m, r.status.toNat % 2 ^ 32),
    (Reg.HLK_STATE_HEAD_FAULT m, b2n (decide (r.status.toNat % 8 ≠ 0))), (Reg.HLK_STATE_DN_LOCK m, bits r.status.toNat 4 1)]
  let old := if d.get (Reg.HLK_STATE_LINK m) = 2 then (d.mx m).hlk.taps else none
  (List.finRange 4).foldl (fun d k =>
    let e := (r.eq.getD k.val 0).toNat
    let w := match old with
      | some l => (l.getD k.val 0).toNat % 2 ^ 24 + e / 2 ^ 24 * 2 ^ 24
      | none => e
    d.setAll [(Reg.HLK_EQ_PRE m k, bits w 0 8), (Reg.HLK_EQ_MAIN m k, bits w 8 8), (Reg.HLK_EQ_POST m k, bits w 16 8),
      (Reg.HLK_EQ_MARGIN m k, bits w 24 8)]) d

/-- The head registers that step 5 writes (R241, R245). -/
def trainWrites (d : Dev) (m : Mech) : Dev :=
  let n := d.swathN m (d.mx m).opt.swath
  [(0x11, d.get (Reg.MCH_BEAM_ENABLE m)), (0x20, n % 65536), (0x21, n / 65536), (0x22, 1), (0x10, d.get (Reg.HLK_TIMING_SDLY m))].foldl
    (fun d w => d.headWrite m w.1 w.2) d

/-- LINK reaches UP (R245 step 6): the waiting accesses go out, and a spindle that waits for the link begins its catch (R175). -/
def linkReady (d : Dev) (m : Mech) (r : TrainResult) : Dev :=
  let full := d.get (Reg.HLK_STATE_LINK m) == 1
  let d := d.setAll [(Reg.HLK_STATE_ID_OK m, 1), (Reg.HLK_TIMING_RTT m, r.rtt.toNat), (Reg.HLK_TIMING_SDLY m, sdlyOf r.rtt.toNat),
    (Reg.HLK_STATE_UP_LOCK m, 7), (Reg.HLK_STATE_LINK m, 3)]
  let d := (d.hlkForget m).modHlk m fun x => { x with fastFails := 0, taps := if full then some r.eq else x.taps }
  let d := ((d.hlkEvent m Reg.HLK_EVENT_UP).trainWrites m).hlkPump m 16
  if (d.mx m).spn.waitLink ∧ d.mstate m = .spinningUp ∧ d.spnClass m = 0 then d.spnCatch m else d

/-- A training ends (R245, R246, R248). -/
def trainingDone (d : Dev) (m : Mech) (r : TrainResult) : Dev :=
  let l := d.get (Reg.HLK_STATE_LINK m)
  if l ≠ 1 ∧ l ≠ 2 then d
  else if ¬ r.linkOk then d.trainFailed m
  else
    let d := d.trainRecord m r
    if r.status.toNat % 8 ≠ 0 then d.trainFailed m
    else if r.id.toNat ≠ (d.srec m 0x20).f 0 16 16 then
      (((d.set (Reg.HLK_STATE_ID_OK m) 0).hlkEvent m Reg.HLK_EVENT_ID_MISMATCH).hlkViolation m 0x0708 4 0 0xFF 0).trainFailed m
    else d.linkReady m r

/-- No reply within REG_TMO (R248): two retries, then an error with code 0xFF. -/
def regTimeout (d : Dev) (m : Mech) (tag : Nat) : Dev :=
  match (d.mx m).hlk.tags.find? (fun e => decide (e.tag = tag)) with
  | none => d
  | some e =>
    if ¬ d.linkUp m then d
    else if e.tries < 2 then
      ((d.hlkViolation m 0x0707 2 0 0xFF e.addr).modHlk m fun x =>
        { x with tags := x.tags.map (fun (y : HlkTag) => if y.tag = tag then { y with tries := y.tries + 1 } else y) }).sendReg m e
    else
      let d := (d.hlkViolation m 0x0707 1 0 0xFF e.addr).modHlk m fun x => { x with tags := x.tags.filter (fun y => decide (y.tag ≠ tag)) }
      (if e.host then d.hostAccessDone m 3 0xFF else d).hlkPump m 16

/-- A write of HLK_REG_CMD (R249). -/
def regCmd (d : Dev) (m : Mech) (w : Nat) : Dev :=
  let busy := decide (d.get (Reg.HLK_REG_STAT_RESULT m) = 1)
  let d := d.setAll [(Reg.HLK_REG_CMD_ADDR m, bits w 0 16), (Reg.HLK_REG_CMD_WRITE m, bits w 16 1)]
  if ¬ tbit w 31 then d
  else if busy then d.vlogAdd 0x14 0x0710 0
  else
    let e : HlkTag := ⟨0, tbit w 16, bits w 0 16, if tbit w 16 then d.get (Reg.HLK_REG_DATA_DATA m) else 0, true, 0⟩
    ((d.setAll [(Reg.HLK_REG_STAT_RESULT m, 1), (Reg.HLK_REG_STAT_CODE m, 0)]).modHlk m fun x => { x with waiting := x.waiting ++ [e] }).hlkPump m 16

end Dev

/-! ### Meanings -/

/-- UPSTREAM_BLOCK (R233). -/
def execUpstreamBlock (m : Mech) (lane : Fin 3) (levels : List (BitVec 2)) (s : State) : Host.Outcome State Fault Refusal :=
  liftMech m (fun d => (d.hear m lane levels).1.upstream m lane (d.hear m lane levels).2) s
/-- REG_DATA (R240). -/
def execRegData (m : Mech) (addr data : BitVec 16) (tag : BitVec 4) (s : State) : Host.Outcome State Fault Refusal :=
  liftMech m (fun d => d.reply m tag.toNat addr.toNat (some data.toNat) 0) s
/-- REG_ERR (R240). -/
def execRegErr (m : Mech) (addr : BitVec 16) (code : Byte) (tag : BitVec 4) (s : State) : Host.Outcome State Fault Refusal :=
  liftMech m (fun d => d.reply m tag.toNat addr.toNat none code.toNat) s
/-- DN_ERR (R244). -/
def execDnErr (m : Mech) (seq : BitVec 6) (hdr : Bool) (s : State) : Host.Outcome State Fault Refusal :=
  liftMech m (fun d => d.dnErr m seq.toNat hdr) s
/-- WLATE (R244). -/
def execWlate (m : Mech) (b : Beam) (pos : Word) (s : State) : Host.Outcome State Fault Refusal :=
  liftMech m (fun d => d.wlate m b.val pos.toNat) s
/-- STATUS (R244). -/
def execHeadStatus (m : Mech) (st : BitVec 36) (s : State) : Host.Outcome State Fault Refusal :=
  liftMech m (fun d => d.headStatus m st.toNat) s
/-- BLOCK_LOCK_LOSS (R230). -/
def execBlockLockLoss (m : Mech) (lane : Fin 3) (s : State) : Host.Outcome State Fault Refusal := liftMech m (fun d => d.lockLoss m lane.val) s
/-- ERROR_RATE_EXCEEDED (R246). -/
def execErrorRateExceeded (m : Mech) (lane : Fin 3) (s : State) : Host.Outcome State Fault Refusal :=
  liftMech m (fun d => d.errorRate m lane) s
/-- HLK_REG_TIMEOUT (R248). -/
def execHlkRegTimeout (m : Mech) (tag : BitVec 4) (s : State) : Host.Outcome State Fault Refusal :=
  liftMech m (fun d => d.regTimeout m tag.toNat) s
/-- FULL_TRAINING (R245). -/
def execFullTraining (m : Mech) (s : State) : Host.Outcome State Fault Refusal := liftMech m (fun d => d.train m true) s
/-- FAST_RETRAIN (R246). -/
def execFastRetrain (m : Mech) (s : State) : Host.Outcome State Fault Refusal := liftMech m (fun d => d.train m false) s
/-- TRAINING_DONE (R245). -/
def execTrainingDone (m : Mech) (r : TrainResult) (s : State) : Host.Outcome State Fault Refusal :=
  liftMech m (fun d => d.trainingDone m r) s
/-- RETRAIN (R246): a write of HLK_CTL.RETRAIN. -/
def execHlkRetrain (m : Mech) (s : State) : Host.Outcome State Fault Refusal :=
  liftDev (fun d => d.mechWrite m 0x840004 fun d => d.train m false) s
/-- FULL (R246): a write of HLK_CTL.FULL. -/
def execHlkFull (m : Mech) (s : State) : Host.Outcome State Fault Refusal :=
  liftDev (fun d => d.mechWrite m 0x840004 fun d => d.train m true) s
/-- HLK_REG_GO (R249): a write of HLK_REG_CMD. -/
def execHlkRegGo (m : Mech) (w : Word) (s : State) : Host.Outcome State Fault Refusal :=
  liftDev (fun d => d.mechWrite m 0x840060 fun d => d.regCmd m w.toNat) s

end Sys2Proof.Machine
end

