-- ==== Sys2Proof/Machine/Owner.lean ====
section
/-! DEFINITION. Owner keys (R474–R476, R482) and faults of the boot flash (R508). -/
namespace Sys2Proof.Machine
namespace Dev

/-- Bytes of SEC_DATA. -/
def secBytes (d : Dev) (o n : Nat) : List Byte :=
  (((List.finRange 1024).flatMap (fun k => leBytes 4 (d.get (Reg.SEC_DATA_DATA k)))).drop o).take n

/-- An owner operation completes: SEC_DATA is cleared (R475, R482). -/
def endOwner (d : Dev) (result code : Nat) : Dev :=
  let d := (List.finRange 1024).foldl (fun d k => d.set (Reg.SEC_DATA_DATA k) 0) d
  ((d.modSec fun x => { x with ownerOp := 0 }).clkSecurity false).setAll [(Reg.SEC_OWNER_STAT_RESULT, result), (Reg.SEC_OWNER_STAT_CODE, code)]

/-- A GO of SEC_OWNER_CMD (R475, R476, R482). -/
def ownerGo (d : Dev) (op : Nat) : Dev :=
  if ¬ d.up then d
  else if d.get Reg.SEC_OWNER_STAT_RESULT = 1 then d.vlogAdd 0x14 0x0D01 0
  else if op ≠ 1 ∧ op ≠ 2 then d
  else if d.fw.reload.isSome then d.endOwner 3 6
  else ((d.modSec fun x => { x with ownerOp := op }).clkSecurity true).setAll [(Reg.SEC_OWNER_STAT_RESULT, 1), (Reg.SEC_OWNER_STAT_CODE, 0)]

/-- What the signature of an ENROL covers: the new slot and the hash of the new key. -/
def enrolDigest (slot : Nat) (hash : BitVec 512) : BitVec 512 :=
  Crypto.shake256 (([0x4F, 0x57, 0x4E, 0x45, 0x52, 0x4B, 0x45, 0x59] : List Byte) ++ leBytes 8 Config.idHash.toNat ++ leBytes 1 slot ++ leBytes 64 hash.toNat)

/-- Why an ENROL is refused, if it is. -/
def enrolRefusal (d : Dev) (key sig : List Byte) : Option Nat :=
  let hash := Crypto.shake256 key
  if key.head? ≠ some 0x0A ∨ ¬ Crypto.falconKeyOk key then some 1
  else if d.sec.owners.contains hash then some 4
  else if 4 ≤ d.sec.owners.length then some 3
  else if d.sec.owners = [] then none
  else match d.sec.ownerKey with
    | some k => if Crypto.falconVerify k sig (enrolDigest d.sec.owners.length hash) then none else some 2
    | none => some 2

/-- The key record of the active slot is written, and found from now on. -/
def keyWritten (d : Dev) (key : List Byte) : Dev :=
  ((d.modSec fun x => { x with ownerKey := some key }).set Reg.SEC_STAT_OWNER_MISSING 0).emit
    (.flash (.ownerKey (d.sec.owners.length - 1) key))

/-- OWNER_OP_DONE (R475). -/
def ownerDone (d : Dev) (flashOk : Bool) : Dev :=
  let key := d.secBytes 0 1793
  if d.sec.ownerOp = 1 then
    match d.enrolRefusal key (d.secBytes 1808 1280) with
    | some c => d.endOwner 3 c
    | none =>
      if ¬ flashOk then d.endOwner 3 5
      else (((d.modSec fun x => { x with owners := x.owners ++ [Crypto.shake256 key] }).keyWritten key).fuseRegs).endOwner 2 0
  else if d.sec.ownerOp = 2 then
    if key.head? ≠ some 0x0A ∨ ¬ Crypto.falconKeyOk key then d.endOwner 3 1
    else if d.ownerHash ≠ some (Crypto.shake256 key) then (d.endOwner 3 (d.freeVal % 256)).useFree
    else if ¬ flashOk then d.endOwner 3 5
    else (d.keyWritten key).endOwner 2 0
  else d

/-- FLASH_FAULT (R508): an owner operation in progress is refused when its write fails. -/
def flashBad (d : Dev) (code : Fin 3) : Dev :=
  if ¬ d.mainsUp then d
  else
    let d := d.vlogAdd 0x13 (0x0F01 + code.val) (if code = 0 then 0 else if code = 1 then 2 else 1)
    if code = 2 ∧ d.sec.ownerOp ≠ 0 then d.endOwner 3 5 else d

end Dev

/-! ### Meanings -/

/-- ENROL (R475). -/
def execOwnerEnrol (s : State) : Host.Outcome State Fault Refusal := liftDev (fun d => d.ownerGo 1) s
/-- RESTORE (R475). -/
def execOwnerRestore (s : State) : Host.Outcome State Fault Refusal := liftDev (fun d => d.ownerGo 2) s
/-- OWNER_OP_DONE (R475). -/
def execOwnerOpDone (flashOk : Bool) (s : State) : Host.Outcome State Fault Refusal := liftDev (fun d => d.ownerDone flashOk) s
/-- FLASH_FAULT (R508). -/
def execFlashFault (code : Fin 3) (s : State) : Host.Outcome State Fault Refusal := liftDev (fun d => d.flashBad code) s

end Sys2Proof.Machine
end

