-- ==== Sys2Proof/Machine/Firmware.lean ====
section
/-! DEFINITION. Firmware and structure images after start: Firmware Stage and Activate (R79, R80, R385, R460–R463, R470, R471) and
Structure Reload, whole and partial (R47–R50). -/
namespace Sys2Proof.Machine
namespace Dev

/-- Whether an activation or a reload is in progress (R47, R80). -/
def fwBusy (d : Dev) : Bool := d.fw.svcAct.isSome || d.fw.ucodeAct.isSome || d.fw.reload.isSome

/-! ### Firmware Stage (R385, R460, R471) -/

/-- The status that a trailer gives a staged image: 0, FW_IMAGE_INVALID or FW_ROLLBACK. -/
def stageStatus (d : Dev) (i : SignedImage) (ty : Nat) (ok : Bool) : Nat :=
  if ¬ d.trailerSig i ty ∨ ¬ ok then 0x25 else if d.rollbackOk i ty then 0 else 0x26

/-- Loads a microcode image into the inactive bank of every sequencer of its mask, with the patches of its version (R460, R465). -/
def stageBanks (d : Dev) (u : UcodeImage) : Dev :=
  let (b, _, skipped) := d.bankFor u
  (List.finRange 16).foldl (fun d m =>
    if tbit u.mechMask.toNat m.val then
      (d.setBank m ⟨1 - d.get (Reg.FSQ_UCODE_STAT_ACTIVE m) % 2, by omega⟩ b).bankRegs m
    else d) (d.logSkips skipped)

/-- FIRMWARE_STAGE. -/
def stage (d : Dev) (i : Nat) (img : SignedImage) (ucode : Option UcodeImage) (flashOk : Bool) : Dev := d.admin i 7 fun s =>
  let end_ (st : Nat) (f : Dev → Dev) : Dev := if s.lostXfer then d.finishSlot i 0x0C else if st = 0 then (f d).finishSlot i 0 else d.finishSlot i st
  match cdw s 0 % 4 with
  | 0 => end_ (d.stageStatus img 1 true) fun d => d.modSec fun x => { x with svcStaged := some img }
  | 1 =>
    if (List.finRange 16).any (fun m => d.on (Reg.FSQ_UCODE_STAT_SWAP_ARMED m)) then d.finishSlot i 0x23
    else match ucode with
      | some u => end_ (d.stageStatus u.trailer 2 (Ucode.imageOk d.presentMask u)) fun d => d.stageBanks u
      | none => end_ 0x25 id
  | 2 => end_ (d.stageStatus img 0 flashOk) fun d => d.emit (.flash (.boot (match d.sec.boot with
      | some (n, _) => 1 - n
      | none => 0) img))
  | _ => d.finishSlot i 2

/-! ### Firmware Activate (R79, R80, R461) -/

/-- Logs the end of an activation of type 0. -/
def logSvc (d : Dev) (status new prev : Nat) : Dev := d.elogAdd 0x5A 8 status [(16, 1, 0), (20, 4, new), (24, 4, prev)]

/-- Version of a service firmware, 0 for none. -/
def svcVersion (s : Option SignedImage) : Nat := match s with
  | some i => i.version.toNat
  | none => 0

/-- The numbers of the hand-over record (R79 step 3): stream contexts, placement cursors, catalogue lines not yet on media. The spec does
not lay the record out. -/
def handOver (d : Dev) : List Byte :=
  Config.layout 8 (d.arc.streams.flatMap (fun s => [s.1, s.2.gen, s.2.vol, s.2.port.idx, s.2.rsv, s.2.p, s.2.q, s.2.seq]) ++
    d.arc.discs.flatMap (fun x => [x.ident, x.layer, x.swath, x.dslot, x.placed, x.catNext, x.ckptSeq]) ++
    (List.finRange 16).flatMap (fun m => ((d.mx m).goat.drt.filter (fun e => !e.persisted)).flatMap (fun e => [m.val, e.src, e.dst])))

/-- FIRMWARE_ACTIVATE. -/
def activate (d : Dev) (i : Nat) : Dev := d.admin i 8 fun s =>
  let ty := cdw s 0 % 4
  if 1 < ty then d.finishSlot i 2
  else if d.fwBusy then d.finishSlot i 0x23
  else if ty = 0 then
    if d.sec.svcStaged.isNone then d.finishSlot i 2
    else
      let r := d.handOver
      let d := (d.setSlot i { s with phase := .running }).modFw fun x => { x with svcAct := some ⟨i, false, r, Crypto.shake256 r⟩ }
      (d.set Reg.ARC_STAT_STATE 2).requestReset 26 .activation
  else
    let armed := (List.finRange 16).foldl (fun a m => if d.on (Reg.FSQ_UCODE_STAT_STAGED m) then setb a m.val else a) 0
    if armed = 0 then d.finishSlot i 2
    else
      let d := (d.setSlot i { s with phase := .running }).modFw fun x => { x with ucodeAct := some ⟨i, armed, 0⟩ }
      let ms := (List.finRange 16).filter (fun m => tbit armed m.val)
      let d := ms.foldl (fun d m => d.set (Reg.FSQ_UCODE_STAT_SWAP_ARMED m) 1) d
      ms.foldl (fun d m => d.swapIfArmed m) d

/-- R80: partition 26 is reset again and the previous firmware starts. -/
def svcFallback (d : Dev) : Dev :=
  match d.fw.svcAct with
  | none => d
  | some a =>
    if a.fallback then d
    else
      let d := d.modFw fun x => { x with svcAct := some { a with fallback := true } }
      if d.inReset 26 then d else d.requestReset 26 .activation

/-- The previous firmware runs again: Firmware Activate completes ACTIVATE_FAILED. -/
def svcBack (d : Dev) (a : SvcAct) : Dev :=
  let d := (d.modFw fun x => { x with svcAct := none }).setB Reg.ARC_STAT_STATE d.sec.svc.isSome
  ((d.logSvc 0x27 (svcVersion d.sec.svcStaged) (svcVersion d.sec.svc)).rebuildCaps).finishSlot a.slot 0x27

/-- FW_IMPORT_DONE: steps 5 and 6 of R79; `ok`: the new firmware runs and takes the record's format version. -/
def importDone (d : Dev) (ok burnOk : Bool) : Dev := match d.fw.svcAct, d.sec.svcStaged with
  | some a, some i =>
    if a.fallback ∨ d.inReset 26 then d
    else if ¬ ok ∨ Crypto.shake256 a.record ≠ a.digest then d.svcFallback
    else
      let prev := svcVersion d.sec.svc
      let d := (d.modSec fun x => { x with svc := some i, svcStaged := none }).modFw fun x => { x with svcAct := none }
      let d := (d.set Reg.ARC_STAT_STATE 1).advanceArb 1 i.rollback burnOk
      ((d.logSvc 0 i.version.toNat prev).rebuildCaps).finishSlot a.slot 0
  | _, _ => d

/-- UCODE_ACTIVATE_TIMEOUT: sequencers that swapped are armed to swap back, the others stay (R461). -/
def ucodeTimeout (d : Dev) : Dev := match d.fw.ucodeAct with
  | none => d
  | some a =>
    let ms := (List.finRange 16).filter (fun m => tbit a.armed m.val)
    let d := d.endUcodeAct a 0x27
    let d := ms.foldl (fun d m => d.setB (Reg.FSQ_UCODE_STAT_SWAP_ARMED m) (tbit a.swapped m.val)) d
    ms.foldl (fun d m => d.swapIfArmed m) d

/-! ### Structure Reload (R47–R50) -/

/-- STRUCTURE_RELOAD: the loader starts, or the command completes STRUCTURE_BUSY. -/
def reloadStart (d : Dev) (i : Nat) : Dev := d.admin i 9 fun s =>
  let part := tbit (cdw s 0) 0
  let rest := (List.finRange 16).all (fun m => d.mstate m == .off || d.mstate m == .parked)
  let io := d.slots.any (fun t => !isAdmin t.2)
  if d.fwBusy ∨ d.sec.ownerOp ≠ 0 ∨ (¬ part ∧ (¬ rest ∨ io)) then d.finishSlot i 0x23
  else if s.lostXfer then d.finishSlot i 0x0C
  else
    let r : Reload := ⟨i, if part then some (bits (cdw s 0) 1 4) else none, tbit (cdw s 0) 8, dataLen s, d.get Reg.GCTL_IMG_STAT_STATE, none, false⟩
    ((d.setSlot i { s with phase := .running }).modFw fun x => { x with reload := some r }).set Reg.GCTL_IMG_STAT_STATE 3

/-- The loader's verdict on the bytes of a reload (R48): a DLEN that is too low, and a partial image sent while no whole image is in force,
are header refusals before any other check. -/
def reloadCheck (d : Dev) (r : Reload) (img : List Byte) : Except ImgRefusal Image :=
  let ch := d.get Reg.BUF_STAT_ACTIVE
  let short := decide (r.dlen < 96 ∨ r.dlen < byteField img 8 4)
  if short ∨ (d.img.globals = [] ∧ tbit (byteField img 12 4) 1) then .error (Img.hdr 1)
  else match r.mech with
    | none => Img.checkWhole d.owner ch (img.take r.dlen)
    | some m =>
      let others := ((List.finRange 16).filter (fun k => decide (k.val ≠ m))).filterMap (fun k => (d.img.sections[k.val]).map Section.recs)
      Img.checkPartial d.owner ch d.img.globals others m (img.take r.dlen)

/-- The mechanism of an admitted partial image is brought to rest (R50). -/
def reloadPark (d : Dev) (m : Mech) : Dev :=
  if d.running m ∨ d.mstate m = .spinningUp then ((d.cancelCmd m 7).endAuto m).parkFor m .park else d

/-- LOADER_CHECK_DONE; vector 145 reports the image event (R353). -/
def loaderDone (d : Dev) (img : List Byte) : Dev := match d.fw.reload with
  | none => d
  | some r =>
    if r.image.isSome then d
    else
      let d := (d.fireEvt 145).noteAttempt img
      match d.reloadCheck r img with
      | .error e =>
        let d := (d.reportRefusal e r.mech false false).set Reg.GCTL_IMG_STAT_STATE 2
        (d.modFw fun x => { x with reload := none }).finishSlot r.slot 0x24 (e.code + 65536 * e.idx)
      | .ok i => match r.mech with
        | none =>
          let d := (d.applyWhole i).setAll [(Reg.ID_CONFIG_MECH_PRESENT, (Img.glob i.globals 0x10).f 1 0 16), (Reg.GCTL_IMG_STAT_SLOT, 0),
            (Reg.GCTL_IMG_STAT_FALLBACK, 0)]
          let d := if r.save then d.emit (.flash (.image (img.take (byteField img 8 4)))) else d
          ((d.modFw fun x => { x with reload := none }).syncRes).finishSlot r.slot 0
        | some k =>
          let d := (d.modFw fun x => { x with reload := some { r with image := some i } }).set Reg.GCTL_IMG_STAT_STATE r.stat
          if h : k < 16 then d.reloadPark ⟨k, h⟩ else d

/-- Whether a mechanism without rotation is at rest for R49: the sled is parked, but for OFF and SAFE (R50). -/
def reloadRest (d : Dev) (m : Mech) : Bool :=
  !d.rotationSeen m && (match d.mstate m with
    | .off => true
    | .safe => true
    | .parked => d.on (Reg.SLD_STATE_AT_PARK m)
    | .fault => d.on (Reg.SLD_STATE_AT_PARK m)
    | _ => false)

/-- Whether a partial reload waits for the rest of mechanism `m`. -/
def reloadWaits (d : Dev) (m : Mech) : Bool := match d.fw.reload with
  | some r => decide (r.mech = some m.val) && r.image.isSome && !r.resetting
  | none => false

/-- RELOAD_REST_REACHED: step 3 of R49. -/
def reloadRestReached (d : Dev) (m : Mech) : Dev :=
  if ¬ d.reloadWaits m ∨ ¬ d.reloadRest m then d
  else if d.mstate m = .safe then d.safeToFault m
  else d.reloadReset m

/-- RELOAD_REST_TIMEOUT: the reload is abandoned (R50). -/
def reloadRestTimeout (d : Dev) (m : Mech) : Dev := match d.fw.reload with
  | none => d
  | some r =>
    if ¬ d.reloadWaits m then d
    else
      let d := d.elogAdd 0x63 0x0A 0x0A0C [(16, 1, m.val), (17, 1, d.get (Reg.MCH_STATE_STATE m))]
      (d.modFw fun x => { x with reload := none }).finishSlot r.slot 0x28

/-- Steps 4 and 5 of R49, after the reset of step 3: the new section is in force. -/
def reloadApply (d : Dev) (m : Mech) : Dev := match d.fw.reload with
  | none => d
  | some r => match r.image with
    | none => d
    | some i =>
      if ¬ r.resetting ∨ r.mech ≠ some m.val then d
      else
        let sec : Section := ⟨i.sections.headD [], i.serial, i.digest, true⟩
        let d := { d with img := { d.img with sections := d.img.sections.set m.val (some sec) } }
        let d := (d.imageMech m).publishBw false
        let d := (d.set512 Reg.GCTL_IMG_DIGEST_DIGEST i.digest).set512 Reg.ID_IMG_DIGEST_DIGEST i.digest
        let d := d.setAll [(Reg.GCTL_IMG_STAT_STATE, 1), (Reg.GCTL_IMG_STAT_CODE, 0), (Reg.GCTL_IMG_STAT_SIG_CHECKED, b2n d.ownerHash.isSome)]
        (d.modFw fun x => { x with reload := none }).finishSlot r.slot 0

end Dev

/-! ### Meanings -/

/-- FIRMWARE_STAGE (R385). -/
def execFirmwareStage (slot : Nat) (img : SignedImage) (ucode : Option UcodeImage) (flashOk : Bool) (s : State) : Host.Outcome State Fault Refusal :=
  liftQueue s fun d _ => d.stage slot img ucode flashOk
/-- FIRMWARE_ACTIVATE (R79, R461). -/
def execFirmwareActivate (slot : Nat) (s : State) : Host.Outcome State Fault Refusal := liftQueue s fun d _ => d.activate slot
/-- FW_IMPORT_DONE (R79, R80). -/
def execFwImportDone (ok burnOk : Bool) (s : State) : Host.Outcome State Fault Refusal := liftQueue s fun d _ => d.importDone ok burnOk
/-- ACTIVATE_TIMEOUT (R80). -/
def execActivateTimeout (s : State) : Host.Outcome State Fault Refusal := liftQueue s fun d _ => d.svcFallback
/-- UCODE_ACTIVATE_TIMEOUT (R461). -/
def execUcodeActivateTimeout (s : State) : Host.Outcome State Fault Refusal := liftQueue s fun d _ => d.ucodeTimeout
/-- STRUCTURE_RELOAD (R47). -/
def execStructureReload (slot : Nat) (s : State) : Host.Outcome State Fault Refusal := liftQueue s fun d _ => d.reloadStart slot
/-- LOADER_CHECK_DONE (R33, R48). -/
def execLoaderCheckDone (image : List Byte) (s : State) : Host.Outcome State Fault Refusal :=
  liftQueueBuf s fun d b => Dev.afterLoad d (d.loaderDone image) b
/-- RELOAD_REST_REACHED (R49). -/
def execReloadRestReached (m : Mech) (s : State) : Host.Outcome State Fault Refusal := liftQueue s fun d _ => d.reloadRestReached m
/-- RELOAD_REST_TIMEOUT (R50). -/
def execReloadRestTimeout (m : Mech) (s : State) : Host.Outcome State Fault Refusal := liftQueue s fun d _ => (d.reloadRestTimeout m).settle m

end Sys2Proof.Machine
end

