-- ==== Sys2Proof/Machine/Partitions.lean ====
section
/-! DEFINITION. Partition resets and host ports (R20–R25, R67, R71–R75): PERST_N, port resets and link training, the GO of
GCTL_PRST_CTL, the steps of a reset, requests and replies across partitions, and the automatic resets. -/
namespace Sys2Proof.Machine
namespace Dev

/-- The partition of a port. -/
def portPart (p : Port) : Part := ⟨16 + p.idx, by cases p <;> decide⟩

/-- PERST_ASSERT (R74): the partition is held in reset while PERST_N is asserted. -/
def perstOn (d : Dev) (p : Port) : Dev :=
  let d := d.modPort p fun x => { x with perst := true }
  if d.up then (d.requestReset (portPart p) .perst).settleQueues else d.modPort p fun x => { x with linkUp := false }

/-- PERST_DEASSERT (R67). -/
def perstOff (d : Dev) (p : Port) : Dev := d.modPort p fun x => { x with perst := false }

/-- PORT_RESET (R74, R386): hot reset, link down or Function Level Reset. -/
def portReset (d : Dev) (p : Port) (k : PortResetKind) : Dev :=
  d.onQueues fun d => d.requestReset (portPart p) (if k = .functionLevel then .flr else .ordinary)

/-- PORT_LINK_UP (R67, R74): training starts after step 4 of R66, out of reset. Equalization leaves receiver and transmitter taps that the
spec does not give: a free value (R69). -/
def portLink (d : Dev) (p : Port) : Dev :=
  let on : Bool := match d.ox.step with
    | .off => false
    | .mainEn => false
    | .mainPg => false
    | .oxOnly => false
    | _ => true
  if on ∧ ¬ (d.px p).perst ∧ ¬ d.inReset (portPart p) then (d.modPort p fun x => { x with linkUp := true, linkPm := .l0, taps := d.freeVal }).useFree else d

/-- Whether a Structure Reload is being applied to a mechanism (R75). -/
def reloadApplying (d : Dev) (n : Nat) : Bool := match d.fw.reload with
  | some r => r.image.isSome && r.mech == some n
  | none => false

/-- Why a GO for partition `n` is rejected, if it is (R75, R510). -/
def goReject (d : Dev) (n : Nat) : Option Nat :=
  if h : n < 27 then
    if d.inReset ⟨n, h⟩ then some 1
    else if d.resetPending ⟨n, h⟩ then some 2
    else if d.reloadApplying n then some 3
    else none
  else some 4

/-- Step 0 of an orderly reset (R71); the partitions with no step 0 begin their reset at once. -/
def orderlyStart (d : Dev) (b : Memory) (n : Part) : Dev × Memory :=
  let d1 := { d with parts := d.parts.set n.val { d.parts[n.val] with orderly := true } }
  if h : n.val < 16 then (d1.forcePark ⟨n.val, h⟩, b)
  else if n.val = 19 then d1.cleanAll b
  else if 20 ≤ n.val ∧ n.val < 26 then (d1, b)
  else (d.requestReset n .ordinary, b)

/-- A write of GCTL_PRST_CTL (R71, R75). -/
def partGo (d : Dev) (b : Memory) (w : Nat) : Dev × Memory :=
  let n := bits w 0 5
  let d := d.setAll [(Reg.GCTL_PRST_CTL_PART, n), (Reg.GCTL_PRST_CTL_MODE, bits w 5 1)]
  if ¬ tbit w 31 then (d, b)
  else match d.goReject n with
    | some r => ((d.set Reg.GCTL_PRST_STAT_LAST_REJECTED 1).vlogAdd 0x31 0x0E05 0 [(0, 1, n), (1, 1, r)], b)
    | none =>
      if h : n < 27 then
        if tbit w 5 then (d.requestReset ⟨n, h⟩ .ordinary, b) else d.orderlyStart b ⟨n, h⟩
      else (d, b)

/-- Whether step 0 of an orderly reset is over for a mechanism: it is at rest. -/
def atRestFor (d : Dev) (n : Part) : Bool :=
  if h : n.val < 16 then !(d.running ⟨n.val, h⟩) && !(d.mstate ⟨n.val, h⟩ == .spinningUp) && !(d.mstate ⟨n.val, h⟩ == .spinningDown) else true

/-- ORDERLY_STEP_DONE (R71): lines that became dirty meanwhile are cleaned, and step 1 follows. -/
def orderlyDone (d : Dev) (b : Memory) (n : Part) : Dev × Memory :=
  if ¬ d.up ∨ ¬ (d.parts[n.val]).orderly ∨ ¬ d.atRestFor n then (d, b)
  else
    let (d, b) := if n.val = 19 then d.cleanAll b else (d, b)
    let d := { d with parts := d.parts.set n.val { d.parts[n.val] with orderly := false } }
    ((d.requestReset n .ordinary).settleQueues, b)

/-- PARTITION_READY (R71, R74): a port held by PERST_N stays IN_RESET; a mechanism whose reload waits for this reset takes its new
section first (R49); service processors that fall back run the previous firmware (R80). -/
def partReady (d : Dev) (b : Memory) (n : Part) : Dev × Memory :=
  if ¬ d.up ∨ ¬ d.inReset n ∨ (n.val = 16 ∧ (d.px .A).perst) ∨ (n.val = 17 ∧ (d.px .B).perst) then (d, b)
  else if h : n.val < 16 then
    let m : Mech := ⟨n.val, h⟩
    let apply := d.reloadApplying n.val && (match d.fw.reload with
      | some r => r.resetting
      | none => false)
    let d := d.reloadApply m
    let (d, b) := if apply then (d.fireEvt 145).loadBanks b m else (d, b)
    ((d.endReset n).settleQueues, b)
  else if n.val = 26 then
    let d := match d.fw.svcAct with
      | some a => if a.fallback then d.svcBack a else d
      | none => d
    ((d.endReset n).settleQueues, b)
  else ((d.endReset n).settleQueues, b)

/-- The epoch of a partition (R23). -/
def epoch (d : Dev) (n : Part) : Nat := d.get (Reg.GCTL_EPOCH_EPOCH n)

/-- CROSS_PARTITION_REPLY (R24): a reply tagged with an old epoch of its source is dropped and counted. -/
def crossReply (d : Dev) (src : Part) (epoch : BitVec 16) (recv : Fin 28) : Dev :=
  if d.up ∧ epoch.toNat ≠ d.epoch src then d.count (Reg.GCTL_STALE_STALE recv) else d

/-- CROSS_PARTITION_REQUEST (R24, R72). -/
def crossRequest (d : Dev) (n : Part) (epoch : BitVec 16) : Dev :=
  if d.up then d.emit (.partReply n (d.inReset n || decide (epoch.toNat ≠ d.epoch n))) else d

/-- SERVICE_PROCESSOR_WATCHDOG (R74); it also ends an activation whose new firmware has not finished its import (R80). -/
def svcWatchdog (d : Dev) : Dev := d.onQueues fun d =>
  if d.inReset 26 ∨ d.sec.svc.isNone then d
  else match d.fw.svcAct with
    | some a => if a.fallback then d else d.svcFallback
    | none => d.requestReset 26 .ordinary

/-- INTERNAL_PARITY_ERROR (R74). -/
def parityError (d : Dev) (dma : Bool) : Dev := d.onQueues fun d => d.requestReset (if dma then 18 else 19) .ordinary

end Dev

/-! ### Meanings -/

/-- PERST_ASSERT (R74). -/
def execPerstAssert (p : Port) (s : State) : Host.Outcome State Fault Refusal := liftDev (fun d => d.perstOn p) s
/-- PERST_DEASSERT (R67). -/
def execPerstDeassert (p : Port) (s : State) : Host.Outcome State Fault Refusal := liftDev (fun d => d.perstOff p) s
/-- PORT_RESET (R74, R386). -/
def execPortReset (p : Port) (k : PortResetKind) (s : State) : Host.Outcome State Fault Refusal := liftDev (fun d => d.portReset p k) s
/-- PORT_LINK_UP (R74). -/
def execPortLinkUp (p : Port) (s : State) : Host.Outcome State Fault Refusal := liftDev (fun d => d.portLink p) s
/-- PARTITION_RESET_GO (R71, R75). -/
def execPartitionResetGo (w : Word) (s : State) : Host.Outcome State Fault Refusal := liftQueueBuf s fun d b => d.partGo b w.toNat
/-- ORDERLY_STEP_DONE (R71). -/
def execOrderlyStepDone (n : Part) (s : State) : Host.Outcome State Fault Refusal := liftBuf (fun d b => d.orderlyDone b n) s
/-- PARTITION_READY (R71, R74). -/
def execPartitionReady (n : Part) (s : State) : Host.Outcome State Fault Refusal := liftBuf (fun d b => d.partReady b n) s
/-- CROSS_PARTITION_REPLY (R24). -/
def execCrossPartitionReply (src : Part) (epoch : BitVec 16) (recv : Fin 28) (s : State) : Host.Outcome State Fault Refusal :=
  liftDev (fun d => d.crossReply src epoch recv) s
/-- CROSS_PARTITION_REQUEST (R24, R72). -/
def execCrossPartitionRequest (target : Part) (epoch : BitVec 16) (s : State) : Host.Outcome State Fault Refusal :=
  liftDev (fun d => d.crossRequest target epoch) s
/-- SERVICE_PROCESSOR_WATCHDOG (R74). -/
def execServiceProcessorWatchdog (s : State) : Host.Outcome State Fault Refusal := liftDev Dev.svcWatchdog s
/-- INTERNAL_PARITY_ERROR (R74). -/
def execInternalParityError (dma : Bool) (s : State) : Host.Outcome State Fault Refusal := liftDev (fun d => d.parityError dma) s

end Sys2Proof.Machine
end

