-- ==== Sys2Proof/Machine/Sled.lean ====
section
/-! DEFINITION. The sled (R201–R224): the 40 kHz period with its profile, following, homing and coil voltages, limit switches,
stops and resumes. -/
namespace Sys2Proof.Machine
namespace Dev

/-- MSTEP as a fraction of nm (R202): numerator and denominator. -/
def mstep (d : Dev) (m : Mech) : Int × Int :=
  let r := d.srec m 0x51
  ((r.f 2 0 16 * 1000 : Nat), (max 1 (r.f 2 16 16 * 256) : Nat))

/-- Travel of one 25 µs period at a velocity, in the units of `SldX.pos`. -/
def periodSteps (d : Dev) (m : Mech) (vel : Int) : Int :=
  let k := d.mstep m
  if k.1 = 0 then 0 else vel * 25 * ustep * k.2 / (1000000 * k.1)

/-- JERK in nm/s³ (R209). -/
def jerkOf (d : Dev) (m : Mech) : Int := 1000000000 * (max 1 (d.get (Reg.SLD_LIM1_JERK m)) : Nat)
/-- AMAX in nm/s². -/
def amaxOf (d : Dev) (m : Mech) : Int := 1000000 * (max 1 (d.get (Reg.SLD_LIM0_AMAX m)) : Nat)

/-- Distance in which a speed is braked to zero (R209), nm. -/
def stopDist (d : Dev) (m : Mech) (u : Int) : Int :=
  let a := d.amaxOf m
  let j := d.jerkOf m
  if a * a ≤ u * j then u * u / (2 * a) + u * a / (2 * j) else (isqrt (u * u * u / j).toNat : Nat)

/-- Whether a switch asserted by LIM lies in the direction of `v` (R217). -/
def blocked (d : Dev) (m : Mech) (v : Int) : Bool :=
  (decide (v < 0) && d.bit (Reg.SLD_STATE_LIM m) 0) || (decide (0 < v) && d.bit (Reg.SLD_STATE_LIM m) 1)

/-- Ends a stop at zero speed (R208, R219, R220): STOPPED. -/
def sldStopped (d : Dev) (m : Mech) : Dev :=
  let x := (d.mx m).sld
  let d := (d.modSld m fun y => { y with vel := 0, acc := 0, stopping := false, limStop := false, limMove := false, stopOp := false }).set
    (Reg.SLD_STATE_REVERSING m) 0
  (if x.stopOp then d.set (Reg.SLD_CMDSTAT_RESULT m) 2 else d).sldMode m 4

/-- A stop on a switch has ended in FOLLOW: HOLD (R208). -/
def followStopped (d : Dev) (m : Mech) : Dev :=
  (d.modSld m fun x => { x with vel := 0, acc := 0, limStop := false, limMove := false }).sldMode m 1

/-- A stop on a switch begins (R217): ramp mode brakes at LIM_DECEL; hard mode stops in this period and holds at I_RUN. A move is kept
and does not resume by itself (R219). -/
def limitStop (d : Dev) (m : Mech) (outer : Bool) : Dev :=
  let st := d.get (Reg.MCH_STATE_STATE m)
  let follow := decide (d.get (Reg.SLD_STATE_MODE m) = 3)
  let d := if follow then d
    else ((d.modSld m fun x => { x with keptState := st }).set (Reg.SLD_STATE_KEPT m) 1).set (Reg.SLD_STATE_UV_WAIT m) 0
  if d.on (if outer then Reg.SLD_PARK_OUTER_MODE m else Reg.SLD_PARK_INNER_MODE m) then
    d.modSld m fun x => { x with limStop := true, limMove := false, stopping := false, acc := 0 }
  else
    let d := d.sldLose m
    (if follow then d.followStopped m else d.sldStopped m).modSld m fun x => { x with hardHold := true }

/-- Takes a new velocity and acceleration; REVERSING clears where the velocity changes sign or reaches 0 (R211). -/
def takeVel (d : Dev) (m : Mech) (v a : Int) : Dev :=
  let x := (d.mx m).sld
  let d := if v * x.vel ≤ 0 then d.set (Reg.SLD_STATE_REVERSING m) 0 else d
  d.modSld m fun y => { y with pos := y.pos + d.periodSteps m v, vel := v, acc := a }

/-- One period of a ramp stop on a switch (R217): LIM_DECEL without a jerk limit; at zero speed the stop ends, or the move given since goes
on. -/
def rampStep (d : Dev) (m : Mech) : Dev :=
  let x := (d.mx m).sld
  let dec : Int := 25 * (d.get (Reg.SLD_LIM1_LIM_DECEL m) : Nat)
  if dec < x.vel.natAbs then
    if 0 < x.vel then d.takeVel m (x.vel - dec) (-dec * 40000) else d.takeVel m (x.vel + dec) (dec * 40000)
  else if d.get (Reg.SLD_STATE_MODE m) = 3 then d.followStopped m
  else if x.limMove then (d.takeVel m 0 0).modSld m fun y => { y with limStop := false, limMove := false }
  else d.sldStopped m

/-- Velocity and acceleration of the next period, the acceleration moving toward `goal` by at most JERK × dt and the speed bounded by VMAX
(R209). -/
def jerkStep (d : Dev) (m : Mech) (goal : Int) : Int × Int :=
  let x := (d.mx m).sld
  let j := d.jerkOf m
  let vmax : Int := 10000 * (d.get (Reg.SLD_LIM0_VMAX m) : Nat)
  let a := x.acc + clampInt (-(j / 40000)) (j / 40000) (goal - x.acc)
  (clampInt (-vmax) vmax (x.vel + a / 40000), a)

/-- One period of braking at AMAX and JERK to zero speed (R219). -/
def brakeStep (d : Dev) (m : Mech) : Dev :=
  let x := (d.mx m).sld
  let vc := d.sldVc m
  let (v, a) := d.jerkStep m (if 0 < vc then -d.amaxOf m else if vc < 0 then d.amaxOf m else 0)
  if v = 0 ∨ v * x.vel < 0 ∨ x.vel = 0 then d.sldStopped m else d.takeVel m v a

/-- One period of PROFILE (R209, R217, R219). -/
def profileStep (d : Dev) (m : Mech) : Dev :=
  let x := (d.mx m).sld
  let k := d.mstep m
  let gap := x.target * ustep - x.pos
  let dist := gap * k.1 / (k.2 * ustep)
  let dir : Int := if x.vel ≠ 0 then x.vel else gap
  let amax := d.amaxOf m
  let j := d.jerkOf m
  let vmax : Int := 10000 * (d.get (Reg.SLD_LIM0_VMAX m) : Nat)
  let vc := d.sldVc m
  if x.limStop then d.rampStep m
  else if d.blocked m dir then if x.vel = 0 then (d.limitStop m (decide (0 < dir))).sldStopped m else d.limitStop m (decide (0 < dir))
  else
    if x.stopping then d.brakeStep m
    else
      let creep : Int := 10000 * (d.get (Reg.SLD_CFG_V_CREEP m) : Nat)
      if dist.natAbs * k.2.natAbs ≤ d.get (Reg.SLD_CFG_APPROACH m) * k.1.natAbs ∧ x.vel.natAbs ≤ creep then
        if dist.natAbs * 40000 ≤ creep then
          let d := d.takeVel m (dist * 40000) 0
          d.modSld m fun y => { y with pos := y.target * ustep }
        else d.takeVel m (if 0 < gap then creep else -creep) 0
      else
        let stop := d.stopDist m vc.natAbs + ((x.vel.natAbs + vc.natAbs : Nat) : Int) * x.acc.natAbs / (2 * j)
        let goal : Int :=
          if vc * gap < 0 ∨ dist.natAbs ≤ stop then if 0 < vc then -amax else if vc < 0 then amax else 0
          else if vc.natAbs < vmax then if 0 < gap then amax else -amax
          else 0
        let (v, a) := d.jerkStep m goal
        d.takeVel m v a

/-- Moves a velocity towards a goal by at most AMAX in the period. -/
def towards (d : Dev) (m : Mech) (v goal : Int) : Int := v + clampInt (-(d.amaxOf m / 40000)) (d.amaxOf m / 40000) (goal - v)

/-- Spiral feed-forward (R212), nm/s: 4.8 µm a revolution, while FSQ_STAT.RUN reads 1. -/
def spiralFf (d : Dev) (m : Mech) : Int := if d.on (Reg.FSQ_STAT_RUN m) then 40 * ((d.mx m).spn.speed.natAbs : Int) else 0

/-- One period of FOLLOW (R212). -/
def followStep (d : Dev) (m : Mech) : Dev :=
  let u : Int := match (d.loopsOf m [5]).head? with
    | some n => d.getS (Reg.SRV_LOUT_OUT m n)
    | none => 0
  let ff := d.spiralFf m
  let d := (d.setS (Reg.SLD_VCMD_LOOP m) u).setS (Reg.SLD_VCMD_FF m) (sat16 (ff / 10000))
  let x := (d.mx m).sld
  let v := d.towards m x.vel (10000 * u + ff)
  let p := x.pos / ustep
  let v := if (v < 0 ∧ p ≤ d.get (Reg.SLD_SOFT_LO_SOFT_LO m)) ∨ (0 < v ∧ (d.get (Reg.SLD_SOFT_HI_SOFT_HI m) : Int) ≤ p) ∨ d.blocked m v then 0 else v
  if x.limStop then d.rampStep m else d.takeVel m v ((v - x.vel) * 40000)

/-- Homing fails (R214): OFF with HOMED 0; an INIT ends FAILED. -/
def homingFailed (d : Dev) (m : Mech) (case : Nat) : Dev :=
  let d := d.elogAdd (0x40 + m.val) 0x0A 0x0A0A [(16, 1, case), (20, 4, ofSigned 32 (d.sledPos m))]
  let d := (d.sldLose m).modSld m fun x => { x with homeStep := 0, after := none, vel := 0, acc := 0, stopping := false }
  let d := ((d.set (Reg.SLD_STATE_HOMED m) 0).sldEvent m Reg.SLD_EVENT_HOME_FAIL).sldMode m 0
  if (d.mx m).mch.init = .homing then (d.endCmd m 5).modMch m fun x => { x with init := .none } else d

/-- Travel since the present step of the homing began, nm. -/
def homeTravel (d : Dev) (m : Mech) : Nat :=
  let x := (d.mx m).sld
  let k := d.mstep m
  ((x.pos - x.homeFrom) * k.1 / (k.2 * ustep)).natAbs

/-- Whether the homing has failed by its travel (R214): case 1, no inner switch within TRAVEL_UM + 2 mm; case 3, step 3 not complete within
2 mm. Case 2, an assertion of the outer switch in step 1, fails the homing where the switch asserts (`limitOn`). -/
def homingBad (d : Dev) (m : Mech) (case : Nat) : Bool :=
  let s := (d.mx m).sld.homeStep
  match case with
  | 1 => s == 1 && decide ((((d.srec m 0x51).f 0 0 16) + 2000) * 1000 ≤ d.homeTravel m)
  | 3 => s == 3 && decide (2000000 ≤ d.homeTravel m)
  | _ => false

/-- One period of HOMING (R214): no motion while both switches are asserted (R218); one that was stopped brakes (R219). -/
def homingStep (d : Dev) (m : Mech) : Dev :=
  let x := (d.mx m).sld
  let v : Int := 10000 * ((d.srec m 0x51).f 10 16 16 : Nat)
  let go (w : Int) : Dev := d.takeVel m w ((w - x.vel) * 40000)
  if x.stopping then d.brakeStep m
  else if d.get (Reg.SLD_STATE_LIM m) = 3 then d.takeVel m 0 0
  else match [1, 3].find? (d.homingBad m) with
    | some c => d.homingFailed m c
    | none => match x.homeStep with
      | 1 => go (d.towards m x.vel (-v))
      | 2 =>
        let w := d.towards m x.vel 0
        (go w).modSld m fun y => if w = 0 then { y with homeStep := 3, homeFrom := y.pos } else y
      | _ => go (d.towards m x.vel (v / 4))

/-- The electrical angle (R204, R222), 2^32 to a turn. -/
def sledAngle (d : Dev) (m : Mech) : Nat :=
  let x := (d.mx m).sld
  (((x.pos - x.phase * ustep) % (1024 * ustep)) / 1024).toNat

/-- Coil voltages of a period (R204, R205). -/
def coilDrive (d : Dev) (m : Mech) : Dev :=
  let mode := d.get (Reg.SLD_STATE_MODE m)
  if mode = 0 then
    (d.setAll [(Reg.SLD_VOUT_VA m, 0), (Reg.SLD_VOUT_VB m, 0), (Reg.SLD_STATE_VSAT m, 0)]).modSld m fun x => { x with dutyA := none, dutyB := none }
  else
    let r := d.srec m 0x51
    let x := (d.mx m).sld
    let i : Int := if mode = 2 ∨ mode = 3 ∨ mode = 5 ∨ x.hardHold then (r.f 4 0 16 : Nat) else (r.f 4 16 16 : Nat)
    let res : Int := (r.f 3 0 16 : Nat) * (1600000 + 393 * (d.hottest.getD 400 - 400))
    let k := d.mstep m
    let ri := res * i / 1600000
    let wl := 2 * (Img.piNum : Int) * x.vel * k.2 * (r.f 3 16 16 : Nat) * i / ((Img.piDen : Int) * 1024 * (max 1 k.1) * 1000)
    let q := wl + (r.f 5 0 16 : Nat) * x.vel / 1000000
    let cs := cosSin (d.sledAngle m)
    let va := (ri * cs.1 - q * cs.2) / 1073741824
    let vb := (ri * cs.2 + q * cs.1) / 1073741824
    let vbus : Int := if (d.mx m).spn.busBad then 24000000 else 10000 * (d.get (Reg.SPN_BUS_VBUS m) : Nat)
    let top : Int := (max va.natAbs vb.natAbs : Nat)
    let sat := decide (vbus < top)
    let fit (v : Int) : Int := if sat then Int.tdiv (v * vbus) top else v
    let duty (v : Int) : Option (Nat × Nat) := some ((vbus + fit v).toNat, (2 * vbus).toNat)
    let d := d.modSld m fun x => { x with dutyA := duty va, dutyB := duty vb }
    let d := ((d.setS (Reg.SLD_VOUT_VA m) (sat16 (fit va / 1000))).setS (Reg.SLD_VOUT_VB m) (sat16 (fit vb / 1000))).setB (Reg.SLD_STATE_VSAT m) sat
    if sat then d.sldEvent m Reg.SLD_EVENT_VSAT else d

/-- While the sled loop is disabled its last output follows the commanded velocity (R213). -/
def mirrorLoop (d : Dev) (m : Mech) : Dev :=
  (d.loopsOf m [5]).foldl (fun d n => if d.loopOn m n then d else d.setS (Reg.SRV_LOUT_OUT m n) (sat16 ((d.mx m).sld.vel / 10000))) d

/-! ### Ends of motion -/

/-- What MCH and a seek make of a completed move (R86, R89, R152): step 4 of the seek, for which the coarse output has been ramped to 0;
the end of INIT, or rest. -/
def moveEnded (d : Dev) (m : Mech) : Dev :=
  let x := (d.mx m).sld
  if x.seekMove ∧ (d.mx m).opt.seek = .sledMove then
    let s := d.sledSwath m
    let t : Int := d.get (Reg.SRV_SEEK_STAT_TARGET m)
    let d := (d.loopsOf m [2]).foldl (fun d n => d.setS (Reg.SRV_LOUT_OUT m n) 0) d
    d.modOpt m fun y => { y with swath := s, seek := .short, tracks := (t - s) * 16 }
  else if ¬ d.atPark m ∨ d.rotationSeen m ∨ d.spnClass m ≠ 0 then d
  else match d.mstate m with
    | .off => if (d.mx m).mch.init = .homing then d.initDone m else d
    | .spinningDown => if (d.mx m).mch.init = .none then d.parkDone m else d
    | .fault => d.set (Reg.MCH_STATE_AT_REST m) 1
    | _ => d

/-- A move completes when p equals the target and v is 0 (R210): HOLD; a move that waited for a homing then follows (R221). -/
def sledMoveDone (d : Dev) (m : Mech) : Dev :=
  let x := (d.mx m).sld
  if d.get (Reg.SLD_STATE_MODE m) ≠ 2 ∨ x.stopping ∨ x.limStop ∨ x.pos ≠ x.target * ustep ∨ x.vel ≠ 0 then d
  else
    let d := (d.modSld m fun y => { y with acc := 0, after := none }).set (Reg.SLD_STATE_REVERSING m) 0
    let d := ((d.count (Reg.SLD_MOVE_CNT_MOVES m)).sldEvent m Reg.SLD_EVENT_DONE).sldMode m 1
    match x.after with
    | some t => if t = x.target then d.moveEnded m else d.sldMove m t x.seekMove
    | none => d.moveEnded m

/-- One 40 kHz period (R204, R205, R209, R210, R212–R214). -/
def sledPeriod (d : Dev) (m : Mech) : Dev :=
  let d := match d.get (Reg.SLD_STATE_MODE m) with
    | 2 => (d.profileStep m).sledMoveDone m
    | 3 => d.followStep m
    | 5 => d.homingStep m
    | _ => d
  ((d.coilDrive m).mirrorLoop m).sldPublish m

/-- HOLD_MS after motion ended at the park position of a mechanism at rest (R206). -/
def holdExpiry (d : Dev) (m : Mech) : Dev :=
  if d.get (Reg.SLD_STATE_MODE m) = 1 ∧ d.atPark m ∧ (d.mstate m = .parked ∨ d.mstate m = .exchange) then d.sldMode m 0 else d

/-! ### Homing and limit switches -/

/-- HOMING begins (R208, R214): for INIT or a park move with HOMED 0; one in progress goes on. -/
def homingStart (d : Dev) (m : Mech) : Dev :=
  let mode := d.get (Reg.SLD_STATE_MODE m)
  if mode = 5 ∨ mode = 2 ∨ mode = 3 ∨ d.on (Reg.SLD_STATE_HOMED m) then d else d.sldHome m none

/-- HOMING_FAIL (R214): the homing has failed by its travel. -/
def homingFail (d : Dev) (m : Mech) (case : Nat) : Dev :=
  if d.get (Reg.SLD_STATE_MODE m) = 5 ∧ ¬ (d.mx m).sld.stopping ∧ d.homingBad m case then d.homingFailed m case else d

/-- The last changes of a raw switch, newest first. -/
def limEdgesOf (d : Dev) (m : Mech) (outer : Bool) : List Nat :=
  let e := d.ox.limEdges[m.val]
  if outer then e.2 else e.1

/-- Whether a raw switch has read `on` in every Ox frame for `us` µs (R216). -/
def limStable (d : Dev) (m : Mech) (outer on : Bool) (us : Nat) : Bool :=
  d.bit (Reg.OXA_MECH_LIMIT m) (b2n outer) == on && decide (us * 1000 ≤ d.ox.tox - (d.limEdgesOf m outer).headD 0)

/-- A stop of the motion toward an asserted switch (R217). -/
def limitMotion (d : Dev) (m : Mech) (outer : Bool) : Dev :=
  let x := (d.mx m).sld
  let mode := d.get (Reg.SLD_STATE_MODE m)
  if (mode = 2 ∨ mode = 3) ∧ ¬ x.limStop ∧ d.blocked m x.vel then d.limitStop m outer else d

/-- Both switches asserted together (R218): both act as asserted, and the mechanism faults. -/
def limitsTogether (d : Dev) (m : Mech) : Dev :=
  let d := (d.set (Reg.SLD_STATE_LIM m) 3).vlogAdd (0x20 + m.val) 0x0601 4 [(0, 1, 2)]
  let d := (d.sldEvent m Reg.SLD_EVENT_LIM_IN).sldEvent m Reg.SLD_EVENT_LIM_OUT
  (d.limitMotion m (decide (0 < (d.mx m).sld.vel))).raiseFault m 7

/-- A switch counts as asserted from now on (R214, R217, R218). -/
def limitOn (d : Dev) (m : Mech) (outer : Bool) : Dev :=
  let k := b2n outer
  if d.bit (Reg.SLD_STATE_LIM m) k then d
  else
    let d := d.setBit (Reg.SLD_STATE_LIM m) k true
    if d.get (Reg.SLD_STATE_LIM m) = 3 then d.limitsTogether m
    else if d.get (Reg.SLD_STATE_MODE m) = 5 then
      let x := (d.mx m).sld
      if x.stopping ∨ x.homeStep ≠ 1 then d
      else if outer then d.homingFailed m 2
      else d.modSld m fun x => if x.vel = 0 then { x with homeStep := 3, homeFrom := x.pos } else { x with homeStep := 2 }
    else
      let d := (d.sldEvent m (if outer then Reg.SLD_EVENT_LIM_OUT else Reg.SLD_EVENT_LIM_IN)).limitMotion m outer
      if d.mstate m = .off then d else d.raiseFault m 7

/-- LIMIT_SWITCH_ASSERT: a switch has read asserted for DEBOUNCE (R216). -/
def limitAssert (d : Dev) (m : Mech) (outer : Bool) : Dev :=
  if d.limStable m outer true (d.get (Reg.SLD_CFG2_DEBOUNCE m)) then d.limitOn m outer else d

/-- LIMIT_SWITCH_DEASSERT (R214 step 3, R216, R218): a switch has read deasserted for DEBOUNCE, or one that chattered for 10 ms; in homing
step 3 the inner switch's is the home reference. -/
def limitDeassert (d : Dev) (m : Mech) (outer : Bool) : Dev :=
  let long := (d.mx m).sld.chatter[b2n outer]'(by cases outer <;> decide)
  if ¬ d.limStable m outer false (if long then 10000 else d.get (Reg.SLD_CFG2_DEBOUNCE m)) then d else
  let d := (d.setBit (Reg.SLD_STATE_LIM m) (b2n outer) false).modSld m fun x =>
    { x with chatter := x.chatter.set (b2n outer) false (by cases outer <;> decide) }
  if ¬ outer ∧ d.get (Reg.SLD_STATE_MODE m) = 5 ∧ (d.mx m).sld.homeStep = 3 ∧ ¬ (d.mx m).sld.stopping then
    let a := (d.mx m).sld.after
    let sm := (d.mx m).sld.seekMove
    let d := d.modSld m fun x => { x with pos := 0, phase := 0, homeStep := 0, after := none }
    let d := (d.set (Reg.SLD_STATE_HOMED m) 1).sldEvent m Reg.SLD_EVENT_HOME_DONE
    (d.sldMove m (d.get (Reg.SLD_PARK_PARK_POS m)) sm).modSld m fun x => { x with after := a }
  else d

/-- BOTH_LIMITS_ASSERTED (R217, R218): both switches have read asserted for DEBOUNCE, and the violation is not yet noted. -/
def bothLimits (d : Dev) (m : Mech) : Dev :=
  let us := d.get (Reg.SLD_CFG2_DEBOUNCE m)
  if d.get (Reg.SLD_STATE_LIM m) ≠ 3 ∧ d.limStable m false true us ∧ d.limStable m true true us then d.limitsTogether m else d

/-- LIMIT_CHATTER (R218): more than 16 changes of one switch within 1 ms; it counts as asserted until it has been stable for 10 ms. -/
def limitChatter (d : Dev) (m : Mech) (outer : Bool) : Dev :=
  let l := d.limEdgesOf m outer
  if l.length < 17 ∨ l.getD 16 0 + 1000000 < l.headD 0 then d
  else
    let d := (d.vlogAdd (0x20 + m.val) 0x0602 4 [(0, 1, b2n outer)]).modSld m fun x =>
      { x with chatter := x.chatter.set (b2n outer) true (by cases outer <;> decide) }
    d.limitOn m outer

/-! ### Commands -/

/-- A command outside its conditions (R220). -/
def sldConflict (d : Dev) (m : Mech) (op : Nat) : Dev :=
  (d.setAll [(Reg.SLD_CMDSTAT_RESULT m, 3), (Reg.SLD_CMDSTAT_OP m, op)]).vlogAdd 0x14 0x0603 0

/-- STOP (R219, R220): in PROFILE only. -/
def sldOpStop (d : Dev) (m : Mech) : Dev :=
  if d.get (Reg.SLD_STATE_MODE m) = 2 then
    ((d.sldStop m).setAll [(Reg.SLD_CMDSTAT_RESULT m, 1), (Reg.SLD_CMDSTAT_OP m, 1)]).modSld m fun x => { x with stopOp := true }
  else d.sldConflict m 1

/-- The kept move goes on. -/
def resumeMove (d : Dev) (m : Mech) : Dev :=
  ((d.setAll [(Reg.SLD_STATE_KEPT m, 0), (Reg.SLD_STATE_UV_WAIT m, 0)]).modSld m fun x => { x with stopping := false, limStop := false, limMove := false }).sldMode m 2

/-- RESUME (R220). -/
def sldOpResume (d : Dev) (m : Mech) : Dev :=
  let x := (d.mx m).sld
  if d.get (Reg.SLD_STATE_MODE m) = 4 ∧ d.on (Reg.SLD_STATE_KEPT m) ∧ d.on (Reg.SLD_STATE_HOMED m) ∧
      ¬ d.blocked m (x.target * ustep - x.pos) ∧ x.keptState = d.get (Reg.MCH_STATE_STATE m) then
    (d.setAll [(Reg.SLD_CMDSTAT_RESULT m, 2), (Reg.SLD_CMDSTAT_OP m, 2)]).resumeMove m
  else d.sldConflict m 2

/-- UV has been clear for 10 ms (R219): the move that it stopped goes on, unless a new one came first; after a homing where the position
has been lost (R221). -/
def uvResume (d : Dev) (m : Mech) : Dev :=
  let mode := d.get (Reg.SLD_STATE_MODE m)
  if d.on (Reg.SLD_STATE_UV_WAIT m) ∧ d.on (Reg.SLD_STATE_KEPT m) ∧ ¬ d.on (Reg.SPN_STATE_UV m) ∧ (mode = 4 ∨ mode = 2) then
    let x := (d.mx m).sld
    if d.on (Reg.SLD_STATE_HOMED m) then d.resumeMove m else d.sldMove m x.target x.seekMove
  else d

/-- A write of SLD_CMD (R220): an OP other than STOP and RESUME is BAD_ARG. -/
def sldCmd (d : Dev) (m : Mech) (w : Nat) : Dev := match w % 16 with
  | 1 => d.sldOpStop m
  | 2 => d.sldOpResume m
  | op => d.setAll [(Reg.SLD_CMDSTAT_RESULT m, 4), (Reg.SLD_CMDSTAT_OP m, op)]

end Dev

/-! ### Meanings -/

/-- SLED_PWM_PERIOD (R209). -/
def execSledPwmPeriod (m : Mech) (s : State) : Host.Outcome State Fault Refusal := liftMech m (fun d => d.sledPeriod m) s
/-- SLED_MOVE_DONE (R210). -/
def execSledMoveDone (m : Mech) (s : State) : Host.Outcome State Fault Refusal := liftMech m (fun d => d.sledMoveDone m) s
/-- LIMIT_SWITCH_ASSERT (R217). -/
def execLimitSwitchAssert (m : Mech) (outer : Bool) (s : State) : Host.Outcome State Fault Refusal :=
  liftMech m (fun d => d.limitAssert m outer) s
/-- LIMIT_SWITCH_DEASSERT (R214). -/
def execLimitSwitchDeassert (m : Mech) (outer : Bool) (s : State) : Host.Outcome State Fault Refusal :=
  liftMech m (fun d => d.limitDeassert m outer) s
/-- BOTH_LIMITS_ASSERTED (R218). -/
def execBothLimitsAsserted (m : Mech) (s : State) : Host.Outcome State Fault Refusal := liftMech m (fun d => d.bothLimits m) s
/-- LIMIT_CHATTER (R218). -/
def execLimitChatter (m : Mech) (outer : Bool) (s : State) : Host.Outcome State Fault Refusal :=
  liftMech m (fun d => d.limitChatter m outer) s
/-- HOMING (R214). -/
def execHoming (m : Mech) (s : State) : Host.Outcome State Fault Refusal := liftMech m (fun d => d.homingStart m) s
/-- HOMING_FAIL (R214). -/
def execHomingFail (m : Mech) (case : Fin 4) (s : State) : Host.Outcome State Fault Refusal :=
  liftMech m (fun d => d.homingFail m case.val) s
/-- STOP (R220): SLD_CMD with OP 1. -/
def execSledStop (m : Mech) (s : State) : Host.Outcome State Fault Refusal :=
  liftDev (fun d => d.mechWrite m 0x830004 fun d => d.sldOpStop m) s
/-- RESUME (R220): SLD_CMD with OP 2. -/
def execSledResume (m : Mech) (s : State) : Host.Outcome State Fault Refusal :=
  liftDev (fun d => d.mechWrite m 0x830004 fun d => d.sldOpResume m) s
/-- SLD_UNKNOWN_OP (R220): an OP other than 1 and 2; the operand 1 or 2 is no unknown OP and acts as that command. -/
def execSldUnknownOp (m : Mech) (op : BitVec 4) (s : State) : Host.Outcome State Fault Refusal :=
  liftDev (fun d => d.mechWrite m 0x830004 fun d => d.sldCmd m op.toNat) s
/-- SLED_HOLD_EXPIRY (R206). -/
def execSledHoldExpiry (m : Mech) (s : State) : Host.Outcome State Fault Refusal := liftMech m (fun d => d.holdExpiry m) s
/-- UV_RESUME (R219). -/
def execUvResume (m : Mech) (s : State) : Host.Outcome State Fault Refusal := liftMech m (fun d => d.uvResume m) s

end Sys2Proof.Machine
end

