-- ==== Sys2Proof/Machine/Registers.lean ====
section
/-! DEFINITION. BAR0 and BAR2 (R5–R10, R483–R488): the regions of the map, reads and writes of registers by their access codes, what
the registers with a behaviour of their own do, and the BAR2 window. -/
namespace Sys2Proof.Machine
namespace Dev

/-! ### The map (R483, R484) -/

/-- What lies at a BAR0 offset: the registers of a block and the partition that governs it; the HQ block of the accessing port; or
nothing. -/
inductive Region where
  | block (part : Option Part) (specs : List RegSpec)
  | hq
  | none

/-- The blocks of a mechanism's window, by offset within it (R484). -/
def mechBlock (r : Nat) : Option (List RegSpec) :=
  if r < 0x10000 then some blockMCH
  else if r < 0x20000 then some blockSRV
  else if r < 0x30000 then some blockSPN
  else if r < 0x40000 then some blockSLD
  else if r < 0x50000 then some blockHLK
  else if r < 0x60000 then some blockFSQ
  else if r < 0x70000 then some blockWCH
  else if r < 0x80000 then none
  else if r < 0x90000 then some blockRCH
  else if r < 0xC0000 then none
  else if r < 0xD0000 then some blockGPE
  else if r < 0xE0000 then some blockDRT
  else none

/-- The region of an offset. Queue-pair registers belong to their port's partition, channel registers to their buffer group (R21). -/
def regionOf (off : Nat) : Region :=
  if off < 0x10000 then .block none blockID
  else if off < 0x20000 then .block none blockGCTL
  else if off < 0x40000 then .block none blockOXA
  else if off < 0x100000 then .hq
  else if off < 0x200000 then
    .block (if 0x101000 ≤ off ∧ off < 0x102000 then some 16 else if 0x102000 ≤ off ∧ off < 0x103000 then some 17 else none) blockQE
  else if off < 0x300000 then .block (some 19) blockMDC
  else if off < 0x400000 then .block (some 18) blockDMA
  else if off < 0x500000 then
    .block (if 0x401000 ≤ off ∧ off < 0x401600 then some ⟨20 + (off - 0x401000) / 0x100 % 6, by omega⟩ else none) blockBUF
  else if off < 0x600000 then .block none []
  else if off < 0x700000 then .block none blockSEC
  else if off < 0x800000 then .block (some 26) blockARC
  else if off < 0x1800000 then
    match mechBlock ((off - 0x800000) % 0x100000) with
    | some s => .block (some ⟨(off - 0x800000) / 0x100000 % 16, by omega⟩) s
    | none => .none
  else .none

/-- The partition that governs an offset, as the accessing port sees it. -/
def partOf (p : Option Port) (off : Nat) : Option Part := match regionOf off with
  | .block part _ => part
  | .hq => p.map portPart
  | .none => if 0x800000 ≤ off ∧ off < 0x1800000 then some ⟨(off - 0x800000) / 0x100000 % 16, by omega⟩ else none

/-- Whether an offset within an array of registers is that of one of its elements. -/
def dimsHit : List (Nat × Nat) → Nat → Bool
  | [], r => r == 0
  | (c, s) :: t, r => (List.range c).any fun i => decide (s * i ≤ r) && dimsHit t (r - s * i)

/-- The fields of the register at an offset. -/
def fieldsAt (off : Nat) : List Field := match regionOf off with
  | .block _ specs => match specs.find? (fun s => decide (s.base ≤ off) && dimsHit s.dims (off - s.base)) with
    | some s => s.fields.map (fun f => ⟨off, f.lo, f.width, f.reset, f.acc⟩)
    | none => []
  | _ => []

/-! ### Reads -/

/-- The value that the fields of a register show; write-only fields read 0 (R7, R8). -/
def plainWord (d : Dev) (off : Nat) : Nat :=
  ((fieldsAt off).map (fun f => if f.acc = .WO then 0 else d.get f * 2 ^ f.lo)).foldl (· + ·) 0

/-- Whether a MIN_SELECT group of a sled loop is loaded in any section (R490). -/
def sledMin (d : Dev) : Bool := (List.finRange 16).any fun m => (List.finRange 25).any fun n =>
  d.loopKind m n == 5 && (d.headGroup m n).isSome

/-- The attribute word of a DRT entry (R317). -/
def drtAttr (e : DrtEntry) : Nat := e.kind % 8 + 8 * b2n e.persisted + 16 * b2n e.marginal + 32 * (e.copies % 4) + 256 * (e.rung % 8)

/-- A word of a ring of 32-byte entries. -/
def ringWord (entries : List (Nat × List Byte)) (o : Nat) : Nat := byteField (ringBytes 32 (o / 32) entries) (o % 32) 4

/-- The words of mechanism `m` that no register field holds, or that age: coefficients in use (R140), control-store words (R466), DRT
entries (R323), the faults of the last 600 s (R102). -/
def mechWord (d : Dev) (m : Mech) (r : Nat) : Option Nat :=
  if 0x11000 ≤ r ∧ r < 0x11640 then
    let k := r % 0x40 / 4
    let n := (r - 0x11000) / 0x40
    match (d.mx m).srv.loops[n]? with
    | some x => some (if k < 7 then x.coef.getD k 0 else 0)
    | none => none
  else if r = 0x10000 ∧ d.get (Reg.SRV_CFG_GATE_LOST m) = 0 then some (d.plainWord (0x800000 + 0x100000 * m.val + r) + 1)
  else if r = 0x2C then some (min 255 (d.recentFaults m).length + 256 * d.get (Reg.MCH_FAULT_CNT_TOTAL m))
  else if 0x50044 ≤ r ∧ r < 0x50054 then
    let b := (d.mx m).fsq.banks.toList.getD (d.get (Reg.FSQ_CS_ADDR_BANK m)) Bank.reset
    some (bits (storedWord b (d.get (Reg.FSQ_CS_ADDR_ADDR m))) (8 * (r - 0x50044)) 32)
  else if 0xD8000 ≤ r ∧ r < 0xE0000 then
    match (d.mx m).goat.drt[(r - 0xD8000) / 16]? with
    | some e => some (match r % 16 with
      | 0 => e.src
      | 4 => e.dst
      | 8 => drtAttr e
      | _ => 0)
    | none => some 0
  else none

/-- Words that no register field holds, or that are live (R63, R76, R412, R491). -/
def liveWord (d : Dev) (off : Nat) : Option Nat :=
  if 0x100 ≤ off ∧ off < 0x180 then
    let w := d.get (capField ((off - 0x100) / 16) (off % 16 / 4))
    some (if off = 0x158 then w - w % 2 + b2n (d.px .B).linkUp else if off = 0x168 then w - w % 2 + b2n d.sledMin else w)
  else if off = 0x10000 then some (d.now % 2 ^ 32)
  else if off = 0x10004 then some (d.now / 2 ^ 32 % 2 ^ 32)
  else if off = 0x10400 then some d.vlog.next
  else if 0x11000 ≤ off ∧ off < 0x13000 then some (ringWord (d.vlog.entries.map (fun e => (e.seq, vbytes e))) (off - 0x11000))
  else if off = 0x20000 then some (d.plainWord off - 4 * d.get Reg.OXA_STATE_DEPTH + 4 * d.depthNow)
  else if off = 0x20018 then some (d.ox.tox % 2 ^ 32)
  else if off = 0x2001C then some (d.ox.tox / 2 ^ 32 % 2 ^ 32)
  else if 0x701000 ≤ off ∧ off < 0x703000 then some (ringWord (d.arc.events.map (fun e => (e.seq, e.bytes))) (off - 0x701000))
  else if 0x800000 ≤ off ∧ off < 0x1800000 then d.mechWord ⟨(off - 0x800000) / 0x100000 % 16, by omega⟩ ((off - 0x800000) % 0x100000)
  else none

/-- A word of the HQ block (R353, R355): doorbells read 0; the MSI-X table, masked at reset, and the pending bits. -/
def hqWord (d : Dev) (p : Port) (off : Nat) : Nat :=
  let x := d.px p
  if 0x48000 ≤ off ∧ off < 0x48A00 then Sparse.get (if off % 16 = 12 then 1 else 0) x.msixTab (off - 0x48000)
  else if 0x4C000 ≤ off ∧ off < 0x4C014 then bits x.msixPend (8 * (off - 0x4C000)) 32
  else 0

/-- Whether an offset holds the low word of a 64-bit value (R6). -/
def pairLow (off : Nat) : Bool :=
  [0x10, 0x10000, 0x20010, 0x20018, 0x200008, 0x300000, 0x300008, 0x300010].contains off ||
  decide (0x301000 ≤ off ∧ off < 0x302000 ∧ (off % 0x40 = 0x0C ∨ off % 0x40 = 0x14)) ||
  decide (0x401000 ≤ off ∧ off < 0x401600 ∧ off % 0x40 = 0x0C) ||
  decide (0x101000 ≤ off ∧ off < 0x103000 ∧ (off % 0x20 = 0 ∨ off % 0x20 = 8))

/-- The present value of a register. -/
def wordAt (d : Dev) (p : Option Port) (off : Nat) : Nat := match regionOf off, p with
  | .hq, some p => d.hqWord p off
  | .hq, none => 0
  | .none, _ => 0
  | .block _ _, _ => (d.liveWord off).getD (d.plainWord off)

/-- A read of a register that is not IN_RESET: RC fields clear, a low word latches its high word, a latched high word is returned once
(R6, R8). -/
def regRead (d : Dev) (p : Option Port) (off : Nat) : Dev × Nat :=
  let d := if off = 0x20004C then d.tickFull else if 0x700000 ≤ off ∧ off < 0x800000 then d.arcSync else d
  let v := match Sparse.lookup d.latches off with
    | some v => v
    | none => d.wordAt p off
  let d := { d with latches := Sparse.erase d.latches off }
  let d := if pairLow off then { d with latches := Sparse.insert (Sparse.erase d.latches (off + 4)) (off + 4) (d.wordAt p (off + 4)) } else d
  ((fieldsAt off).foldl (fun d f => if f.acc = .RC then d.set f 0 else d) d, v)

/-! ### Writes -/

/-- Whether the RWL fields are locked: an image has been loaded (R8, R46). -/
def locked (d : Dev) : Bool := decide (d.img.globals ≠ [])

/-- Writes the fields of a register by their access codes (R8); a change that a locked field refuses is logged. -/
def plainWrite (d : Dev) (off w : Nat) : Dev :=
  let fs := fieldsAt off
  let refused := d.locked && fs.any (fun f => f.acc == .RWL && d.get f != bits w f.lo f.width)
  let d1 := fs.foldl (fun d f =>
    let v := bits w f.lo f.width
    match f.acc with
    | .RW => d.set f v
    | .RW1C => d.set f (andNot (d.get f) v)
    | .W1S => d.set f (d.get f ||| v)
    | .RWL => if d.locked then d else d.set f v
    | _ => d) d
  if refused then d1.vlogAdd 0x14 0x0E04 0 [(0, 4, off), (4, 4, w)] else d1

/-- Fires the pending vectors that are no longer masked (R350, R353). -/
def firePending (d : Dev) (p : Port) : Dev :=
  let pend := (d.px p).msixPend
  (List.range 160).foldl (fun d v => if tbit pend v then (d.modPort p fun x => { x with msixPend := clrb x.msixPend v }).fire p v else d) d

/-- A write to the HQ block of port `p` (R353, R355). -/
def hqWrite (d : Dev) (p : Port) (off w : Nat) : Dev :=
  if 0x48000 ≤ off ∧ off < 0x48A00 then
    let k := off - 0x48000
    let (dflt, v) := if k % 16 = 12 then (1, w % 2) else if k % 16 = 0 then (0, w - w % 4) else (0, w)
    (d.modPort p fun x => { x with msixTab := Sparse.put dflt x.msixTab k v }).firePending p
  else if off < 0x40800 then
    let q : Pair := ⟨(off - 0x40000) / 16 % 128, Nat.mod_lt _ (by decide)⟩
    match off % 16 with
    | 0 => d.sqDoorbell p q w
    | 4 => d.cqDoorbell p q w
    | 8 => d.restart p q w
    | _ => d
  else d

/-- A write to the QE block (R354, R356, R388): the ring registers of a pair only while it is disabled; EN enables or disables it. -/
def qeWrite (d : Dev) (off w : Nat) : Dev :=
  if 0x101000 ≤ off ∧ off < 0x103000 then
    let p : Port := if off < 0x102000 then .A else .B
    let q : Pair := ⟨off % 0x1000 / 0x20 % 128, Nat.mod_lt _ (by decide)⟩
    let k := off % 0x20
    if k = 0x14 then (if tbit w 0 then d.enable p q else d.disable p q)
    else if k ≤ 0x10 ∧ d.get (Reg.QE_QCTL_STATE p q) ≠ 0 then d.violation p q.val 0x0A04 0 w
    else d.plainWrite off w
  else d.plainWrite off w

/-- A write to the BUF block (R332, R347, R348). -/
def bufWrite (d : Dev) (off w : Nat) : Dev :=
  if off = Reg.BUF_RETIRE_CH.off then d.retireGo w
  else ((d.plainWrite off w).pauseSync .A).pauseSync .B

/-- A write to the MDC block (R438–R443). -/
def mdcWrite (d : Dev) (b : Memory) (off w : Nat) : Dev × Memory :=
  if off = 0x200000 then
    let d := d.set Reg.MDC_CTL_PREFETCH (bits w 1 1)
    (if tbit w 0 then d.mdcOn else d.mdcOff, b)
  else if off = 0x200014 then
    if d.get Reg.MDC_MAINT_STAT_RESULT = 1 ∧ tbit w 31 then d.maintGo b (bits w 0 3)
    else
      let d := d.plainWrite off w
      if tbit w 31 then d.maintGo b (bits w 0 3) else (d, b)
  else (d.plainWrite off w, b)

/-- A write to the DMA block (R415, R424, R425, R430). -/
def dmaWrite (d : Dev) (off w : Nat) : Dev :=
  if 0x301000 ≤ off ∧ off < 0x302000 then
    let n : DmaCh := ⟨(off - 0x301000) / 0x40 % 64, Nat.mod_lt _ (by decide)⟩
    match off % 0x40 with
    | 0 => d.dmaCtl n w
    | 4 => d.dmaCfgWrite n w
    | 0x0C => d.dmaPcWrite n false w
    | 0x10 => d.dmaPcWrite n true w
    | _ => d
  else d.plainWrite off w

/-- A write to the SEC block (R475, R482). -/
def secWrite (d : Dev) (off w : Nat) : Dev :=
  if off = 0x600008 then (if tbit w 31 then d.ownerGo (bits w 0 2) else d) else d.plainWrite off w

/-- LATE of a loop stands in SRV_LSTAT and in SRV_LATE_SUM; clearing one clears both (R139). -/
def syncLate (d : Dev) (m : Mech) (n : LoopId) (sum : Bool) : Dev :=
  if sum then (if d.bit (Reg.SRV_LATE_SUM_LATE m) n.val then d else d.set (Reg.SRV_LSTAT_LATE m n) 0)
  else if d.on (Reg.SRV_LSTAT_LATE m n) then d else d.setBit (Reg.SRV_LATE_SUM_LATE m) n.val false

/-- A write to the per-loop registers of a mechanism (R120, R139): a set-point written by software has no offset of Goat's left in
it. -/
def loopWrite (d : Dev) (m : Mech) (n : LoopId) (off w : Nat) : Dev :=
  if off = (Reg.SRV_LCTL_MODE m n).off then d.lctlWrite m n w
  else if off = (Reg.SRV_LSTAT_LATE m n).off then (d.plainWrite off w).syncLate m n false
  else if off = (Reg.SRV_LSETP_SETP m n).off then ((d.plainWrite off w).modLoop m n fun x => { x with swSetp := true }).modGoat m fun g => { g with offs := g.offs.filter (fun o => decide (o.1 ≠ n)) }
  else d.plainWrite off w

/-- A write to the window of mechanism `m`, at offset `r` within it. -/
def mechRegWrite (d : Dev) (m : Mech) (r w : Nat) : Dev :=
  let off := 0x800000 + 0x100000 * m.val + r
  if r = 0x4 then d.mchCmd m w false
  else if r = 0xC then (d.plainWrite off w).modMch m fun x => { x with savedAuto := none }
  else if r = 0x10 then
    let low := d.beamsLow m
    let d := d.plainWrite off w
    if low then d else d.checkBeams m
  else if h : 0x10100 ≤ r ∧ r < 0x10740 then d.loopWrite m ⟨(r - 0x10100) / 0x40 % 25, Nat.mod_lt _ (by decide)⟩ off w
  else if off = (Reg.SRV_LATE_SUM_LATE m).off then (List.finRange 25).foldl (fun d n => d.syncLate m n true) (d.plainWrite off w)
  else if r = 0x20004 then
    let d := if tbit w 0 then d.set (Reg.SPN_STATE_KE_BAD m) 0 else d
    if tbit w 1 then d.setAll [(Reg.SPN_STATE_CHOP_BAD m, 0), (Reg.SPN_STATE_LOSS_ONLY m, 0)] else d
  else if r = 0x20034 then d.dsmWrite m w
  else if r = 0x20044 then (d.plainWrite off w).endAbsorb m
  else if r = 0x30004 then d.sldCmd m w
  else if r = 0x40004 then (if tbit w 1 then d.train m true else if tbit w 0 then d.train m false else d)
  else if r = 0x40060 then d.regCmd m w
  else if r = 0x50004 then d.fsqCtl m w
  else if r = 0xD4004 then d.drtLookup m w
  else if 0xD8000 ≤ r ∧ r < 0xE0000 then d.vlogAdd 0x14 0x0801 0
  else d.plainWrite off w

/-- A write of a register that is not IN_RESET. -/
def regWrite (d : Dev) (b : Memory) (p : Option Port) (off w : Nat) : Dev × Memory := match regionOf off with
  | .none => (d.vlogAdd 0x14 0x0E01 0 [(0, 4, off)], b)
  | .hq => match p with
    | some p => (d.hqWrite p off w, b)
    | none => (d, b)
  | .block _ _ =>
    if off = 0x10100 then d.partGo b w
    else if 0x100000 ≤ off ∧ off < 0x200000 then (d.qeWrite off w, b)
    else if 0x200000 ≤ off ∧ off < 0x300000 then d.mdcWrite b off w
    else if 0x300000 ≤ off ∧ off < 0x400000 then (d.dmaWrite off w, b)
    else if 0x400000 ≤ off ∧ off < 0x500000 then (d.bufWrite off w, b)
    else if 0x600000 ≤ off ∧ off < 0x700000 then (d.secWrite off w, b)
    else if off = 0x700008 then (d.mboxWrite fun d => d.mboxCmd w, b)
    else if 0x800000 ≤ off ∧ off < 0x1800000 then
      let m : Mech := ⟨(off - 0x800000) / 0x100000 % 16, by omega⟩
      ((d.mechRegWrite m ((off - 0x800000) % 0x100000) w).settle m, b)
    else (d.plainWrite off w, b)

/-! ### Accesses through a port -/

/-- Whether a BAR access arrives through port `p`. -/
def barOpen (d : Dev) (p : Port) : Bool := d.up && !d.inReset (portPart p) && !(d.px p).d3

/-- The partition at an offset, if it is IN_RESET. -/
def downPart (d : Dev) (p : Option Port) (off : Nat) : Option Part := match partOf p off with
  | some n => if d.inReset n then some n else none
  | none => none

/-- An access of unsupported width or alignment (R5, R510). -/
def badAccess (d : Dev) (p : Port) (off firstBE lastBE : Nat) (wr : Bool) : Dev :=
  if ¬ d.barOpen p ∨ (off % 4 = 0 ∧ firstBE = 15 ∧ lastBE = 0) then d
  else (d.emit (.ur p)).vlogAdd 0x14 0x0E03 1 [(0, 4, off), (4, 1, firstBE), (5, 1, lastBE), (6, 1, b2n wr)]

/-- Byte enables of a four-byte access at an offset that is not a multiple of 4. -/
def skewBE (off : Nat) : Nat × Nat := (15 * 2 ^ (off % 4) % 16, 15 / 2 ^ (4 - off % 4))

/-- REGISTER_READ: all ones from a partition IN_RESET, logged (R486); an unimplemented region reads 0 (R485). -/
def barRead (d : Dev) (p : Port) (off : Nat) : Dev :=
  if ¬ d.barOpen p ∨ 0x8000000 ≤ off then d
  else if off % 4 ≠ 0 then d.badAccess p off (skewBE off).1 (skewBE off).2 false
  else match d.downPart (some p) off with
    | some n => (d.vlogAdd 0x14 0x0E02 1 [(0, 4, off), (4, 1, n.val)]).emit (.regRead p off 0xFFFFFFFF)
    | none =>
      let (d, v) := (d.wakePort p).regRead (some p) off
      d.emit (.regRead p off v)

/-- REGISTER_WRITE: discarded and logged for a partition IN_RESET (R486). -/
def barWrite (d : Dev) (b : Memory) (p : Port) (off w : Nat) : Dev × Memory :=
  if ¬ d.barOpen p ∨ 0x8000000 ≤ off then (d, b)
  else if off % 4 ≠ 0 then (d.badAccess p off (skewBE off).1 (skewBE off).2 true, b)
  else match d.downPart (some p) off with
    | some n => (d.vlogAdd 0x14 0x0E02 0 [(0, 4, off), (4, 1, n.val), (5, 1, 1)], b)
    | none => (((d.wakePort p).regWrite b (some p) off w).1.settleQueues, ((d.wakePort p).regWrite b (some p) off w).2)

/-! ### BAR2 (R487) -/

/-- Usable capacity in force: 15/16 of 4 GiB per active channel (R326, R334). -/
def usable (d : Dev) : Nat := d.get Reg.BUF_STAT_ACTIVE * 3840 * 1048576

/-- A byte as BAR2 returns it: 0 beyond the capacity, ones in a poisoned burst (R349); free while its group is IN_RESET. -/
def bar2Byte (d : Dev) (b : Memory) (a : Nat) : Byte :=
  if d.usable ≤ a then 0
  else if d.groupDown a then BitVec.ofNat 8 (d.freeVal / 256 ^ (a % 4096))
  else if d.poisoned a 1 then 0xFF
  else b.read a

/-- BAR2_ACCESS. -/
def bar2 (d : Dev) (b : Memory) (a : Nat) (op : Bar2Op) : Dev × Memory :=
  if ¬ d.up ∨ ¬ Config.bar2Implemented ∨ 2 ^ 37 ≤ a then (d, b)
  else match op with
    | .read n => (((d.touch a).emit (.bar2Read ((List.range n).map (fun i => d.bar2Byte b (a + i))))).useFree, b)
    | .write bs =>
      if ¬ d.on Reg.BUF_CTL_BAR2_WR_EN then (d.vlogAdd 0x14 0x0903 0, b)
      else
        let (d, b) := if d.groupDown a then (d, b) else d.bufPut b a (bs.take (d.usable - a))
        (if d.usable < a + bs.length then d.vlogAdd 0x14 0x0E01 0 [(0, 4, a)] else d, b)

/-! ### Configuration space (R67, R350, R352) -/

/-- The header registers whose values the spec gives; the places of the capabilities it does not give (`none`). -/
def cfgWord (x : PortX) (off : Nat) : Option Nat :=
  let w := Sparse.get 0 x.cfg off
  match off with
  | 0x00 => some (Config.vendorId.toNat + 65536 * 0x1616)
  | 0x04 => some (w % 65536 + 65536 * 0x10)
  | 0x08 => some (0x018000B0)
  | 0x0C => some (w % 256)
  | 0x10 => some (w - w % 2 ^ 27 + 4)
  | 0x14 => some w
  | 0x18 => some (if Config.bar2Implemented then 0xC else 0)
  | 0x1C => some (if Config.bar2Implemented then w - w % 32 else 0)
  | 0x20 => some 0
  | 0x24 => some 0
  | 0x30 => some 0
  | _ => none

/-- CONFIGURATION_REQUEST: retry status until step 9 (R67); then the request acts. -/
def cfgRequest (d : Dev) (p : Port) (r : CfgReq) : Dev :=
  let x := d.px p
  let on : Bool := match d.ox.step with
    | .off => false
    | .mainEn => false
    | .mainPg => false
    | .oxOnly => false
    | _ => true
  if ¬ on ∨ d.inReset (portPart p) then d
  else if x.crs then d.emit (.cfgReply p none)
  else match r with
    | .read off =>
      let o := off / 4 * 4 % 4096
      match cfgWord x o with
      | some v => d.emit (.cfgReply p (some v))
      | none => (d.emit (.cfgReply p (some (d.freeVal % 2 ^ 32)))).useFree
    | .write off v => ((d.modPort p fun x => { x with cfg := Sparse.put 0 x.cfg (off / 4 * 4 % 4096) v.toNat }).firePending p).emit (.cfgReply p (some 0))
    | .d0 => ((d.modPort p fun x => { x with d3 := false }).settleQueues).emit (.cfgReply p (some 0))
    | .d3hot => (d.modPort p fun x => { x with d3 := true }).emit (.cfgReply p (some 0))

/-- L1_SUBSTATE_ENTRY (R58, R350): a link that is up changes its power state as the host permits. -/
def l1Entry (d : Dev) (p : Port) (st : LinkPm) : Dev :=
  if (d.px p).linkUp then d.modPort p fun x => { x with linkPm := st } else d

/-- BOUNDARY_SCAN_INSTRUCTION (R509): the instruction in force and the boundary register. IDCODE answers its code. -/
def jtagShift (d : Dev) (i : JtagInstr) (boundary : Nat) : Dev :=
  if d.ox.step = .off then d
  else
    let d := { d with jtag := i, boundary := if i = JtagInstr.bypass ∨ i = JtagInstr.idcode ∨ i = JtagInstr.highz then d.boundary else boundary }
    d.emit (.jtag i (if i = JtagInstr.idcode then some (0x10000000 + 0x1616 * 4096 + Config.jedecId.toNat * 2 + 1) else none))

/-- What the motor, laser-enable and exchange-permit pins of a mechanism carry (R509): the functional pins; nothing under HIGHZ; or what
the boundary register says, whose layout the spec does not give (`none`). -/
def padPins (d : Dev) (m : Mech) : Option MechPins := match d.jtag with
  | .extest => none
  | .extestPulse => none
  | .extestTrain => none
  | .clamp => none
  | .highz => some MechPins.reset
  | _ => some (d.mx m).pins

end Dev

/-! ### Meanings -/

/-- BAR0_BAD_ACCESS (R5). -/
def execBar0BadAccess (p : Port) (off : Word) (firstBE lastBE : BitVec 4) (isWrite : Bool) (s : State) : Host.Outcome State Fault Refusal :=
  liftDev (fun d => d.badAccess p off.toNat firstBE.toNat lastBE.toNat isWrite) s
/-- REGISTER_READ (R6, R8, R485, R486). -/
def execRegisterRead (p : Port) (off : Nat) (s : State) : Host.Outcome State Fault Refusal := liftDev (fun d => d.barRead p off) s
/-- REGISTER_WRITE (R8, R485, R486). -/
def execRegisterWrite (p : Port) (off : Nat) (v : Word) (s : State) : Host.Outcome State Fault Refusal :=
  liftBuf (fun d b => d.barWrite b p off v.toNat) s
/-- BAR2_ACCESS (R487). -/
def execBar2Access (addr : Nat) (op : Bar2Op) (s : State) : Host.Outcome State Fault Refusal := liftBuf (fun d b => d.bar2 b addr op) s
/-- CONFIGURATION_REQUEST (R67, R350). -/
def execConfigurationRequest (p : Port) (r : CfgReq) (s : State) : Host.Outcome State Fault Refusal := liftDev (fun d => d.cfgRequest p r) s
/-- L1_SUBSTATE_ENTRY (R58). -/
def execL1SubstateEntry (p : Port) (st : LinkPm) (s : State) : Host.Outcome State Fault Refusal := liftDev (fun d => d.l1Entry p st) s
/-- BOUNDARY_SCAN_INSTRUCTION (R509). -/
def execBoundaryScanInstruction (i : JtagInstr) (boundary : Word) (s : State) : Host.Outcome State Fault Refusal :=
  liftDev (fun d => d.jtagShift i boundary.toNat) s

end Sys2Proof.Machine
end

