-- ==== Sys2Proof/Machine/Dma.lean ====
section
/-! DEFINITION. DMA programs (R416–R428): instructions and their fetch, the five instructions, waits, failed accesses and epoch
re-issues. -/
namespace Sys2Proof.Machine

/-- A DMA instruction (R417–R422). Addresses and times are as encoded; `len` counts bytes. -/
inductive DmaInstr where
  | done
  | move (ssp dsp : Nat) (sofs dofs zero viaCache : Bool) (len src dst : Nat)
  | loop (k : Fin 4) (count target strideS strideD : Nat)
  | wait (kind : Nat) (sem : Fin 64) (value time timeout : Nat)
  | signal (kind space : Nat) (sem : Fin 64) (value addr : Nat)
deriving DecidableEq, Repr

/-- Decodes 32 bytes (R417–R422); `none` is ILLEGAL. Of END only the opcode is read. FENCE of a MOVE has no effect of its own here: every
write is acknowledged within its step. -/
def decodeDma (l : List Byte) : Option DmaInstr :=
  let d0 := byteField l 0 8
  let k := bits d0 4 2
  match d0 % 16 with
  | 0 => some .done
  | 1 =>
    if bits d0 13 3 ≠ 0 ∨ bits d0 40 24 ≠ 0 ∨ byteField l 24 8 ≠ 0 then none
    else
      let len := bits d0 16 24 + 1
      some (.move k (bits d0 6 2) (tbit d0 8) (tbit d0 9) (tbit d0 10) (tbit d0 12) len (byteField l 8 8) (byteField l 16 8))
  | 2 =>
    if bits d0 6 2 ≠ 0 ∨ bits d0 8 24 = 0 ∨ bits d0 32 32 ≠ 0 ∨ byteField l 8 8 % 32 ≠ 0 ∨ byteField l 24 8 ≠ 0 then none
    else some (.loop ⟨k % 4, Nat.mod_lt _ (by decide)⟩ (bits d0 8 24) (byteField l 8 8) (byteField l 16 4) (byteField l 20 4))
  | 3 =>
    if k = 3 ∨ bits d0 6 2 ≠ 0 ∨ bits d0 14 18 ≠ 0 ∨ byteField l 24 8 ≠ 0 then none
    else some (.wait k ⟨bits d0 8 6 % 64, Nat.mod_lt _ (by decide)⟩ (bits d0 32 32) (byteField l 8 8) (byteField l 16 8))
  | 4 =>
    if 2 ≤ k ∨ bits d0 14 18 ≠ 0 ∨ byteField l 16 8 ≠ 0 ∨ byteField l 24 8 ≠ 0 ∨ (k = 1 ∧ byteField l 8 8 % 4 ≠ 0) then none
    else some (.signal k (bits d0 6 2) ⟨bits d0 8 6 % 64, Nat.mod_lt _ (by decide)⟩ (bits d0 32 32) (byteField l 8 8))
  | _ => none

namespace Dev

/-! ### Fetch (R416) -/

/-- The host program window: its first address and the one past it. -/
def hostWindow (d : Dev) : Nat × Nat :=
  let a := d.get Reg.DMA_HOST_BASE_LO_BASE + 4294967296 * d.get Reg.DMA_HOST_BASE_HI_BASE
  (a, a + d.get Reg.DMA_HOST_SIZE_SIZE)

/-- Whether `n` bytes from `a` lie in the host program window. -/
def inWindow (d : Dev) (a n : Nat) : Bool := decide (d.hostWindow.1 ≤ a ∧ a + n ≤ d.hostWindow.2)

/-- Whether the host owns a channel. -/
def hostOwned (d : Dev) (n : DmaCh) : Bool := d.get (Reg.DMA_CH_CFG_OWNER n) == 2

/-- The instruction bytes that a channel holds at its PC. -/
def heldInstr (d : Dev) (n : DmaCh) : Option (List Byte) := match (d.dma[n.val]).line with
  | some (a, l) => if a ≤ d.dmaPc n ∧ d.dmaPc n + 32 ≤ a + l.length then some ((l.drop (d.dmaPc n - a)).take 32) else none
  | none => none

/-- A poisoned burst that a read of `n` bytes from `a` meets. -/
def poisonAt (d : Dev) (a n : Nat) : Option Nat := d.bufx.poison.find? (fun p => decide (a < p + 32 ∧ p < a + n))

/-- The reading of a poisoned burst is answered as R327 and R329 say. -/
def readPoison (d : Dev) (a n : Nat) : Dev := match d.poisonAt a n with
  | some p => d.burstRead p .double
  | none => d

/-- An access whose target is IN_RESET (R427): EPOCH_STOP halts the channel; otherwise it waits. -/
def epochWait (d : Dev) (n : DmaCh) (a sp : Nat) : Dev := if d.on (Reg.DMA_CH_CFG_EPOCH_STOP n) then d.dmaHalt n 2 (some (a, sp)) else d

/-- Runs `f` on the instruction at the PC of a running channel: a channel that cannot fetch it halts (R416, R417, R428), one whose fetch
meets a reset waits. -/
def withInstr (d : Dev) (b : Memory) (n : DmaCh) (f : Dev → Memory → DmaInstr → Dev × Memory) : Dev × Memory :=
  let pc := d.dmaPc n
  if pc % 32 ≠ 0 ∨ (d.hostOwned n ∧ ¬ d.inWindow pc 32) then (d.dmaHalt n 3, b)
  else match d.heldInstr n with
    | some l => match decodeDma l with
      | some i => f d b i
      | none => (d.dmaHalt n 3, b)
    | none =>
      if d.metaBlocked false pc 32 then (d.epochWait n pc 2, b)
      else
        let rest := lineOf pc + 128 - pc
        let ((d, b), l) := d.metaRead b pc rest
        if d.metaPoison pc 32 then ((d.readPoison (lineOf pc) 128).dmaHalt n 5 (some (pc, 2)), b)
        else
          let d := d.modDma n fun x => { x with line := some (pc, l) }
          match decodeDma (l.take 32) with
          | some i => f d b i
          | none => (d.dmaHalt n 3, b)

/-- An instruction has run to its end (R425): PC names the next one, and a stop that waits takes effect. -/
def dmaNext (d : Dev) (n : DmaCh) (pc : Nat) : Dev :=
  let pc := pc % 2 ^ 64
  let d := (d.setDmaPc n pc).modDma n fun x =>
    { x with
      tries := 0
      reissues := 0
      line := match x.line with
        | some (a, l) => if a ≤ pc ∧ pc < a + l.length then some (pc, l.drop (pc - a)) else none
        | none => none }
  if d.on (Reg.DMA_CH_STAT_STOP_PENDING n) then d.dmaEnter n dmaStopped else d

/-- Whether a channel runs. -/
def dmaRuns (d : Dev) (n : DmaCh) : Bool := d.up && !d.inReset 18 && d.dmaState n == dmaRunning

/-! ### Accesses (R419) -/

/-- The port of a host space. -/
def spacePort (sp : Nat) : Port := if sp = 0 then .A else .B

/-- Addresses of the words of a register access. -/
def wordsOf (a n : Nat) : List Nat := (List.range (n / 4)).map (fun i => a + 4 * i)

/-- Whether an access of `n` bytes to a space meets a partition IN_RESET. -/
def spaceDown (d : Dev) (sp : Nat) (viaCache wr : Bool) (a n : Nat) : Bool := match sp with
  | 0 => d.inReset (portPart .A)
  | 1 => d.inReset (portPart .B)
  | 2 => if viaCache then d.metaBlocked wr a n else (List.range ((n + 31) / 32 + 1)).any (fun i => d.groupDown (min (a + 32 * i) (a + n - 1)))
  | _ => (wordsOf a n).any (fun o => (d.downPart none o).isSome)

/-- What an access that cannot be made now does to its channel; `none` when it can be made. An access to a register beyond BAR0 or to a
buffer address beyond the capacity only fails (R426). -/
def accessStop (d : Dev) (n : DmaCh) (sp : Nat) (viaCache wr : Bool) (a len : Nat) : Option Dev :=
  if sp = 3 ∧ (a % 4 ≠ 0 ∨ len % 4 ≠ 0) then some (d.dmaHalt n 3)
  else if wr ∧ sp = 2 ∧ d.hostOwned n ∧ ¬ d.on Reg.BUF_CTL_BAR2_WR_EN ∧ ¬ d.inWindow a len then some (d.dmaHalt n 7 (some (a, 2)))
  else if d.spaceDown sp viaCache wr a len then some (if sp < 2 then d.dmaHalt n 2 (some (a, sp)) else d.epochWait n a sp)
  else if (sp = 2 ∧ d.usable < a + len) ∨ (sp = 3 ∧ 0x8000000 < a + len) then some d
  else none

/-- Reads `n` bytes of a space; host memory gives `host`. -/
def spaceRead (d : Dev) (b : Memory) (sp : Nat) (viaCache : Bool) (a n : Nat) (host : List Byte) : (Dev × Memory) × List Byte := match sp with
  | 2 => if viaCache then d.metaRead b a n else ((d.touch a, b), b.readBytes a n)
  | 3 =>
    let x := (wordsOf a n).foldl (fun (x : Dev × List Byte) o =>
      let (d, v) := x.1.regRead none o
      (d, x.2 ++ leBytes 4 v)) (d, [])
    ((x.1, b), x.2)
  | _ => ((d, b), (host ++ List.replicate n 0).take n)

/-- Writes bytes to a space. -/
def spaceWrite (d : Dev) (b : Memory) (sp : Nat) (viaCache : Bool) (a : Nat) (bs : List Byte) : Dev × Memory := match sp with
  | 2 => if viaCache then d.metaWrite b a bs else d.bufPut b a bs
  | 3 => (wordsOf a bs.length).foldl (fun (x : Dev × Memory) o => x.1.regWrite x.2 none o (byteField bs (o - a) 4)) (d, b)
  | sp => (d.emit (.hostWrite (spacePort sp) a bs), b)

/-! ### The instructions -/

/-- END (R417, R424). -/
def dmaEnd (d : Dev) (b : Memory) (n : DmaCh) : Dev × Memory :=
  if ¬ d.dmaRuns n then (d, b)
  else d.withInstr b n fun d b i => match i with
    | .done => ((d.dmaNext n (d.dmaPc n + 32)).dmaEnter n dmaDone, b)
    | _ => (d, b)

/-- An address of a MOVE, with its offset (R418, R420). -/
def dmaAddr (a : Nat) (add : Bool) (ofs : Nat) : Nat := if add then (a + ofs) % 2 ^ 64 else a

/-- MOVE (R418, R419, R426, R427). -/
def dmaMove (d : Dev) (b : Memory) (n : DmaCh) (host : List Byte) : Dev × Memory :=
  if ¬ d.dmaRuns n then (d, b)
  else d.withInstr b n fun d b i => match i with
    | .move ssp dsp sofs dofs zero viaCache len src dst =>
      let x := d.dma[n.val]
      let s := dmaAddr src sofs x.ofsS
      let t := dmaAddr dst dofs x.ofsD
      match (if zero then none else d.accessStop n ssp viaCache false s len), d.accessStop n dsp viaCache true t len with
      | some d, _ => (d, b)
      | none, some d => (d, b)
      | none, none =>
        let go (d : Dev) (b : Memory) (bs : List Byte) : Dev × Memory :=
          let (d, b) := d.spaceWrite b dsp viaCache t bs
          ((d.count (Reg.DMA_CH_BYTES_BYTES n) len).dmaNext n (d.dmaPc n + 32), b)
        if zero then go d b (List.replicate len 0)
        else
          let ((d, b), bs) := d.spaceRead b ssp viaCache s len host
          if ssp = 2 ∧ (if viaCache then d.metaPoison s len else d.poisoned s len) then
            ((d.readPoison (if viaCache then lineOf s else s) (if viaCache then len + 128 else len)).dmaHalt n 6 (some (s, 2)), b)
          else go d b bs
    | _ => (d, b)

/-- LOOP (R420). -/
def dmaLoop (d : Dev) (b : Memory) (n : DmaCh) : Dev × Memory :=
  if ¬ d.dmaRuns n then (d, b)
  else d.withInstr b n fun d b i => match i with
    | .loop k count target ss sd =>
      let c0 := d.get (Reg.DMA_CH_CNT_CNT n k)
      let d := if c0 = 0 then d.modDma n fun x => { x with saved := x.saved.set k.val (x.ofsS, x.ofsD) } else d
      let c := (if c0 = 0 then count else c0) - 1
      let d := d.set (Reg.DMA_CH_CNT_CNT n k) c
      if 0 < c then
        let d := d.modDma n fun x =>
          { x with
            ofsS := ofSigned 64 (x.ofsS + toSigned 32 ss)
            ofsD := ofSigned 64 (x.ofsD + toSigned 32 sd) }
        (d.dmaNext n target, b)
      else
        let d := d.modDma n fun x => { x with ofsS := (x.saved.getD k.val (0, 0)).1, ofsD := (x.saved.getD k.val (0, 0)).2 }
        (d.dmaNext n (d.dmaPc n + 32), b)
    | _ => (d, b)

/-- Whether a channel of lower index waits on the semaphore with a value that suffices it (R421). -/
def outranked (d : Dev) (n : DmaCh) (sem : Fin 64) : Bool := (List.finRange 64).any fun (k : DmaCh) =>
  decide (k.val < n.val) && d.dmaState k == dmaWaiting && (match (d.heldInstr k).bind decodeDma with
    | some (.wait 0 s v _ _) => s == sem && decide (v ≤ d.get (Reg.DMA_SEM_VALUE sem))
    | _ => false)

/-- Whether the condition of a WAIT holds (R421); writes are always acknowledged by the end of their step. -/
def waitHolds (d : Dev) (n : DmaCh) (kind : Nat) (sem : Fin 64) (value time : Nat) : Bool := match kind with
  | 0 => decide (value ≤ d.get (Reg.DMA_SEM_VALUE sem)) && !d.outranked n sem
  | 1 => decide (time ≤ d.now)
  | _ => true

/-- A WAIT whose condition holds takes its semaphore count and ends. -/
def takeWait (d : Dev) (n : DmaCh) (kind : Nat) (sem : Fin 64) (value : Nat) : Dev :=
  let d := if kind = 0 then d.set (Reg.DMA_SEM_VALUE sem) (d.get (Reg.DMA_SEM_VALUE sem) - value) else d
  (d.dmaEnter n dmaRunning).dmaNext n (d.dmaPc n + 32)

/-- WAIT (R421, R425). -/
def dmaWait (d : Dev) (b : Memory) (n : DmaCh) : Dev × Memory :=
  if ¬ d.dmaRuns n then (d, b)
  else d.withInstr b n fun d b i => match i with
    | .wait kind sem value time _ =>
      if d.waitHolds n kind sem value time then (d.takeWait n kind sem value, b)
      else (d.dmaEnter n (if d.on (Reg.DMA_CH_STAT_STOP_PENDING n) then dmaStopped else dmaWaiting), b)
    | _ => (d, b)

/-- SIGNAL (R422). -/
def dmaSignal (d : Dev) (b : Memory) (n : DmaCh) : Dev × Memory :=
  if ¬ d.dmaRuns n then (d, b)
  else d.withInstr b n fun d b i => match i with
    | .signal kind sp sem value addr =>
      if kind = 0 then
        ((d.set (Reg.DMA_SEM_VALUE sem) (min 0xFFFFFFFF (d.get (Reg.DMA_SEM_VALUE sem) + value))).dmaNext n (d.dmaPc n + 32), b)
      else match d.accessStop n sp false true addr 4 with
        | some d => (d, b)
        | none =>
          let (d, b) := d.spaceWrite b sp false addr (leBytes 4 value)
          (d.dmaNext n (d.dmaPc n + 32), b)
    | _ => (d, b)

/-! ### Waits, failures and resets -/

/-- The instruction of a channel that waits. -/
def waitingOn (d : Dev) (n : DmaCh) : Option DmaInstr :=
  if d.up ∧ ¬ d.inReset 18 ∧ d.dmaState n = dmaWaiting then (d.heldInstr n).bind decodeDma else none

/-- WAIT_SATISFIED (R421). -/
def dmaWaitOver (d : Dev) (n : DmaCh) : Dev := match d.waitingOn n with
  | some (.wait kind sem value time _) => if d.waitHolds n kind sem value time then d.takeWait n kind sem value else d
  | _ => d

/-- WAIT_TIMEOUT (R421): only a WAIT that names a limit times out. -/
def waitLate (d : Dev) (n : DmaCh) : Dev := match d.waitingOn n with
  | some (.wait kind sem value time limit) => if limit = 0 ∨ d.waitHolds n kind sem value time then d else d.dmaHalt n 4
  | _ => d

/-- DMA_ACCESS_FAIL (R426): a retry follows, or the channel halts; what fails for poison in the buffer is not retried. -/
def accessFail (d : Dev) (n : DmaCh) (f : DmaFail) (a sp : Nat) : Dev :=
  if ¬ d.dmaRuns n then d
  else if f = .fetch then d.dmaHalt n 5 (some (a, sp))
  else if f = .poison ∧ sp = 2 then d.dmaHalt n 6 (some (a, sp))
  else if (d.dma[n.val]).tries < d.get (Reg.DMA_CH_CFG_RETRY n) then
    (d.count (Reg.DMA_CH_RETRY_BUS n)).modDma n fun x => { x with tries := x.tries + 1 }
  else d.dmaHalt n 1 (some (a, sp))

/-- DMA_EPOCH_REISSUE (R427): `late` says that IN_RESET lasted over 200 ms. -/
def epochReissue (d : Dev) (n : DmaCh) (a sp : Nat) (late : Bool) : Dev :=
  if ¬ d.dmaRuns n then d
  else if sp < 2 ∨ d.on (Reg.DMA_CH_CFG_EPOCH_STOP n) ∨ late ∨ d.get (Reg.DMA_CH_CFG_RETRY n) ≤ (d.dma[n.val]).reissues then d.dmaHalt n 2 (some (a, sp))
  else (d.count (Reg.DMA_CH_RETRY_EPOCH n)).modDma n fun x => { x with reissues := x.reissues + 1 }

end Dev

/-! ### Meanings -/

/-- END (R417). -/
def execDmaEnd (n : DmaCh) (s : State) : Host.Outcome State Fault Refusal := liftBuf (fun d b => d.dmaEnd b n) s
/-- MOVE (R418). -/
def execDmaMove (n : DmaCh) (hostData : List Byte) (s : State) : Host.Outcome State Fault Refusal := liftBuf (fun d b => d.dmaMove b n hostData) s
/-- LOOP (R420). -/
def execDmaLoop (n : DmaCh) (s : State) : Host.Outcome State Fault Refusal := liftBuf (fun d b => d.dmaLoop b n) s
/-- WAIT (R421). -/
def execDmaWait (n : DmaCh) (s : State) : Host.Outcome State Fault Refusal := liftBuf (fun d b => d.dmaWait b n) s
/-- SIGNAL (R422). -/
def execDmaSignal (n : DmaCh) (s : State) : Host.Outcome State Fault Refusal := liftBuf (fun d b => d.dmaSignal b n) s
/-- WAIT_SATISFIED (R421). -/
def execWaitSatisfied (n : DmaCh) (s : State) : Host.Outcome State Fault Refusal := liftDev (fun d => d.dmaWaitOver n) s
/-- WAIT_TIMEOUT (R421). -/
def execWaitTimeout (n : DmaCh) (s : State) : Host.Outcome State Fault Refusal := liftDev (fun d => d.waitLate n) s
/-- DMA_ACCESS_FAIL (R426). -/
def execDmaAccessFail (n : DmaCh) (f : DmaFail) (addr : BitVec 64) (space : Fin 4) (s : State) : Host.Outcome State Fault Refusal :=
  liftDev (fun d => d.accessFail n f addr.toNat space.val) s
/-- DMA_EPOCH_REISSUE (R427). -/
def execDmaEpochReissue (n : DmaCh) (addr : BitVec 64) (space : Fin 4) (late : Bool) (s : State) : Host.Outcome State Fault Refusal :=
  liftDev (fun d => d.epochReissue n addr.toNat space.val late) s

end Sys2Proof.Machine
end

