-- ==== Sys2Proof/Machine/Dispatch.lean ====
section
/-! DEFINITION. `exec`: one arm per command, each one direct call of the meaning of that command. -/
namespace Sys2Proof.Machine

/-- The effect of a command on everything but the queue. -/
def exec (i : Instr) (s : State) : Host.Outcome State Fault Refusal :=
  match i with
  | .powerUp trims => Sys2Proof.Machine.execPowerUp trims s
  | .mainPgAssert => Sys2Proof.Machine.execMainPgAssert s
  | .mainPgTimeout => Sys2Proof.Machine.execMainPgTimeout s
  | .mainPgLoss => Sys2Proof.Machine.execMainPgLoss s
  | .vaonLoss => Sys2Proof.Machine.execVaonLoss s
  | .systemPllLock => Sys2Proof.Machine.execSystemPllLock s
  | .pllLockLossTimeout => Sys2Proof.Machine.execPllLockLossTimeout s
  | .heartbeatTimeout => Sys2Proof.Machine.execHeartbeatTimeout s
  | .unpartitionedUe => Sys2Proof.Machine.execUnpartitionedUe s
  | .bootRomVerify pref slot0 slot1 => Sys2Proof.Machine.execBootRomVerify pref slot0 slot1 s
  | .bootFwLoad svc ucode legacy ownerKey => Sys2Proof.Machine.execBootFwLoad svc ucode legacy ownerKey s
  | .calibrationDone trained sensorOfs pprBanks phy heads => Sys2Proof.Machine.execCalibrationDone trained sensorOfs pprBanks phy heads s
  | .startImageLoad slotA slotB => Sys2Proof.Machine.execStartImageLoad slotA slotB s
  | .startComplete burnOk => Sys2Proof.Machine.execStartComplete burnOk s
  | .oxFrame m x => Sys2Proof.Machine.execOxFrame m x s
  | .comparatorTrimRecheck m c code => Sys2Proof.Machine.execComparatorTrimRecheck m c code s
  | .temperatureReading k t => Sys2Proof.Machine.execTemperatureReading k t s
  | .smbStatus f => Sys2Proof.Machine.execSmbStatus f s
  | .smbTime f => Sys2Proof.Machine.execSmbTime f s
  | .smbTemps f => Sys2Proof.Machine.execSmbTemps f s
  | .smbLogRead f => Sys2Proof.Machine.execSmbLogRead f s
  | .smbHealth f => Sys2Proof.Machine.execSmbHealth f s
  | .smbEnterOxOnly f => Sys2Proof.Machine.execSmbEnterOxOnly f s
  | .smbRecover f => Sys2Proof.Machine.execSmbRecover f s
  | .smbWake f => Sys2Proof.Machine.execSmbWake f s
  | .smbUnknownCommand cmd => Sys2Proof.Machine.execSmbUnknownCommand cmd s
  | .smbClockTimeout cmd => Sys2Proof.Machine.execSmbClockTimeout cmd s
  | .deepIdleEntry => Sys2Proof.Machine.execDeepIdleEntry s
  | .wakeEvent src m => Sys2Proof.Machine.execWakeEvent src m s
  | .oxaTimerMatch => Sys2Proof.Machine.execOxaTimerMatch s
  | .bufferSelfRefreshEntry k => Sys2Proof.Machine.execBufferSelfRefreshEntry k s
  | .perstAssert p => Sys2Proof.Machine.execPerstAssert p s
  | .perstDeassert p => Sys2Proof.Machine.execPerstDeassert p s
  | .portReset p k => Sys2Proof.Machine.execPortReset p k s
  | .portLinkUp p => Sys2Proof.Machine.execPortLinkUp p s
  | .partitionResetGo w => Sys2Proof.Machine.execPartitionResetGo w s
  | .orderlyStepDone n => Sys2Proof.Machine.execOrderlyStepDone n s
  | .partitionReady n => Sys2Proof.Machine.execPartitionReady n s
  | .crossPartitionReply src epoch recv => Sys2Proof.Machine.execCrossPartitionReply src epoch recv s
  | .crossPartitionRequest target epoch => Sys2Proof.Machine.execCrossPartitionRequest target epoch s
  | .bar0BadAccess p off firstBE lastBE isWrite => Sys2Proof.Machine.execBar0BadAccess p off firstBE lastBE isWrite s
  | .registerWrite p off v => Sys2Proof.Machine.execRegisterWrite p off v s
  | .bar2Access addr op => Sys2Proof.Machine.execBar2Access addr op s
  | .firmwareActivate slot => Sys2Proof.Machine.execFirmwareActivate slot s
  | .fwImportDone ok burnOk => Sys2Proof.Machine.execFwImportDone ok burnOk s
  | .activateTimeout => Sys2Proof.Machine.execActivateTimeout s
  | .ucodeActivateTimeout => Sys2Proof.Machine.execUcodeActivateTimeout s
  | .structureReload slot => Sys2Proof.Machine.execStructureReload slot s
  | .loaderCheckDone image => Sys2Proof.Machine.execLoaderCheckDone image s
  | .reloadRestReached m => Sys2Proof.Machine.execReloadRestReached m s
  | .reloadRestTimeout m => Sys2Proof.Machine.execReloadRestTimeout m s
  | .mchInit m arg arc => Sys2Proof.Machine.execMchInit m arg arc s
  | .mchOff m arg arc => Sys2Proof.Machine.execMchOff m arg arc s
  | .spinUp m arg arc => Sys2Proof.Machine.execSpinUp m arg arc s
  | .focus m arg arc => Sys2Proof.Machine.execFocus m arg arc s
  | .track m arg arc => Sys2Proof.Machine.execTrack m arg arc s
  | .seek m arg arc => Sys2Proof.Machine.execSeek m arg arc s
  | .park m arg arc => Sys2Proof.Machine.execPark m arg arc s
  | .exchange m arg arc => Sys2Proof.Machine.execExchange m arg arc s
  | .exchangeEnd m arg arc => Sys2Proof.Machine.execExchangeEnd m arg arc s
  | .clearFault m arg arc => Sys2Proof.Machine.execClearFault m arg arc s
  | .safe m arg arc => Sys2Proof.Machine.execSafe m arg arc s
  | .retireBeam m arg arc => Sys2Proof.Machine.execRetireBeam m arg arc s
  | .restoreBeam m arg arc => Sys2Proof.Machine.execRestoreBeam m arg arc s
  | .setSpeed m arg arc => Sys2Proof.Machine.execSetSpeed m arg arc s
  | .mchUnknownOp m op arc => Sys2Proof.Machine.execMchUnknownOp m op arc s
  | .mediaRequest m r => Sys2Proof.Machine.execMediaRequest m r s
  | .speedReached m => Sys2Proof.Machine.execSpeedReached m s
  | .spinupTimeout m => Sys2Proof.Machine.execSpinupTimeout m s
  | .focusTimeout m => Sys2Proof.Machine.execFocusTimeout m s
  | .trackTimeout m => Sys2Proof.Machine.execTrackTimeout m s
  | .seekTimeout m => Sys2Proof.Machine.execSeekTimeout m s
  | .calTimeout m => Sys2Proof.Machine.execCalTimeout m s
  | .holdTimeout m slot => Sys2Proof.Machine.execHoldTimeout m slot s
  | .idlePark m => Sys2Proof.Machine.execIdlePark m s
  | .restReached m => Sys2Proof.Machine.execRestReached m s
  | .discOut m => Sys2Proof.Machine.execDiscOut m s
  | .discIn m => Sys2Proof.Machine.execDiscIn m s
  | .exchangeComplete m => Sys2Proof.Machine.execExchangeComplete m s
  | .exchangeTimeout m => Sys2Proof.Machine.execExchangeTimeout m s
  | .discChange m present => Sys2Proof.Machine.execDiscChange m present s
  | .motionChange m => Sys2Proof.Machine.execMotionChange m s
  | .pstageFaultInput m => Sys2Proof.Machine.execPstageFaultInput m s
  | .faultEscalation m => Sys2Proof.Machine.execFaultEscalation m s
  | .servoFrame m c arrival eccCe eccUe cb => Sys2Proof.Machine.execServoFrame m c arrival eccCe eccUe cb s
  | .lostFrame m eccCe eccUe cb => Sys2Proof.Machine.execLostFrame m eccCe eccUe cb s
  | .regionEvaluation m => Sys2Proof.Machine.execRegionEvaluation m s
  | .bankPrefetchDone m l => Sys2Proof.Machine.execBankPrefetchDone m l s
  | .srvModeWrite m l w => Sys2Proof.Machine.execSrvModeWrite m l w s
  | .focusCapture m => Sys2Proof.Machine.execFocusCapture m s
  | .focusAcquired m => Sys2Proof.Machine.execFocusAcquired m s
  | .focusSweepFail m => Sys2Proof.Machine.execFocusSweepFail m s
  | .layerJump m deeper => Sys2Proof.Machine.execLayerJump m deeper s
  | .jumpCapture m => Sys2Proof.Machine.execJumpCapture m s
  | .jumpTimeout m => Sys2Proof.Machine.execJumpTimeout m s
  | .focusLoss m => Sys2Proof.Machine.execFocusLoss m s
  | .slip m b => Sys2Proof.Machine.execSlip m b s
  | .trackingLoss m => Sys2Proof.Machine.execTrackingLoss m s
  | .defectOnset m d => Sys2Proof.Machine.execDefectOnset m d s
  | .defectEnd m d => Sys2Proof.Machine.execDefectEnd m d s
  | .defectHoldExpiry m d => Sys2Proof.Machine.execDefectHoldExpiry m d s
  | .sledMoveDone m => Sys2Proof.Machine.execSledMoveDone m s
  | .shortSeekDone m => Sys2Proof.Machine.execShortSeekDone m s
  | .addressCheck m swath k => Sys2Proof.Machine.execAddressCheck m swath k s
  | .indexMark m => Sys2Proof.Machine.execIndexMark m s
  | .calibrationStepDone m r => Sys2Proof.Machine.execCalibrationStepDone m r s
  | .quickCalibration m l focOfs rtilt => Sys2Proof.Machine.execQuickCalibration m l focOfs rtilt s
  | .catchEnd m => Sys2Proof.Machine.execCatchEnd m s
  | .fluxBuildDone m => Sys2Proof.Machine.execFluxBuildDone m s
  | .dtcStep m x => Sys2Proof.Machine.execDtcStep m x s
  | .commutation m rejected => Sys2Proof.Machine.execCommutation m rejected s
  | .handover m => Sys2Proof.Machine.execHandover m s
  | .handback m cause => Sys2Proof.Machine.execHandback m cause s
  | .brakeStop m => Sys2Proof.Machine.execBrakeStop m s
  | .shortBrakeOnEnd m => Sys2Proof.Machine.execShortBrakeOnEnd m s
  | .shortBrakeReleaseEnd m => Sys2Proof.Machine.execShortBrakeReleaseEnd m s
  | .chopperSwitch m vbus => Sys2Proof.Machine.execChopperSwitch m vbus s
  | .chopperFault m => Sys2Proof.Machine.execChopperFault m s
  | .regenEvent m => Sys2Proof.Machine.execRegenEvent m s
  | .shortVReached m => Sys2Proof.Machine.execShortVReached m s
  | .gatesoffVReached m => Sys2Proof.Machine.execGatesoffVReached m s
  | .busHoldRelease m => Sys2Proof.Machine.execBusHoldRelease m s
  | .undervoltage m => Sys2Proof.Machine.execUndervoltage m s
  | .undervoltageTimeout m => Sys2Proof.Machine.execUndervoltageTimeout m s
  | .overcurrentTrip m cur => Sys2Proof.Machine.execOvercurrentTrip m cur s
  | .commutationFailure m => Sys2Proof.Machine.execCommutationFailure m s
  | .dsmStreamFault m stream => Sys2Proof.Machine.execDsmStreamFault m stream s
  | .keMeasurement m => Sys2Proof.Machine.execKeMeasurement m s
  | .keClear m => Sys2Proof.Machine.execKeClear m s
  | .chopClear m => Sys2Proof.Machine.execChopClear m s
  | .dsmCfgWrite m w => Sys2Proof.Machine.execDsmCfgWrite m w s
  | .sledPwmPeriod m => Sys2Proof.Machine.execSledPwmPeriod m s
  | .limitSwitchAssert m outer => Sys2Proof.Machine.execLimitSwitchAssert m outer s
  | .limitSwitchDeassert m outer => Sys2Proof.Machine.execLimitSwitchDeassert m outer s
  | .bothLimitsAsserted m => Sys2Proof.Machine.execBothLimitsAsserted m s
  | .limitChatter m outer => Sys2Proof.Machine.execLimitChatter m outer s
  | .homing m => Sys2Proof.Machine.execHoming m s
  | .homingFail m case => Sys2Proof.Machine.execHomingFail m case s
  | .sledStop m => Sys2Proof.Machine.execSledStop m s
  | .sledResume m => Sys2Proof.Machine.execSledResume m s
  | .sldUnknownOp m op => Sys2Proof.Machine.execSldUnknownOp m op s
  | .sledHoldExpiry m => Sys2Proof.Machine.execSledHoldExpiry m s
  | .uvResume m => Sys2Proof.Machine.execUvResume m s
  | .upstreamBlock m lane levels => Sys2Proof.Machine.execUpstreamBlock m lane levels s
  | .regData m addr data tag => Sys2Proof.Machine.execRegData m addr data tag s
  | .regErr m addr code tag => Sys2Proof.Machine.execRegErr m addr code tag s
  | .dnErr m seq hdr => Sys2Proof.Machine.execDnErr m seq hdr s
  | .wlate m b pos => Sys2Proof.Machine.execWlate m b pos s
  | .headStatus m st => Sys2Proof.Machine.execHeadStatus m st s
  | .blockLockLoss m lane => Sys2Proof.Machine.execBlockLockLoss m lane s
  | .errorRateExceeded m lane => Sys2Proof.Machine.execErrorRateExceeded m lane s
  | .hlkRegTimeout m tag => Sys2Proof.Machine.execHlkRegTimeout m tag s
  | .fullTraining m => Sys2Proof.Machine.execFullTraining m s
  | .fastRetrain m => Sys2Proof.Machine.execFastRetrain m s
  | .trainingDone m r => Sys2Proof.Machine.execTrainingDone m r s
  | .hlkRetrain m => Sys2Proof.Machine.execHlkRetrain m s
  | .hlkFull m => Sys2Proof.Machine.execHlkFull m s
  | .hlkRegGo m w => Sys2Proof.Machine.execHlkRegGo m w s
  | .revolutionMark m => Sys2Proof.Machine.execRevolutionMark m s
  | .ganderClassify m pba => Sys2Proof.Machine.execGanderClassify m pba s
  | .groupTimeout m gid => Sys2Proof.Machine.execGroupTimeout m gid s
  | .partialBlockTimeout blk => Sys2Proof.Machine.execPartialBlockTimeout blk s
  | .slotUnderrun m blk => Sys2Proof.Machine.execSlotUnderrun m blk s
  | .codewordDecoded m => Sys2Proof.Machine.execCodewordDecoded m s
  | .blockDecoded m pba => Sys2Proof.Machine.execBlockDecoded m pba s
  | .goatContextOpen m pba => Sys2Proof.Machine.execGoatContextOpen m pba s
  | .goatRungDone m pba => Sys2Proof.Machine.execGoatRungDone m pba s
  | .goatTimeout m pba => Sys2Proof.Machine.execGoatTimeout m pba s
  | .groupDecodeDone m pba => Sys2Proof.Machine.execGroupDecodeDone m pba s
  | .recoveryEnd m pba => Sys2Proof.Machine.execRecoveryEnd m pba s
  | .refreshIdleTimeout m => Sys2Proof.Machine.execRefreshIdleTimeout m s
  | .bucketLeak m => Sys2Proof.Machine.execBucketLeak m s
  | .drtLookup m pba => Sys2Proof.Machine.execDrtLookup m pba s
  | .drtSliceLoad m entries => Sys2Proof.Machine.execDrtSliceLoad m entries s
  | .bufferRead addr r => Sys2Proof.Machine.execBufferRead addr r s
  | .mr4Poll c code hot => Sys2Proof.Machine.execMr4Poll c code hot s
  | .scrubRead addr r => Sys2Proof.Machine.execScrubRead addr r s
  | .channelRetireCause c cause readable => Sys2Proof.Machine.execChannelRetireCause c cause readable s
  | .bufRetireGo w => Sys2Proof.Machine.execBufRetireGo w s
  | .retirementCopyDone c => Sys2Proof.Machine.execRetirementCopyDone c s
  | .rateUpdate dNow mNow rUsed => Sys2Proof.Machine.execRateUpdate dNow mNow rUsed s
  | .writeAdmission slot => Sys2Proof.Machine.execWriteAdmission slot s
  | .holdLimitRefusal slot => Sys2Proof.Machine.execHoldLimitRefusal slot s
  | .sqTailDoorbell p q w => Sys2Proof.Machine.execSqTailDoorbell p q w s
  | .cqHeadDoorbell p q w => Sys2Proof.Machine.execCqHeadDoorbell p q w s
  | .restartDoorbell p q w => Sys2Proof.Machine.execRestartDoorbell p q w s
  | .queueEnable p q => Sys2Proof.Machine.execQueueEnable p q s
  | .queueDisable p q => Sys2Proof.Machine.execQueueDisable p q s
  | .submissionFetch p entry dlist => Sys2Proof.Machine.execSubmissionFetch p entry dlist s
  | .completionCommit slot => Sys2Proof.Machine.execCompletionCommit slot s
  | .flush slot => Sys2Proof.Machine.execFlush slot s
  | .write slot data => Sys2Proof.Machine.execWrite slot data s
  | .read slot => Sys2Proof.Machine.execRead slot s
  | .verify slot => Sys2Proof.Machine.execVerify slot s
  | .abort slot => Sys2Proof.Machine.execAbort slot s
  | .streamOpen slot => Sys2Proof.Machine.execStreamOpen slot s
  | .streamClose slot => Sys2Proof.Machine.execStreamClose slot s
  | .objectPut slot data => Sys2Proof.Machine.execObjectPut slot data s
  | .objectGet slot => Sys2Proof.Machine.execObjectGet slot s
  | .catalogueQuery slot => Sys2Proof.Machine.execCatalogueQuery slot s
  | .identify slot => Sys2Proof.Machine.execIdentify slot s
  | .getLog slot => Sys2Proof.Machine.execGetLog slot s
  | .selfTest slot => Sys2Proof.Machine.execSelfTest slot s
  | .selftestResume => Sys2Proof.Machine.execSelftestResume s
  | .selftestEnd fail step mech rung4 firstPba => Sys2Proof.Machine.execSelftestEnd fail step mech rung4 firstPba s
  | .setFeature slot => Sys2Proof.Machine.execSetFeature slot s
  | .createVolume slot => Sys2Proof.Machine.execCreateVolume slot s
  | .deleteVolume slot => Sys2Proof.Machine.execDeleteVolume slot s
  | .firmwareStage slot img ucode flashOk => Sys2Proof.Machine.execFirmwareStage slot img ucode flashOk s
  | .attestation slot sig => Sys2Proof.Machine.execAttestation slot sig s
  | .hostMemoryError e => Sys2Proof.Machine.execHostMemoryError e s
  | .blockPlacement blk => Sys2Proof.Machine.execBlockPlacement blk s
  | .placeHoldTimeout slot => Sys2Proof.Machine.execPlaceHoldTimeout slot s
  | .mechanismJoin m => Sys2Proof.Machine.execMechanismJoin m s
  | .checkpointInterval m => Sys2Proof.Machine.execCheckpointInterval m s
  | .checkpointWritten m cls => Sys2Proof.Machine.execCheckpointWritten m cls s
  | .discLoad m d => Sys2Proof.Machine.execDiscLoad m d s
  | .discFull m => Sys2Proof.Machine.execDiscFull m s
  | .withdrawTimeout m => Sys2Proof.Machine.execWithdrawTimeout m s
  | .exchDone m => Sys2Proof.Machine.execExchDone m s
  | .mboxCheckpoint m => Sys2Proof.Machine.execMboxCheckpoint m s
  | .mboxHold m => Sys2Proof.Machine.execMboxHold m s
  | .mboxRelease m => Sys2Proof.Machine.execMboxRelease m s
  | .mboxExchange m => Sys2Proof.Machine.execMboxExchange m s
  | .dmaStart n => Sys2Proof.Machine.execDmaStart n s
  | .dmaStop n => Sys2Proof.Machine.execDmaStop n s
  | .dmaClear n => Sys2Proof.Machine.execDmaClear n s
  | .dmaPcWrite n hi w => Sys2Proof.Machine.execDmaPcWrite n hi w s
  | .dmaCfgWrite n w => Sys2Proof.Machine.execDmaCfgWrite n w s
  | .dmaEnd n => Sys2Proof.Machine.execDmaEnd n s
  | .dmaMove n hostData => Sys2Proof.Machine.execDmaMove n hostData s
  | .dmaLoop n => Sys2Proof.Machine.execDmaLoop n s
  | .dmaWait n => Sys2Proof.Machine.execDmaWait n s
  | .dmaSignal n => Sys2Proof.Machine.execDmaSignal n s
  | .waitSatisfied n => Sys2Proof.Machine.execWaitSatisfied n s
  | .waitTimeout n => Sys2Proof.Machine.execWaitTimeout n s
  | .dmaAccessFail n f addr space => Sys2Proof.Machine.execDmaAccessFail n f addr space s
  | .dmaEpochReissue n addr space late => Sys2Proof.Machine.execDmaEpochReissue n addr space late s
  | .dmaSemWrite x w => Sys2Proof.Machine.execDmaSemWrite x w s
  | .metadataRequest addr wr => Sys2Proof.Machine.execMetadataRequest addr wr s
  | .cacheFillDone line poisoned => Sys2Proof.Machine.execCacheFillDone line poisoned s
  | .maintZero => Sys2Proof.Machine.execMaintZero s
  | .maintClean => Sys2Proof.Machine.execMaintClean s
  | .maintInvalidate => Sys2Proof.Machine.execMaintInvalidate s
  | .maintCleanInv => Sys2Proof.Machine.execMaintCleanInv s
  | .maintLockLoad => Sys2Proof.Machine.execMaintLockLoad s
  | .maintInvAll => Sys2Proof.Machine.execMaintInvAll s
  | .maintDone => Sys2Proof.Machine.execMaintDone s
  | .mdcDisable => Sys2Proof.Machine.execMdcDisable s
  | .mdcEnable => Sys2Proof.Machine.execMdcEnable s
  | .routineDispatch m => Sys2Proof.Machine.execRoutineDispatch m s
  | .microWord m x => Sys2Proof.Machine.execMicroWord m x s
  | .gatePosition m b cb => Sys2Proof.Machine.execGatePosition m b cb s
  | .routineAbandon m => Sys2Proof.Machine.execRoutineAbandon m s
  | .routineRestart m => Sys2Proof.Machine.execRoutineRestart m s
  | .fsqWatchdog m => Sys2Proof.Machine.execFsqWatchdog m s
  | .fsqResume m => Sys2Proof.Machine.execFsqResume m s
  | .userGo m w => Sys2Proof.Machine.execUserGo m w s
  | .ownerEnrol => Sys2Proof.Machine.execOwnerEnrol s
  | .ownerRestore => Sys2Proof.Machine.execOwnerRestore s
  | .ownerOpDone flashOk => Sys2Proof.Machine.execOwnerOpDone flashOk s
  | .flashFault code => Sys2Proof.Machine.execFlashFault code s
  | .registerRead p off => Sys2Proof.Machine.execRegisterRead p off s
  | .configurationRequest p r => Sys2Proof.Machine.execConfigurationRequest p r s
  | .l1SubstateEntry p st => Sys2Proof.Machine.execL1SubstateEntry p st s
  | .crystalValid => Sys2Proof.Machine.execCrystalValid s
  | .crystalStop => Sys2Proof.Machine.execCrystalStop s
  | .zqCalibration c code => Sys2Proof.Machine.execZqCalibration c code s
  | .dqsOscillatorTracking c taps => Sys2Proof.Machine.execDqsOscillatorTracking c taps s
  | .allBankRefresh c => Sys2Proof.Machine.execAllBankRefresh c s
  | .healthPageUpdate => Sys2Proof.Machine.execHealthPageUpdate s
  | .powerEstimateUpdate p => Sys2Proof.Machine.execPowerEstimateUpdate p s
  | .interruptAggregationTimeout p q => Sys2Proof.Machine.execInterruptAggregationTimeout p q s
  | .boundaryScanInstruction x boundary => Sys2Proof.Machine.execBoundaryScanInstruction x boundary s
  | .serviceProcessorWatchdog => Sys2Proof.Machine.execServiceProcessorWatchdog s
  | .internalParityError dma => Sys2Proof.Machine.execInternalParityError dma s
  | .wchLoadDone m => Sys2Proof.Machine.execWchLoadDone m s
  | .spindlePwmPeriod m x => Sys2Proof.Machine.execSpindlePwmPeriod m x s

end Sys2Proof.Machine
end

