-- ==== Sys2Proof/Safety.lean ====
section
/-! DEFINITION. What a command is said to do: the forms in which the statements speak of the next state that `exec` answers,
and of what it leaves as it was. The block has no unsafe stop: no command ends in a fault (log entry 4). -/
namespace Sys2Proof.Machine

/-- The canonical form of the machine's memory: the buffer's. -/
abbrev State.Inv (s : State) : Prop := s.buf.wf = true

/-- Command `i` answers, in state `s`, a next state that differs from `s` in the device alone, which becomes `t`. -/
def Gives (i : Instr) (s : State) (t : Dev) : Prop := exec i s = .next { s with dev := t }

/-- Command `i` answers, in state `s`, a next state that differs from `s` in the device alone, and whose device has `P`. -/
def Makes (i : Instr) (s : State) (P : Dev → Prop) : Prop := ∃ t, exec i s = .next { s with dev := t } ∧ P t

/-- Command `i` answers, in state `s`, a next state with the queue of `s`, and whose buffer memory and device have `P`. -/
def MakesBuf (i : Instr) (s : State) (P : Memory → Dev → Prop) : Prop :=
  ∃ b t, exec i s = .next { s with buf := b, dev := t } ∧ P b t

/-- Command `i` acts on mechanism `m`: its next state differs from `s` in the device alone, and the device is what `Dev.settle`, the
reactions that follow every event of a mechanism, makes of one that has `P`. -/
def ActsOn (m : Mech) (i : Instr) (s : State) (P : Dev → Prop) : Prop :=
  ∃ u : Dev, exec i s = .next { s with dev := u.settle m } ∧ P u

/-- Command `i` acts on the queues: its next state differs from `s` in the device and the buffer memory alone, and the device is what
`Dev.settleQueues`, the reactions that follow every event of the queues, makes of one that has `P`. -/
def ActsOnQueues (i : Instr) (s : State) (P : Memory → Dev → Prop) : Prop :=
  ∃ (b : Memory) (u : Dev), exec i s = .next { s with buf := b, dev := u.settleQueues } ∧ P b u

/-- Every register field outside the listed ones reads in `t` as in `d`. -/
def KeepsRegs (fs : List Field) (d t : Dev) : Prop := ∀ f : Field, f.key ∉ fs.map Field.key → t.get f = d.get f

/-- What a wake source changes at most (R58, R59): OXA_WAKE_SRC and the depth, and which clocks run. -/
def OnlyWakes (d t : Dev) : Prop :=
  KeepsRegs [Reg.OXA_WAKE_SRC_SRC, Reg.OXA_STATE_DEPTH] d t ∧ { t with regs := d.regs, ox := d.ox, mech := d.mech } = d ∧
  { t.ox with clk := d.ox.clk } = d.ox ∧ ∀ k : Mech, { t.mx k with clk := (d.mx k).clk } = d.mx k

/-- Mechanism `m` can act: power-up has reached step 9 and its partition is not IN_RESET. -/
abbrev Dev.live (d : Dev) (m : Mech) : Prop := d.up = true ∧ d.mechInReset m = false

/-- Counter `f` of `t` reads `n` above that of `d`, at most its all-ones value (R9). -/
def Counts (f : Field) (d t : Dev) (n : Nat := 1) : Prop := t.get f = min (2 ^ f.width - 1) (d.get f + n)

/-- What mechanisms other than `m` hold beside their registers is in `t` as in `d`. -/
abbrev KeepsOthers (m : Mech) (d t : Dev) : Prop := ∀ k : Mech, k ≠ m → t.mx k = d.mx k

/-- What entering the Ox-only state with a cause does: the mode and the cause are recorded, main power goes off, every mechanism is
held safe, and the commands in flight and the buffer are lost. -/
def OxOnlyEntered (cause : Nat) (b : Memory) (t : Dev) : Prop :=
  b = [] ∧ t.get Reg.OXA_STATE_MODE = 1 ∧ t.get Reg.OXA_STATE_CAUSE = cause ∧ t.ox.step = .oxOnly ∧ t.ox.mainEn = false ∧
  t.slots = [] ∧ t.bufx.blocks = [] ∧
  ∀ m : Mech, (t.mx m).pins.lden = false ∧ (t.mx m).pins.xpermit = false ∧ (t.mx m).pins.sled = false ∧ (t.mx m).pins.chop = false

/-- Mechanism `m` can take a command of MCH: it can act, no command is in progress and no automatic sequencing runs. -/
abbrev Ready (d : Dev) (m : Mech) : Prop :=
  d.live m ∧ d.get (Reg.MCH_CMDSTAT_RESULT m) ≠ 1 ∧ d.get (Reg.MCH_STATE_AUTO_ACTIVE m) = 0

/-- MCH_CMDSTAT reads a result for an OP that the given source wrote. -/
def CmdReads (m : Mech) (op result : Nat) (arc : Bool) (u : Dev) : Prop :=
  u.get (Reg.MCH_CMDSTAT_RESULT m) = result ∧ u.get (Reg.MCH_CMDSTAT_OP m) = op ∧ u.get (Reg.MCH_CMDSTAT_SOURCE m) = b2n arc

/-- Mechanism `m` has entered FAULT with the fault of a bit of MCH_FAULT. -/
abbrev Faulted (m : Mech) (bit : Nat) (u : Dev) : Prop :=
  u.bit (Reg.MCH_FAULT_FAULT m) bit = true ∧ u.mstate m = .fault ∧ u.get (Reg.MCH_STATE_AT_REST m) = 0 ∧
  u.get (Reg.MCH_STATE_AUTO_ACTIVE m) = 0 ∧ (u.mx m).pins.lden = false

/-- Mechanism `m` has entered SAFE with the fault of a bit of MCH_FAULT. -/
abbrev MadeSafe (m : Mech) (bit : Nat) (u : Dev) : Prop :=
  u.bit (Reg.MCH_FAULT_FAULT m) bit = true ∧ u.mstate m = .safe ∧ (u.mx m).pins.lden = false ∧ (u.mx m).pins.xpermit = false ∧
  (u.mx m).pins.chop = false

/-- What a command of FSQ_CTL leaves as it was: everything but the named fields and the sequencer's own state. -/
def FsqOnly (m : Mech) (fs : List Field) (d u : Dev) : Prop := KeepsRegs fs d u ∧ KeepsOthers m d u ∧ u.slots = d.slots ∧ u.bufx = d.bufx

/-- The command of slot `i` has ended with a status. -/
abbrev Ends (i status : Nat) (u : Dev) : Prop := ∃ x, u.slot i = some x ∧ x.phase = .finished ∧ x.status = status

/-- The command of slot `i` has been refused with a status and a reason. -/
abbrev Refuses (i status reason : Nat) (u : Dev) : Prop :=
  ∃ x, u.slot i = some x ∧ x.phase = .finished ∧ x.status = status ∧ x.outcome = .refused ∧ x.reason = reason

/-- Command `i` acts on the Archive Service: its next state differs from `s` in the device alone, and the device is what
`Dev.arcUpkeep`, the service's and the queues' upkeep, makes of one that has `P`. -/
def ActsOnArc (i : Instr) (s : State) (P : Dev → Prop) : Prop :=
  ∃ u : Dev, exec i s = .next { s with dev := u.arcUpkeep } ∧ P u

/-- Command `i` is a write of the mailbox: its next state differs from `s` in the device alone, and the device is what the service's
upkeep makes of one that has `P`. -/
def ActsOnMailbox (i : Instr) (s : State) (P : Dev → Prop) : Prop :=
  ∃ u : Dev, exec i s = .next { s with dev := u.arcSync } ∧ P u

/-- A mailbox command that has been refused: RESULT 3 with its OP and the code, and nothing else. -/
def MailRefused (d : Dev) (op code : Nat) (u : Dev) : Prop :=
  u.get Reg.ARC_MBOX_STAT_RESULT = 3 ∧ u.get Reg.ARC_MBOX_STAT_OP = op ∧ u.get Reg.ARC_MBOX_STAT_CODE = code ∧
  KeepsRegs [Reg.ARC_MBOX_STAT_RESULT, Reg.ARC_MBOX_STAT_OP, Reg.ARC_MBOX_STAT_CODE] d u ∧ { u with regs := d.regs } = d

/-- The host owns DMA channel `n` and its registers answer. -/
abbrev DmaOpen (d : Dev) (n : DmaCh) : Prop := d.up = true ∧ d.inReset 18 = false ∧ d.get (Reg.DMA_CH_CFG_OWNER n) = 2

/-- The program counter of a DMA channel in a device. -/
abbrev PcIs (n : DmaCh) (pc : Nat) (u : Dev) : Prop := u.dmaPc n = pc % 2 ^ 64

/-- Channel `n` runs and holds instruction `x` at a legal program counter. -/
abbrev DmaHolds (d : Dev) (n : DmaCh) (x : DmaInstr) : Prop :=
  d.dmaRuns n = true ∧ d.dmaPc n % 32 = 0 ∧ (d.hostOwned n = true → d.inWindow (d.dmaPc n) 32 = true) ∧ (d.heldInstr n).bind decodeDma = some x

end Sys2Proof.Machine
end

