-- ==== Sys2Proof/Certificates/Slice0/Obligations.lean ====
section
/-! DEFINITION. The statements for the provers, from the numbered rules of the spec. -/

open Sys2Proof Sys2Proof.Machine
open Sys2Proof.Machine.Dev (opcode dataLen isAdmin nsect volOf slba cdw objId pairKey lineOf portPart)

/-! ### The machine as a whole -/

/-- A step takes the command at the front of the queue and is `exec` of it with the queue's rest; with no command waiting it is a tick of
time (the model's choice, log entry 2): nothing while VAON is off, 1 ns of device time while the system PLL runs, one 32.768 kHz tick of
T_OX while it is stopped, at whose edge a locked PLL resumes device time; and every command answers a next state. -/
def Obligations.StepTakesTheFrontCommand : Prop :=
  (∀ (i : Instr) (l : List Instr) (s : State), step { s with pending := i :: l } = exec i { s with pending := l }) ∧
  (∀ s : State, s.pending = [] →
    (s.dev.ox.step = .off → step s = .next s) ∧
    (s.dev.ox.step ≠ .off → (∀ n : Part, (s.dev.parts[n.val]).waiting = none) →
      ∃ x : Ox, step s = .next { s with dev := { s.dev with ox := x } } ∧
        (s.dev.ox.pllOn = true → x.devTime = (s.dev.ox.devTime + 1) % 2 ^ 64) ∧
        (s.dev.ox.pllOn = false → (x.tox = (s.dev.ox.tox + 30517) % 2 ^ 64 ∨ x.tox = (s.dev.ox.tox + 30518) % 2 ^ 64 ∨ 64 ≤ s.dev.ox.acc) ∧
          (s.dev.ox.pllWait = true → x.pllOn = true ∧ x.devTime = x.tox)))) ∧
  (∀ (i : Instr) (s : State), MakesBuf i s fun _ _ => True)

/-- Every step, of every command and of time, keeps the canonical form of the buffer memory. -/
def Obligations.EveryStepKeepsMemoryForm : Prop :=
  ∀ s t : State, s.Inv → step s = .next t → t.Inv

/-- What follows every event of a mechanism, of the queues and of the Archive Service, which the forms `ActsOn`, `ActsOnQueues` and
`ActsOnArc` name: with no park deferred, no block to hand back, no quick calibration due, nothing for automatic sequencing to do and the
sled's mode in step with its loop, a mechanism's upkeep writes GOAT_STAT only; with no port lost and no change of the pressure, the queues'
upkeep writes the occupancy registers only; the service's upkeep leaves mechanisms, slots, blocks, image, ports and partitions as they are,
and places no block ahead while no mechanism writes. A host's access wakes the device from DEEP_IDLE as its port does, and does nothing
else before its own effect. -/
def Obligations.UpkeepAfterCommands : Prop :=
  (∀ (d : Dev) (m : Mech), d.running m = true ∨ d.bufx.blocks.any (fun b => Dev.copyPending m b.2 || Dev.placedOn m b.2) = false →
    d.cmdBusy m = true ∨ d.get (Reg.MCH_CTL_AUTO m) = 0 ∨ (d.wantedPba m = none ∧ d.mstate m ≠ .tracking) →
    (d.loopsOf m [5]).any (fun n => d.loopOn m n) = decide (d.get (Reg.SLD_STATE_MODE m) = 3) →
    (d.mx m).mch.deferred = .none → d.mstate m ≠ .tracking ∨ (∀ l : Layer, d.tempFar m l = false) →
    KeepsRegs [Reg.GOAT_STAT_CTX m, Reg.GOAT_STAT_WAIT m, Reg.GOAT_STAT_REFRESH_Q m, Reg.GOAT_STAT_SUSPENDED m] d (d.settle m) ∧
      { d.settle m with regs := d.regs } = d) ∧
  (∀ d : Dev, d.qe.lost = [] →
    (d.poolSize .staging = 0 ∨
      (d.get Reg.BUF_STAT_PRESSURE = 0 ∧ 100 * d.poolCount .staging < d.get Reg.BUF_WM_HIGH_WM * d.poolSize .staging) ∨
      (d.get Reg.BUF_STAT_PRESSURE ≠ 0 ∧ d.get Reg.BUF_WM_LOW_WM * d.poolSize .staging ≤ 100 * d.poolCount .staging)) →
    KeepsRegs ([Reg.BUF_HELD_MIB, Reg.QE_STAT_SLOTS_USED, Reg.BUF_PORT_CREDIT_USED .A, Reg.BUF_PORT_CREDIT_USED .B] ++
      (List.finRange 5).map Reg.BUF_OCC_MIB) d d.settleQueues ∧
      d.settleQueues.get Reg.QE_STAT_SLOTS_USED = d.slots.length % 2 ^ Reg.QE_STAT_SLOTS_USED.width ∧
      { d.settleQueues with regs := d.regs } = d) ∧
  (∀ d : Dev, d.arcSync.mech = d.mech ∧ d.arcSync.slots = d.slots ∧ d.arcSync.bufx = d.bufx ∧ d.arcSync.img = d.img ∧
    d.arcSync.ports = d.ports ∧ d.arcSync.parts = d.parts ∧ d.arcSync.ox = d.ox ∧ d.arcSync.arc.ckpts = d.arc.ckpts ∧
    d.arcSync.arc.discs = d.arc.discs ∧ d.arcSync.arc.map = d.arc.map ∧ d.arcSync.arc.vols = d.arc.vols) ∧
  (∀ d : Dev, (∀ m : Mech, d.mstate m ≠ .writing) → d.arcUpkeep = d.arcSync.settleQueues) ∧
  (∀ d : Dev, d.wakeService = { d with ox := { d.ox with clk := { d.ox.clk with service := true } } }) ∧
  (∀ (d : Dev) (p : Port), (d.get Reg.OXA_STATE_DEPTH ≠ 2 → d.wakePort p = d) ∧
    (d.up = true → d.get Reg.OXA_STATE_DEPTH = 2 → (d.wakePort p).bit Reg.OXA_WAKE_SRC_SRC p.idx = true ∧
      (d.bit Reg.OXA_WAKE_EN_EN p.idx = true → (d.wakePort p).get Reg.OXA_STATE_DEPTH = 0) ∧ ((d.wakePort p).px p).linkPm = .l0) ∧
    KeepsRegs [Reg.OXA_WAKE_SRC_SRC, Reg.OXA_STATE_DEPTH] d (d.wakePort p) ∧
    { d.wakePort p with regs := d.regs, ox := d.ox, ports := d.ports } = d)

/-- At reset every register field reads its reset value, no command waits, the buffer and both logs are empty, T_OX and device
time stand at 0 and no output of a mechanism is on. -/
def Obligations.ResetState : Prop :=
  (State.reset.Inv) ∧
  ((∀ f : Field, State.reset.dev.get f = f.reset) ∧ State.reset.pending = [] ∧ (∀ a, State.reset.buf.read a = 0) ∧
  State.reset.dev.vlog.entries = [] ∧ State.reset.dev.elog.entries = [] ∧ State.reset.dev.ox.tox = 0 ∧
  State.reset.dev.ox.devTime = 0 ∧ State.reset.dev.slots = [] ∧
  ∀ m : Mech, (State.reset.dev.mx m).pins = ⟨false, false, false, .off, false, false⟩)

/-! ### Rails, clocks and the Ox-only state -/

/-- POWER_UP, MAIN_PG_ASSERT, SYSTEM_PLL_LOCK and VAON_LOSS: the rails and clocks of power-up. -/
def Obligations.RailsAndClocks : Prop :=
  (∀ (s : State) (trims : List (BitVec 10)), s.dev.ox.step = .off →
    Makes (.powerUp trims) s fun t =>
      t.ox.step = .mainEn ∧ t.ox.mainEn = true ∧ t.ox.tox = 0 ∧ (∀ k : Fin 80, t.ox.trims[k.val] = trims.getD k.val 0) ∧
      t.get Reg.OXA_STATE_TRIM_DONE = 1 ∧ (∀ m, t.get (Reg.OXA_MECH_TRIMMED m) = 1) ∧
      KeepsRegs (Reg.OXA_STATE_TRIM_DONE :: (List.finRange 16).map Reg.OXA_MECH_TRIMMED) s.dev t ∧
      { t with regs := s.dev.regs, ox := s.dev.ox } = s.dev) ∧
  (∀ s : State, s.dev.ox.step = .mainEn → s.dev.get Reg.OXA_STATE_MODE ≠ 2 →
    MakesBuf .mainPgAssert s fun b t =>
      b = [] ∧ t.ox = { s.dev.ox with mainPg := true, step := .mainPg } ∧ t.slots = [] ∧ t.vlog = s.dev.vlog ∧ t.elog = s.dev.elog ∧
      (∀ f : Field, f.key < 8 * 0x20000 ∨ 8 * 0x40000 ≤ f.key → t.get f = f.reset) ∧
      (∀ f : Field, 8 * 0x20000 ≤ f.key → f.key < 8 * 0x40000 → t.get f = s.dev.get f)) ∧
  (∀ s : State, s.dev.ox.step = .mainEn → s.dev.get Reg.OXA_STATE_MODE = 2 →
    Gives .mainPgAssert s { s.dev with ox := { s.dev.ox with mainPg := true, step := .mainPg } }) ∧
  (∀ s : State, s.dev.ox.step = .mainPg → s.dev.ox.mainEn = true → s.dev.ox.mainPg = true → s.dev.ox.pllOn = false →
    s.dev.get Reg.OXA_STATE_DEPTH ≠ 2 →
    Gives .systemPllLock s { s.dev with
      ox := { s.dev.ox with pllWait := true, step := .pll, clk := { s.dev.ox.clk with core := true, security := true } } }) ∧
  (∀ s : State, MakesBuf .vaonLoss s fun b t =>
    b = [] ∧ t.ox.step = .off ∧ t.regs = [] ∧ t.vlog.entries = [] ∧ t.elog.entries = [] ∧
    t.sec.gk0Revoked = s.dev.sec.gk0Revoked ∧ t.sec.arb = s.dev.sec.arb ∧ t.sec.owners = s.dev.sec.owners)

/-- The read commands of SMBus answer from Ox and change nothing else; RECOVER restarts power-up from the Ox-only state; WAKE and the
wake events set their source bit and end DEEP_IDLE when it is enabled; an unknown command is refused on the bus; a clock timeout is
logged. -/
def Obligations.SmbusCommands : Prop :=
  (∀ (s : State) (f : SmbFrame), s.dev.ox.step ≠ .off → f.pecRx = f.pecExp →
    Gives (.smbStatus f) s { s.dev with ox := { s.dev.ox with smbReply := some s.dev.statusBytes } } ∧
    Gives (.smbTime f) s { s.dev with ox := { s.dev.ox with smbReply := some (leBytes 8 s.dev.ox.tox) } } ∧
    Gives (.smbTemps f) s { s.dev with ox := { s.dev.ox with smbReply := some s.dev.tempsBytes } } ∧
    Gives (.smbHealth f) s { s.dev with ox := { s.dev.ox with smbReply := some (s.dev.health.take 32) } } ∧
    (∀ (log chunk pos : Byte), f.count = 3 → f.data = [log, pos, chunk] → log.toNat ≤ 1 →
      chunk.toNat + log.toNat ≤ 1 →
      Gives (.smbLogRead f) s { s.dev with ox := { s.dev.ox with smbReply := some (s.dev.logChunk log.toNat pos.toNat chunk.toNat) } })) ∧
  ((∀ (s : State) (f : SmbFrame), s.dev.ox.step = .oxOnly → f.pecRx = f.pecExp → f.count = 1 → f.data = [0x5A] →
    s.dev.recoverCool = true →
    MakesBuf (.smbRecover f) s fun b t => b = [] ∧ t.get Reg.OXA_STATE_MODE = 2 ∧ t.ox.step = .mainEn ∧ t.ox.mainEn = true) ∧
  (∀ (s : State) (f : SmbFrame), s.dev.up = true → f.pecRx = f.pecExp → f.count = 1 → f.data = [1] →
    Makes (.smbWake f) s fun t => t.bit Reg.OXA_WAKE_SRC_SRC 2 = true ∧
      (s.dev.bit Reg.OXA_WAKE_EN_EN 2 = true → t.get Reg.OXA_STATE_DEPTH ≠ 2) ∧ OnlyWakes s.dev t) ∧
  (∀ (s : State) (src : WakeSrc) (m : Mech), s.dev.up = true →
    Makes (.wakeEvent src m) s fun t => t.bit Reg.OXA_WAKE_SRC_SRC (Dev.wakeBit src) = true ∧
      (s.dev.bit Reg.OXA_WAKE_EN_EN (Dev.wakeBit src) = true → t.get Reg.OXA_STATE_DEPTH ≠ 2 ∧
        (s.dev.get Reg.OXA_STATE_DEPTH = 2 → t.ox.clk.core = true ∧ (src = .mechEvent → (t.mx m).clk.motor = true))) ∧
      OnlyWakes s.dev t) ∧
  (∀ s : State, s.dev.up = true → s.dev.get Reg.OXA_TIMER_LO_TIMER ≠ 0 →
    s.dev.get Reg.OXA_TIMER_LO_TIMER + 2 ^ 32 * s.dev.get Reg.OXA_TIMER_HI_TIMER ≤ s.dev.now →
    Makes .oxaTimerMatch s fun t => t.bit Reg.OXA_WAKE_SRC_SRC 3 = true ∧ OnlyWakes s.dev t) ∧
  (∀ (s : State) (c : Byte), s.dev.ox.step ≠ .off → c.toNat ∉ [1, 2, 3, 4, 5, 0x10, 0x11, 0x12] →
    Makes (.smbUnknownCommand c) s fun t => t.out = .smbNack :: s.dev.out ∧
      { t with out := s.dev.out, vlog := s.dev.vlog } = s.dev ∧
      t.vlog = (s.dev.vlogAdd 0x12 0x1001 5 [(0, 1, c.toNat)]).vlog) ∧
  (∀ (s : State) (c : Byte), s.dev.ox.step ≠ .off →
    Gives (.smbClockTimeout (some c)) s (s.dev.vlogAdd 0x12 0x1004 0 [(0, 1, c.toNat)]) ∧
    Gives (.smbClockTimeout none) s (s.dev.vlogAdd 0x12 0x1004 0 [(0, 1, 0xFF)])))

/-- The causes of the Ox-only state that come as commands of their own; the crystal, DEEP_IDLE and the comparator trims; OX_FRAME
publishes the inputs of its mechanism, and the motor safe rule acts on its outputs where it is in force. -/
def Obligations.OxOnlyAndSleep : Prop :=
  (∀ s : State, s.dev.get Reg.OXA_STATE_MODE ≠ 1 →
    (s.dev.ox.step = .mainEn → MakesBuf .mainPgTimeout s (OxOnlyEntered 1)) ∧
    (s.dev.ox.step ≠ .off → s.dev.ox.step ≠ .oxOnly → s.dev.ox.mainEn = true → s.dev.ox.mainPg = true →
      MakesBuf .mainPgLoss s (OxOnlyEntered 1) ∧
      (s.dev.get Reg.OXA_STATE_DEPTH ≠ 2 →
        MakesBuf .pllLockLossTimeout s (OxOnlyEntered 3) ∧ MakesBuf .heartbeatTimeout s (OxOnlyEntered 5) ∧
        MakesBuf .unpartitionedUe s (OxOnlyEntered 7))) ∧
    (∀ f : SmbFrame, s.dev.ox.step ≠ .off → s.dev.ox.step ≠ .oxOnly → f.pecRx = f.pecExp → f.count = 1 → f.data = [0xA5] →
      MakesBuf (.smbEnterOxOnly f) s (OxOnlyEntered 6)) ∧
    (∀ (k : Fin 8) (t : BitVec 16), s.dev.ox.step ≠ .off → s.dev.ox.step ≠ .oxOnly →
      (∀ j : Fin 8, s.dev.get (Reg.OXA_TEMP_BAD j) = 0) →
      (∀ j : Fin 8, s.dev.getS (Reg.OXA_TEMP_TEMP j) < 16 * (s.dev.get Reg.OXA_TEMP_CFG_TRIP : Int)) →
      16 * (s.dev.get Reg.OXA_TEMP_CFG_TRIP : Int) ≤ s.dev.tempValue k t →
      MakesBuf (.temperatureReading k t) s (OxOnlyEntered 2))) ∧
  (∀ s : State, s.dev.ox.step ≠ .off →
    Gives .crystalValid s (s.dev.set Reg.OXA_STATE_XTAL_OK 1) ∧
    Gives .crystalStop s (s.dev.set Reg.OXA_STATE_XTAL_OK 0) ∧
    (∀ (m : Mech) (c : Fin 5) (code : BitVec 10), Makes (.comparatorTrimRecheck m c code) s fun t =>
      (∀ k : Fin 80, t.ox.trimNext[k.val] = if k.val = 5 * m.val + c.val then some code else s.dev.ox.trimNext[k.val]) ∧
      { t with ox := { t.ox with trimNext := s.dev.ox.trimNext } } = s.dev) ∧
    (s.dev.up = true → s.dev.ox.pllOn = true → s.dev.get Reg.OXA_STATE_DEPTH ≠ 2 → s.dev.deepIdleOk = true →
      Gives .deepIdleEntry s { s.dev.set Reg.OXA_STATE_DEPTH 2 with
        ox := { s.dev.ox with pllOn := false, pllWait := false, acc := 0, clk := ⟨false, false, false, false⟩ } })) ∧
  (∀ (s : State) (m : Mech) (i : OxInputs), s.dev.ox.step ≠ .off → Makes (.oxFrame m i) s fun t =>
    t.get (Reg.OXA_MECH_BUS m) = b2n i.regen + 2 * b2n i.short + 4 * b2n i.gatesOff + 8 * b2n i.uv ∧
    t.get (Reg.OXA_MECH_MOTION m) = b2n i.motion ∧ t.get (Reg.OXA_MECH_LIMIT m) = b2n i.limIn + 2 * b2n i.limOut ∧
    t.get (Reg.OXA_MECH_PSTAGE_FAULT m) = b2n i.psFault ∧ t.get (Reg.OXA_MECH_DISC m) = b2n i.disc ∧
    (s.dev.live m → t.get (Reg.SPN_STATE_UV m) = b2n i.uv) ∧
    (s.dev.up = true → s.dev.get Reg.OXA_STATE_DEPTH = 2 → s.dev.oxChanged m i = true → t.bit Reg.OXA_WAKE_SRC_SRC 4 = true) ∧
    KeepsRegs [Reg.OXA_MECH_BUS m, Reg.OXA_MECH_MOTION m, Reg.OXA_MECH_LIMIT m, Reg.OXA_MECH_PSTAGE_FAULT m, Reg.OXA_MECH_DISC m,
      Reg.SPN_STATE_UV m, Reg.MCH_STATE_DISC m, Reg.OXA_WAKE_SRC_SRC, Reg.OXA_STATE_DEPTH] s.dev t ∧
    KeepsOthers m s.dev t ∧ (t.mx m).mch.discLevel = i.disc ∧
    (s.dev.safeInForce m = true → (s.dev.up = false ∨ s.dev.get (Reg.SLD_STATE_MODE m) = 0 → (t.mx m).pins.sled = false) ∧
      (t.mx m).pins.chop = false ∧
      (i.gatesOff = true → (t.mx m).pins.gates = .off) ∧
      (i.gatesOff = false → i.regen = true → (t.mx m).pins.gates = .lowSides)) ∧
    { t with regs := s.dev.regs, ox := s.dev.ox, mech := s.dev.mech } = s.dev)

/-! ### Start-up -/

/-- Steps 5 to 9 of power-up: the boot slots in their order of preference, the firmware, the calibration; image slot A, then B, and
no image on fewer than 20 buffer channels; NORMAL, with the ports answering and every mechanism's automatic INIT. -/
def Obligations.PowerUpAndStart : Prop :=
  ((∀ (s : State) (pref : Bool) (i : SignedImage) (other : Option SignedImage), s.dev.ox.step = .pll →
    MakesBuf (.bootRomVerify pref (if pref then other else some i) (if pref then some i else other)) s fun b t =>
      s.dev.trailerOk i 0 = true → b = s.buf ∧ t.ox.step = .boot ∧ t.sec.boot = some (b2n pref, i)) ∧
  (∀ (s : State) (pref : Bool), s.dev.ox.step = .pll → s.dev.get Reg.OXA_STATE_MODE ≠ 1 →
    MakesBuf (.bootRomVerify pref none none) s (OxOnlyEntered 4)) ∧
  (∀ (s : State) (svc : Option SignedImage) (u : Option UcodeImage) (l : List LegacyContainer) (key : Option (List Byte)),
    s.dev.ox.step = .boot → Makes (.bootFwLoad svc u l key) s fun t =>
      t.ox.step = .fw ∧ (svc = none → t.sec.svc = s.dev.sec.svc) ∧
      (∀ i, svc = some i → (s.dev.loadOwner key).trailerOk i 1 = true → t.sec.svc = some i)) ∧
  (∀ (s : State) (trained : BitVec 24) (ofs : List (BitVec 16)) (ppr : List (Chan × Nat)) (phy : List (Word × Word))
    (heads : List TrainResult), s.dev.ox.step = .fw → Makes (.calibrationDone trained ofs ppr phy heads) s fun t =>
      t.ox.step = .cal ∧ (∀ c : Chan, t.get (Reg.BUF_CH_STAT_STATE c) = if trained.toNat.testBit c.val then 2 else 4) ∧
      t.get Reg.BUF_STAT_ACTIVE = popcount 24 trained.toNat ∧
      (∀ k : Fin 8, t.get (Reg.OXA_TEMP_BAD k) = if 64 < (ofs.getD k.val 0).toInt.natAbs then 1 else 0) ∧
      (∀ k : Fin 8, t.ox.tempNext[k.val] = some (ofs.getD k.val 0).toInt) ∧
      (∀ (c : Chan) (zq taps : Word), phy[c.val]? = some (zq, taps) → t.bufx.phy[c.val] = ⟨zq.toNat, none, taps.toNat, none, none⟩) ∧
      (∀ (m : Mech) (r : TrainResult), heads[m.val]? = some r → r.linkOk = true → (t.mx m).hlk.taps = some r.eq))) ∧
  (∀ (s : State) (a b : Option (List Byte)), s.dev.ox.step = .cal → s.dev.get Reg.GCTL_IMG_STAT_STATE ≠ 1 →
    (s.dev.get Reg.BUF_STAT_ACTIVE < 20 → Makes (.startImageLoad a b) s fun t =>
      t.ox.step = .image ∧ t.regs = s.dev.regs ∧ t.img = s.dev.img) ∧
    (20 ≤ s.dev.get Reg.BUF_STAT_ACTIVE → MakesBuf (.startImageLoad a b) s fun _ t =>
      t.ox.step = .image ∧
      match s.dev.checkSlot a, s.dev.checkSlot b with
      | some (.ok i), _ => t.img.serial = i.serial ∧ t.img.globals = i.globals
      | none, some (.ok i) => t.img.serial = i.serial ∧ t.img.globals = i.globals
      | some (.error _), some (.ok i) => t.img.serial = i.serial ∧ t.img.globals = i.globals
      | some (.error _), none => t.get Reg.GCTL_IMG_STAT_STATE = 2 ∧ t.img = s.dev.img
      | _, some (.error e) => t.get Reg.GCTL_IMG_STAT_STATE = 2 ∧ t.get Reg.GCTL_IMG_STAT_CODE = e.code % 256 ∧ t.img = s.dev.img
      | none, none => t.regs = s.dev.regs ∧ t.img = s.dev.img)) ∧
  (∀ (s : State) (ok : Bool), s.dev.ox.step = .image → Makes (.startComplete ok) s fun t =>
    ∃ u : Dev, t = (List.finRange 16).foldl (fun d m => ((d.checkBeams m).autoInit m).settle m) u ∧ u.ox.step = .up ∧
      u.get Reg.OXA_STATE_MODE = 0 ∧ u.get Reg.MDC_STAT_ENABLED = 1 ∧ u.get Reg.ARC_STAT_STATE = b2n s.dev.sec.svc.isSome ∧
      u.ports[0].crs = false ∧ u.ports[1].crs = false ∧
      u.get Reg.ID_CONFIG_CHANNELS = u.get Reg.BUF_STAT_ACTIVE % 2 ^ Reg.ID_CONFIG_CHANNELS.width)

/-! ### Ports and partitions -/

/-- A GO of an immediate reset begins it, whichever the partition: its epoch and IN_RESET first, then its state; an orderly one begins with
its step 0, or with the reset where there is none. A reset of the DMA engine leaves the rest alone. A GO is rejected and logged when its
partition is unknown, IN_RESET, pending or being reloaded. -/
def Obligations.PartitionResets : Prop :=
  (∀ s : State, s.dev.up = true → s.dev.slots = [] → s.dev.goReject 18 = none → (s.dev.parts[18]).lastEnd = none →
    (∀ i, i = Instr.partitionResetGo 0x80000012 ∨ i = .partitionResetGo 0x80000032 ∨ i = .internalParityError true →
      ActsOnQueues i s fun b u =>
        b = s.buf ∧ u.get (Reg.GCTL_EPOCH_EPOCH 18) = (s.dev.get (Reg.GCTL_EPOCH_EPOCH 18) + 1) % 65536 ∧
        u.get (Reg.GCTL_EPOCH_IN_RESET 18) = 1 ∧ u.bit Reg.GCTL_PRST_STAT_IN_RESET 18 = true ∧ u.dma = Dev.reset.dma ∧
        (∀ n : DmaCh, u.get (Reg.DMA_CH_STAT_STATE n) = 0) ∧
        u.get Reg.DMA_HOST_SIZE_SIZE = 0 ∧ u.mdc = s.dev.mdc ∧ u.mech = s.dev.mech)) ∧
  (∀ (s : State) (n : Part) (w : Word) (d : Dev), s.dev.up = true → w.toNat.testBit 31 = true → bits w.toNat 0 5 = n.val →
    s.dev.goReject n.val = none → (s.dev.parts[n.val]).lastEnd = none ∨ (∃ t, (s.dev.parts[n.val]).lastEnd = some t ∧ t + 10000 ≤ s.dev.now) →
    d = (s.dev.set Reg.GCTL_PRST_CTL_PART n.val).set Reg.GCTL_PRST_CTL_MODE (bits w.toNat 5 1) →
    (bits w.toNat 5 1 = 1 ∨ (16 ≤ n.val ∧ n.val < 19) ∨ n.val = 26 → ActsOnQueues (.partitionResetGo w) s fun b u => b = s.buf ∧ u = d.beginReset n .ordinary ∧
      (16 ≤ n.val → u.get (Reg.GCTL_EPOCH_EPOCH n) = (s.dev.get (Reg.GCTL_EPOCH_EPOCH n) + 1) % 65536 ∧
        u.get (Reg.GCTL_EPOCH_IN_RESET n) = 1)) ∧
    (bits w.toNat 5 1 = 0 → 20 ≤ n.val → n.val < 26 → ActsOnQueues (.partitionResetGo w) s fun b u => b = s.buf ∧
      (u.parts[n.val]).orderly = true ∧ u.regs = d.regs ∧ u.mech = s.dev.mech ∧ u.slots = s.dev.slots) ∧
    (bits w.toNat 5 1 = 0 → n.val = 19 → ActsOnQueues (.partitionResetGo w) s fun b u =>
      (u, b) = Dev.cleanAll { d with parts := d.parts.set n.val { d.parts[n.val] with orderly := true } } s.buf) ∧
    (∀ h : n.val < 16, bits w.toNat 5 1 = 0 → ActsOnQueues (.partitionResetGo w) s fun b u => b = s.buf ∧
      u = Dev.forcePark { d with parts := d.parts.set n.val { d.parts[n.val] with orderly := true } } ⟨n.val, h⟩)) ∧
  (∀ (s : State) (w : Word) (r : Nat), s.dev.up = true → w.toNat.testBit 31 = true → s.dev.goReject (bits w.toNat 0 5) = some r →
    ActsOnQueues (.partitionResetGo w) s fun b u =>
      b = s.buf ∧ u.get Reg.GCTL_PRST_STAT_LAST_REJECTED = 1 ∧ u.parts = s.dev.parts ∧
      KeepsRegs [Reg.GCTL_PRST_CTL_PART, Reg.GCTL_PRST_CTL_MODE, Reg.GCTL_PRST_STAT_LAST_REJECTED] s.dev u ∧
      { u with regs := s.dev.regs, vlog := s.dev.vlog } = s.dev)

/-- PERST_N, port resets and link training; how a partition's reset goes on and ends; what requests and replies across partitions meet. -/
def Obligations.PortsAndTraffic : Prop :=
  ((∀ (s : State) (p : Port), Gives (.perstDeassert p) s (s.dev.modPort p fun x => { x with perst := false })) ∧
  (∀ (s : State) (p : Port), s.dev.up = false →
    Gives (.perstAssert p) s (s.dev.modPort p fun x => { x with perst := true, linkUp := false })) ∧
  (∀ (s : State) (p : Port), s.dev.up = true → s.dev.inReset (Dev.portPart p) = false → (s.dev.parts[(Dev.portPart p).val]).lastEnd = none →
    ActsOnQueues (.perstAssert p) s (fun b u => b = s.buf ∧ (u.px p).perst = true ∧ (u.px p).linkUp = false ∧
      (u.px p.other).linkUp = (s.dev.px p.other).linkUp) ∧
    ∀ k : PortResetKind, ActsOnQueues (.portReset p k) s (fun b u => b = s.buf ∧ (u.px p).perst = (s.dev.px p).perst ∧
      (u.px p).linkUp = ((s.dev.px p).linkUp && decide (k = .functionLevel)) ∧ (u.px p).cfg = [] ∧
      (u.px p.other).linkUp = (s.dev.px p.other).linkUp)) ∧
  (∀ (s : State) (p : Port), s.dev.up = true → (s.dev.px p).perst = false → s.dev.inReset (Dev.portPart p) = false →
    Gives (.portLinkUp p) s ((s.dev.modPort p fun x => { x with linkUp := true, linkPm := .l0, taps := s.dev.freeVal }).useFree))) ∧
  ((∀ s : State, s.dev.up = true → (s.dev.parts[26]).orderly = true → s.dev.inReset 26 = false → (s.dev.parts[26]).lastEnd = none →
    ActsOnQueues (.orderlyStepDone 26) s fun b u => b = s.buf ∧ u.get (Reg.GCTL_EPOCH_IN_RESET 26) = 1 ∧
      u.get Reg.ARC_STAT_STATE = if s.dev.fw.svcAct.isSome then 2 else 0) ∧
  (∀ s : State, s.dev.up = true → s.dev.inReset 19 = true → ActsOnQueues (.partitionReady 19) s fun b u =>
    b = s.buf ∧ u.inReset 19 = false ∧ u.get Reg.MDC_STAT_ENABLED = 1 ∧ (u.parts[19]).lastEnd = some s.dev.now) ∧
  (∀ s : State, s.dev.up = true → s.dev.inReset 26 = false → s.dev.sec.svc.isSome = true → s.dev.fw.svcAct = none →
    (s.dev.parts[26]).lastEnd = none →
    ActsOnQueues .serviceProcessorWatchdog s fun b u => b = s.buf ∧ u.get (Reg.GCTL_EPOCH_IN_RESET 26) = 1 ∧ u.get Reg.ARC_STAT_STATE = 0) ∧
  (∀ (s : State) (src : Part) (e : BitVec 16) (recv : Fin 28), s.dev.up = true → e.toNat ≠ s.dev.epoch src →
    Gives (.crossPartitionReply src e recv) s (s.dev.count (Reg.GCTL_STALE_STALE recv))) ∧
  (∀ (s : State) (src : Part) (e : BitVec 16) (recv : Fin 28), e.toNat = s.dev.epoch src →
    Gives (.crossPartitionReply src e recv) s s.dev) ∧
  (∀ (s : State) (n : Part) (e : BitVec 16), s.dev.up = true →
    Gives (.crossPartitionRequest n e) s (s.dev.emit (.partReply n (s.dev.inReset n || decide (e.toNat ≠ s.dev.epoch n))))))

/-! ### Owner keys and the boot flash -/

/-- ENROL, RESTORE, the end of an owner operation and a flash fault. -/
def Obligations.OwnerOperations : Prop :=
  (∀ s : State, s.dev.up = true → s.dev.get Reg.SEC_OWNER_STAT_RESULT ≠ 1 → s.dev.fw.reload = none →
    Makes .ownerEnrol s (fun t => t.sec = { s.dev.sec with ownerOp := 1 } ∧ t.get Reg.SEC_OWNER_STAT_RESULT = 1 ∧
      t.get Reg.SEC_OWNER_STAT_CODE = 0 ∧ KeepsRegs [Reg.SEC_OWNER_STAT_RESULT, Reg.SEC_OWNER_STAT_CODE] s.dev t ∧
      t.ox = { s.dev.ox with clk := { s.dev.ox.clk with security := true } } ∧
      { t with regs := s.dev.regs, sec := s.dev.sec, ox := s.dev.ox } = s.dev) ∧
    Makes .ownerRestore s (fun t => t.sec = { s.dev.sec with ownerOp := 2 } ∧ t.get Reg.SEC_OWNER_STAT_RESULT = 1 ∧
      t.get Reg.SEC_OWNER_STAT_CODE = 0 ∧ KeepsRegs [Reg.SEC_OWNER_STAT_RESULT, Reg.SEC_OWNER_STAT_CODE] s.dev t ∧
      t.ox = { s.dev.ox with clk := { s.dev.ox.clk with security := true } } ∧
      { t with regs := s.dev.regs, sec := s.dev.sec, ox := s.dev.ox } = s.dev)) ∧
  (∀ s : State, s.dev.up = true → s.dev.get Reg.SEC_OWNER_STAT_RESULT = 1 →
    Gives .ownerEnrol s (s.dev.vlogAdd 0x14 0x0D01 0) ∧ Gives .ownerRestore s (s.dev.vlogAdd 0x14 0x0D01 0)) ∧
  (∀ (s : State) (flashOk : Bool), s.dev.sec.ownerOp = 1 → Makes (.ownerOpDone flashOk) s fun t =>
    t.sec.ownerOp = 0 ∧ (∀ k : Fin 1024, t.get (Reg.SEC_DATA_DATA k) = 0) ∧
    match s.dev.enrolRefusal (s.dev.secBytes 0 1793) (s.dev.secBytes 1808 1280) with
    | some c => t.get Reg.SEC_OWNER_STAT_RESULT = 3 ∧ t.get Reg.SEC_OWNER_STAT_CODE = c ∧ t.sec.owners = s.dev.sec.owners
    | none => if flashOk
      then t.get Reg.SEC_OWNER_STAT_RESULT = 2 ∧ t.sec.owners = s.dev.sec.owners ++ [Crypto.shake256 (s.dev.secBytes 0 1793)] ∧
        t.sec.ownerKey = some (s.dev.secBytes 0 1793)
      else t.get Reg.SEC_OWNER_STAT_RESULT = 3 ∧ t.get Reg.SEC_OWNER_STAT_CODE = 5 ∧ t.sec.owners = s.dev.sec.owners) ∧
  (∀ (s : State) (c : Fin 3), s.dev.mainsUp = true → s.dev.sec.ownerOp = 0 →
    Gives (.flashFault c) s (s.dev.vlogAdd 0x13 (0x0F01 + c.val) (if c = 0 then 0 else if c = 1 then 2 else 1)))

/-! ### Mechanism control -/

/-- The commands of MCH_CMD that take a mechanism out of rest and towards the media, in the states that accept them. -/
def Obligations.MchCommandsTowardsMedia : Prop :=
  ∀ (s : State) (m : Mech) (arg : BitVec 24) (arc : Bool), Ready s.dev m →
    (s.dev.mstate m = .off → s.dev.hasUcode m = true → s.dev.rotationSeen m = true →
      ActsOn m (.mchInit m arg arc) s fun u => CmdReads m 1 1 arc u ∧ u.mstate m = .spinningDown ∧ (u.mx m).mch.init = .spinDown) ∧
    (s.dev.mstate m = .off → s.dev.hasUcode m = false →
      ActsOn m (.mchInit m arg arc) s fun u => CmdReads m 1 5 arc u ∧ u.mstate m = .off) ∧
    (s.dev.mstate m = .parked → s.dev.get (Reg.MCH_STATE_DISC m) = 1 → s.dev.rpmOk m arg = true →
      ActsOn m (.spinUp m arg arc) s fun u => CmdReads m 3 1 arc u ∧ u.mstate m = .spinningUp ∧
        (u.mx m).spn.profile = arg.toNat % 65536 ∧ u.get (Reg.MCH_STATE_AT_REST m) = 0) ∧
    (s.dev.mstate m = .spun → (s.dev.mx m).opt.focus = .none →
      ActsOn m (.focus m arg arc) s fun u => CmdReads m 4 1 arc u ∧ (u.mx m).opt.focus = .sweep ∧ (u.mx m).opt.target = 0 ∧
        (u.mx m).pins.lden = true) ∧
    (s.dev.mstate m = .focused → s.dev.get (Reg.MCH_STATE_CAL_VALID m) = 1 →
      ActsOn m (.track m arg arc) s fun u => CmdReads m 5 1 arc u ∧ u.mstate m = .focused ∧ (u.mx m).opt.seek = .settle ∧
        u.get (Reg.SRV_SEEK_STAT_TARGET m) = (s.dev.mx m).opt.swath % 2 ^ (Reg.SRV_SEEK_STAT_TARGET m).width) ∧
    (s.dev.mstate m = .tracking → arg.toNat % 16384 ≤ 6874 → s.dev.layerAbsent m (bits arg.toNat 16 2) = false →
      ActsOn m (.seek m arg arc) s fun u => CmdReads m 6 1 arc u ∧ u.mstate m = .seeking ∧
        u.get (Reg.SRV_SEEK_STAT_TARGET m) = arg.toNat % 16384 ∧ u.get (Reg.SRV_SEEK_STAT_TLAYER m) = bits arg.toNat 16 2 ∧
        u.get (Reg.SRV_SEEK_STAT_ACTIVE m) = 1 ∧ u.get (Reg.SRV_SEEK_STAT_TRIES m) = 0) ∧
    (s.dev.running m = true → s.dev.rpmOk m arg = true →
      ActsOn m (.setSpeed m arg arc) s fun u => CmdReads m 14 2 arc u ∧ u.mstate m = s.dev.mstate m ∧
        (u.mx m).spn.profile = arg.toNat % 65536)

/-- The commands of MCH_CMD that take a mechanism to rest, through an exchange or out of FAULT, and those about beams. -/
def Obligations.MchCommandsTowardsRest : Prop :=
  ∀ (s : State) (m : Mech) (arg : BitVec 24) (arc : Bool), Ready s.dev m →
    (s.dev.mstate m = .parked →
      ActsOn m (.mchOff m arg arc) s (fun u => CmdReads m 2 2 arc u ∧ u.mstate m = .off ∧
        u.get (Reg.MCH_STATE_AT_REST m) = b2n (u.on (Reg.SLD_STATE_AT_PARK m) && !u.rotationSeen m) ∧
        (u.mx m).pins.lden = false ∧ (u.mx m).pins.xpermit = false) ∧
      ActsOn m (.exchange m arg arc) s (fun u => CmdReads m 8 2 arc u ∧ u.mstate m = .exchange ∧ (u.mx m).pins.xpermit = true ∧
        u.get (Reg.MCH_STATE_CAL_VALID m) = 0 ∧ u.get (Reg.MCH_CTL_AUTO m) = 0)) ∧
    (s.dev.running m = true → s.dev.inBlock m = false →
      ActsOn m (.park m arg arc) s fun u => CmdReads m 7 1 arc u ∧ u.mstate m = .spinningDown ∧ (u.mx m).mch.goal = .park ∧
        u.get (Reg.MCH_CTL_AUTO m) = 0 ∧ (u.mx m).pins.lden = false) ∧
    (s.dev.running m = true → s.dev.inBlock m = true →
      ActsOn m (.park m arg arc) s fun u => CmdReads m 7 1 arc u ∧ u.mstate m = s.dev.mstate m ∧ (u.mx m).mch.deferred = .park ∧
        (u.mx m).mch.stopReq = true ∧ u.get (Reg.MCH_CTL_AUTO m) = 0) ∧
    (s.dev.mstate m = .exchange → s.dev.discStable m = true →
      ActsOn m (.exchangeEnd m arg arc) s fun u => CmdReads m 9 1 arc u ∧ u.mstate m = .exchange ∧ (u.mx m).pins.xpermit = false) ∧
    (s.dev.mstate m = .fault → s.dev.get (Reg.MCH_STATE_AT_REST m) = 1 →
      ActsOn m (.clearFault m arg arc) s fun u => CmdReads m 10 2 arc u ∧ u.mstate m = .parked ∧
        u.get (Reg.MCH_FAULT_FIRST_CODE m) = 0 ∧ u.get (Reg.MCH_FAULT_FAULT m) = s.dev.get (Reg.MCH_FAULT_FAULT m)) ∧
    (s.dev.mstate m ≠ .off →
      ActsOn m (.safe m arg arc) s fun u => CmdReads m 11 2 arc u ∧ u.mstate m = .safe ∧ u.bit (Reg.MCH_FAULT_FAULT m) 19 = true ∧
        u.get (Reg.MCH_CTL_AUTO m) = 0) ∧
    (s.dev.mstate m ≠ .off → s.dev.argOk m 12 arg = true → s.dev.inBlock m = true →
      s.dev.get (Reg.MCH_CFG_MIN_BEAMS m) < popcount 16 (s.dev.beamsInUse m) →
      ActsOn m (.retireBeam m arg arc) s fun u => CmdReads m 12 2 arc u ∧
        u.bit (Reg.MCH_BEAM_RETIRED m) (Dev.argBeam arg).val = true ∧ u.mstate m = s.dev.mstate m) ∧
    (s.dev.mstate m = .parked → s.dev.argOk m 13 arg = true →
      ActsOn m (.restoreBeam m arg arc) s fun u => CmdReads m 13 2 arc u ∧
        u.bit (Reg.MCH_BEAM_RETIRED m) (Dev.argBeam arg).val = false ∧ u.get (Reg.MCH_STATE_CAL_VALID m) = 0 ∧
        tbit (u.mx m).mch.restored (Dev.argBeam arg).val = true)

/-- What is written in MCH_CMD and not carried out; and the faults that the time limits of MCH, the power stage and the motion
comparator raise. -/
def Obligations.MchRefusalsAndFaults : Prop :=
  (∀ (s : State) (m : Mech) (arg : BitVec 24) (arc : Bool), s.dev.live m →
    (s.dev.get (Reg.MCH_CMDSTAT_RESULT m) ≠ 1 → s.dev.accepts m 4 = false →
      ActsOn m (.focus m arg arc) s fun u => CmdReads m 4 3 arc u ∧ u.mstate m = s.dev.mstate m ∧
        u.get (Reg.MCH_CMDSTAT_SNAP_STATE m) = s.dev.get (Reg.MCH_STATE_STATE m) % 16 ∧ u.get (Reg.MCH_EVENT_CONFLICT m) = 1 ∧
        u.mech = s.dev.mech ∧ u.slots = s.dev.slots) ∧
    (s.dev.get (Reg.MCH_CMDSTAT_RESULT m) = 1 →
      ActsOn m (.track m arg arc) s fun u => u.get (Reg.MCH_CMDSTAT_REJ_BUSY m) = 1 ∧ u.mech = s.dev.mech ∧
        KeepsRegs [Reg.MCH_CMDSTAT_REJ_BUSY m] s.dev u ∧ { u with regs := s.dev.regs, vlog := s.dev.vlog } = s.dev) ∧
    (Ready s.dev m → s.dev.mstate m = .tracking → 6874 < arg.toNat % 16384 →
      ActsOn m (.seek m arg arc) s fun u => CmdReads m 6 4 arc u ∧
        KeepsRegs [Reg.MCH_CMDSTAT_RESULT m, Reg.MCH_CMDSTAT_OP m, Reg.MCH_CMDSTAT_SOURCE m] s.dev u ∧
        { u with regs := s.dev.regs } = s.dev) ∧
    (∀ op : Byte, s.dev.get (Reg.MCH_CMDSTAT_RESULT m) ≠ 1 → Dev.knownOp op.toNat = false →
      ActsOn m (.mchUnknownOp m op arc) s fun u => CmdReads m op.toNat 4 arc u ∧
        KeepsRegs [Reg.MCH_CMDSTAT_RESULT m, Reg.MCH_CMDSTAT_OP m, Reg.MCH_CMDSTAT_SOURCE m] s.dev u ∧
        { u with regs := s.dev.regs } = s.dev)) ∧
  (∀ (s : State) (m : Mech), s.dev.live m →
    (s.dev.mstate m = .spinningUp → ActsOn m (.spinupTimeout m) s (Faulted m 3)) ∧
    (s.dev.mstate m = .spun → (s.dev.mx m).opt.focus ≠ .none → ActsOn m (.focusTimeout m) s (Faulted m 1)) ∧
    (s.dev.locking m = true → ActsOn m (.trackTimeout m) s (Faulted m 2)) ∧
    (s.dev.mstate m = .seeking → ActsOn m (.seekTimeout m) s (Faulted m 3)) ∧
    (s.dev.mstate m = .focused → (s.dev.mx m).opt.cal = .runout → ActsOn m (.calTimeout m) s (Faulted m 3)) ∧
    (s.dev.mstate m = .tracking → ActsOn m (.pstageFaultInput m) s (MadeSafe m 17)) ∧
    (s.dev.mstate m = .parked → ActsOn m (.motionChange m) s (MadeSafe m 18)) ∧
    (s.dev.mstate m = .exchange → ActsOn m (.motionChange m) s (MadeSafe m 18)))

/-- The events that end a state of MCH: target speed, rest, idle park, the disc in an exchange, its end and its time limit. -/
def Obligations.MchStateEvents : Prop :=
  ∀ (s : State) (m : Mech), s.dev.live m →
    (s.dev.mstate m = .spinningUp → ActsOn m (.speedReached m) s fun u =>
      u.mstate m = .spun ∧ (s.dev.cmdOp m = 3 → u.get (Reg.MCH_CMDSTAT_RESULT m) = 2)) ∧
    (s.dev.mstate m = .spinningDown → s.dev.get (Reg.OXA_MECH_MOTION m) = 0 → (s.dev.mx m).mch.init = .none →
      (s.dev.mx m).mch.goal = .park → s.dev.get (Reg.SLD_STATE_AT_PARK m) = 1 →
      ActsOn m (.restReached m) s fun u => u.mstate m = .parked ∧ u.get (Reg.MCH_STATE_AT_REST m) = 1 ∧
        (s.dev.cmdOp m = 7 → u.get (Reg.MCH_CMDSTAT_RESULT m) = 2)) ∧
    (s.dev.mstate m = .safe → s.dev.get (Reg.OXA_MECH_MOTION m) = 0 → s.dev.reloadHolds m = false →
      ActsOn m (.restReached m) s fun u => u.mstate m = .fault) ∧
    (s.dev.mstate m = .tracking → (∀ h ∈ (s.dev.mx m).mch.held, s.dev.reqLive h.req = false) → s.dev.get (Reg.MCH_CFG_IDLE_S m) ≠ 0 →
      s.dev.cmdBusy m = false →
      s.dev.inBlock m = false → ActsOn m (.idlePark m) s fun u => u.mstate m = .spinningDown ∧ (u.mx m).mch.goal = .idle) ∧
    (s.dev.mstate m = .exchange → (s.dev.mx m).mch.discLevel = false → ActsOn m (.discOut m) s fun u =>
      u.mstate m = .exchange ∧ u.get (Reg.MCH_STATE_DISC m) = 0 ∧ u.get (Reg.MCH_EVENT_DISC_OUT m) = 1 ∧ (u.mx m).goat.drt = []) ∧
    (s.dev.mstate m = .exchange → (s.dev.mx m).mch.discLevel = true → ActsOn m (.discIn m) s fun u =>
      u.mstate m = .exchange ∧ u.get (Reg.MCH_STATE_DISC m) = 1 ∧ u.get (Reg.MCH_EVENT_DISC_IN m) = 1) ∧
    (s.dev.mstate m = .exchange → (s.dev.mx m).mch.exchEnding = true → (s.dev.mx m).pins.xpermit = false →
      (s.dev.mx m).mch.exchFault = false → (s.dev.mx m).mch.savedAuto = some true →
      ActsOn m (.exchangeComplete m) s fun u => u.mstate m = .parked ∧ u.get (Reg.MCH_CTL_AUTO m) = 1 ∧
        (s.dev.cmdBusy m = true → u.get (Reg.MCH_CMDSTAT_RESULT m) = 2)) ∧
    (s.dev.mstate m = .exchange → (s.dev.mx m).mch.exchEnding = false →
      ActsOn m (.exchangeTimeout m) s fun u => u.mstate m = .exchange ∧ u.get (Reg.MCH_EVENT_XTIMEOUT m) = 1 ∧ u.mech = s.dev.mech)

/-- A change of the disc pin outside an exchange, a media request that arrives or has waited too long, and escalation. -/
def Obligations.DiscChangesAndRequests : Prop :=
  ∀ (s : State) (m : Mech), s.dev.live m →
    (∀ b : Bool, s.dev.mstate m = .parked → ActsOn m (.discChange m b) s fun u =>
      u.mstate m = .parked ∧ (u.mx m).mch.discLevel = b ∧ u.get (Reg.MCH_STATE_CAL_VALID m) = 0 ∧ (u.mx m).goat.drt = []) ∧
    (s.dev.mstate m = .tracking → ActsOn m (.discChange m false) s fun u =>
      Faulted m 8 u ∧ u.get (Reg.MCH_STATE_DISC m) = 0 ∧ u.get (Reg.MCH_STATE_CAL_VALID m) = 0) ∧
    (∀ r : MediaReq, s.dev.reqLive r = true → r.kind = .write → s.dev.mstate m = .parked → s.dev.fw.test = none →
      ActsOn m (.mediaRequest m r) s fun u =>
        (u.mx m).mch.held = (s.dev.mx m).mch.held ++ [⟨r, s.dev.now, false⟩] ∧ (u.mx m).clk.mule = true ∧ (u.mx m).clk.motor = true ∧
        KeepsOthers m s.dev u ∧ { u with mech := s.dev.mech } = s.dev) ∧
    (∀ (i : Nat) (x : Slot) (r : MediaReq), s.dev.slot i = some x → x.phase = .running → r.slot = some i →
      s.dev.mstate m = .fault → s.dev.reloadHolds m = false →
      Makes (.mediaRequest m r) s fun t => ∃ y, t.slot i = some y ∧ y.phase = .finished ∧ y.status = 0x15 ∧ y.outcome = .refused ∧
        t.mech = s.dev.mech ∧ t.regs = s.dev.regs) ∧
    (∀ (i : Nat) (x : Slot) (h : HeldReq), s.dev.slot i = some x → x.phase = .running → h ∈ (s.dev.mx m).mch.held →
      h.req.slot = some i → s.dev.get (Reg.MCH_CTL_AUTO m) = 0 → s.dev.reloadHolds m = false →
      ActsOn m (.holdTimeout m i) s fun u => (∃ y, u.slot i = some y ∧ y.phase = .finished ∧ y.status = 0x14 ∧ y.outcome = .refused) ∧
        ∀ k ∈ (u.mx m).mch.held, k.req.slot ≠ some i) ∧
    (∀ (k : Mech) (i : Nat) (x : Slot) (r : MediaReq), s.dev.mechInReset k = true → s.dev.reloadHolds k = false → s.dev.slot i = some x →
      x.phase = .running → r.slot = some i → r.kind = .flushWait → s.dev.fw.test = none → (s.dev.mx k).mch.held = [] →
      (x.reissues < 3 → Makes (.mediaRequest k r) s fun t => t.slot i = some { x with reissues := x.reissues + 1 } ∧
        (t.mx k).mch.held = [⟨r, s.dev.now, false⟩] ∧ Counts Reg.QE_REISSUE_COUNT s.dev t) ∧
      (3 ≤ x.reissues → Makes (.mediaRequest k r) s fun t => Refuses i 0x15 5 t ∧ (t.mx k).mch.held = [])) ∧
    ((s.dev.mx m).mch.escalate = true → s.dev.mstate m = .off → (s.dev.parts[m.val]).lastEnd = none →
      ActsOn m (.faultEscalation m) s fun u => u = s.dev.beginReset ⟨m.val, by omega⟩ .escalation)

/-! ### The servo -/

/-- The arithmetic of a compensator, a completed sample of a focus loop; a frame of the Mule, with its cell or lost, a write of SRV_LCTL
and an evaluation of the region tables. -/
def Obligations.CompensatorsAndFrames : Prop :=
  ((∀ c e : Int, -16 ≤ c * e - 32 * roundIn c e ∧ c * e - 32 * roundIn c e < 16) ∧
  (∀ c y : Int, -1048576 ≤ c * y - 2097152 * roundFb c y ∧ c * y - 2097152 * roundFb c y < 1048576) ∧
  (∀ (three : Bool) (cs : List Nat) (s1 s2 s3 lo hi e : Int), lo ≤ hi →
    let o := compensate three cs s1 s2 s3 lo hi e
    lo ≤ o.out ∧ o.out ≤ hi ∧ (∀ x, x = o.s1 ∨ x = o.s2 ∨ x = o.s3 → -549755813888 ≤ x ∧ x ≤ 549755813887) ∧
    (three = false → o.s3 = 0))) ∧
  (∀ (c : Dev.Run) (m : Mech) (r : Rec) (n : LoopId) (sv : Sv) (t : Nat), Img.loopKind r = 0 →
    c.d.get (Reg.SRV_LCTL_MODE m n) ≠ 3 →
    c.d.getS (Reg.SRV_LCLAMP_CLAMP_LO m n) ≤ c.d.getS (Reg.SRV_LCLAMP_CLAMP_HI m n) →
    let x := (c.d.mx m).srv.loops[n.val]
    let e := sat16 (sv.fe - c.d.getS (Reg.SRV_LSETP_SETP m n))
    let o := compensate (Img.loopOrder3 r) x.coef x.s1 x.s2 x.s3 (c.d.getS (Reg.SRV_LCLAMP_CLAMP_LO m n))
      (c.d.getS (Reg.SRV_LCLAMP_CLAMP_HI m n)) e
    let u := (Dev.runSample c m r n (some sv) t).d
    u.getS (Reg.SRV_LOUT_OUT m n) = o.out ∧ u.getS (Reg.SRV_LIN_E m n) = e ∧ u.get (Reg.SRV_LSTAT_MISS_RUN m n) = 0 ∧
    u.get (Reg.SRV_LSTAT_CLAMPED m n) = b2n o.clamped ∧
    ((u.mx m).srv.loops[n.val]).s1 = o.s1 ∧ ((u.mx m).srv.loops[n.val]).s2 = o.s2 ∧ ((u.mx m).srv.loops[n.val]).s3 = o.s3 ∧
    ((u.mx m).srv.loops[n.val]).e1 = e ∧ ((u.mx m).srv.loops[n.val]).e2 = x.e1 ∧
    ((u.mx m).srv.loops[n.val]).clampRun = (if o.clamped then x.clampRun + 1 else 0) ∧
    KeepsOthers m c.d u ∧ { u with regs := c.d.regs, mech := c.d.mech } = c.d) ∧
  (∀ (s : State) (m : Mech), s.dev.live m →
    (∀ (c : BitVec 512) (arrival : Int) (ce : Nat) (ue : List LoopId) (cb : List Nat), s.dev.get (Reg.HLK_STATE_LINK m) = 3 →
      -100 ≤ arrival → arrival ≤ 40 → ActsOn m (.servoFrame m c arrival ce ue cb) s fun u =>
        (u.mx m).opt.frameCount = (s.dev.mx m).opt.frameCount + 1 ∧ (u.mx m).srv.lostRun = 0 ∧ KeepsOthers m s.dev u ∧
        (u.mx m).opt.stamps = (cb :: (s.dev.mx m).opt.stamps).take 64 ∧ (u.mx m).opt.det.sv = s.dev.samples m (Link.servoCell c)) ∧
    (∀ (ce : Nat) (ue : List LoopId) (cb : List Nat), s.dev.get (Reg.HLK_STATE_LINK m) ≠ 0 → ActsOn m (.lostFrame m ce ue cb) s fun u =>
      (u.mx m).opt.frameCount = (s.dev.mx m).opt.frameCount + 1 ∧ (u.mx m).srv.lostRun = (s.dev.mx m).srv.lostRun + 1 ∧
      KeepsOthers m s.dev u) ∧
    (∀ (n : LoopId) (w : Word), w.toNat.testBit 3 = false → ActsOn m (.srvModeWrite m n w) s fun u =>
      u.get (Reg.SRV_LCTL_MODE m n) = bits w.toNat 0 2 ∧ u.get (Reg.SRV_LCTL_LOST_MODE m n) = bits w.toNat 2 1 ∧
      u.get (Reg.SRV_LCTL_FORCE_EN m n) = 0 ∧ u.get (Reg.SRV_LCTL_FORCE_BANK m n) = bits w.toNat 4 3 ∧
      KeepsRegs [Reg.SRV_LCTL_MODE m n, Reg.SRV_LCTL_LOST_MODE m n, Reg.SRV_LCTL_FORCE_EN m n, Reg.SRV_LCTL_FORCE_BANK m n] s.dev u ∧
      { u with regs := s.dev.regs } = s.dev) ∧
    (s.dev.get (Reg.SRV_STAT_RUNNING m) = 1 → s.dev.get (Reg.SRV_STAT_FRAME_INDEX m) % 80 = 0 →
      ActsOn m (.regionEvaluation m) s fun u =>
        u.get (Reg.SRV_REGION_ZONE m) =
          s.dev.zoneOf m (if s.dev.mstate m = .seeking then s.dev.sledSwath m else (s.dev.mx m).opt.swath) % 2 ^ (Reg.SRV_REGION_ZONE m).width ∧
        u.get (Reg.SRV_REGION_SPEED m) = (s.dev.mx m).spn.speed.natAbs % 2 ^ (Reg.SRV_REGION_SPEED m).width ∧
        KeepsOthers m s.dev u))

/-- Focus: capture and acquisition, a failed sweep, a layer jump and its end, a loss of focus. -/
def Obligations.FocusEvents : Prop :=
  ∀ (s : State) (m : Mech), s.dev.live m →
    (s.dev.mstate m = .spun → (s.dev.mx m).opt.focus = .sweep → (s.dev.mx m).opt.det.cross = true → (s.dev.mx m).opt.det.failed = false →
      (s.dev.mx m).opt.det.curves = (s.dev.mx m).opt.target.val + 1 → ActsOn m (.focusCapture m) s fun u =>
      (u.mx m).opt.focus = .settle ∧ u.get (Reg.SRV_OPT_STAT_LAYER m) = (s.dev.mx m).opt.target.val ∧
      u.get (Reg.SRV_OPT_STAT_FOCUS_ON m) = 1) ∧
    (s.dev.mstate m = .spun → (s.dev.mx m).opt.focus = .settle → 1600 ≤ (s.dev.mx m).opt.det.frames → 800 ≤ (s.dev.mx m).opt.det.good →
      s.dev.get (Reg.MCH_STATE_CAL_VALID m) = 1 →
      ActsOn m (.focusAcquired m) s fun u => u.mstate m = .focused ∧ (u.mx m).opt.focus = .none ∧ (u.mx m).mch.relock = false ∧
        (s.dev.cmdOp m = 4 → u.get (Reg.MCH_CMDSTAT_RESULT m) = 2)) ∧
    (s.dev.mstate m = .spun → (s.dev.mx m).opt.focus = .sweep → (s.dev.mx m).opt.det.failed = true ∨ s.dev.sweepDone m = true →
      (s.dev.get (Reg.MCH_CFG_REACQ m) ≤ (s.dev.mx m).opt.sweeps + 1 → ActsOn m (.focusSweepFail m) s (Faulted m 1)) ∧
      ((s.dev.mx m).opt.sweeps + 1 < s.dev.get (Reg.MCH_CFG_REACQ m) → ActsOn m (.focusSweepFail m) s fun u =>
        (u.mx m).opt.focus = .sweep ∧ (u.mx m).opt.sweeps = (s.dev.mx m).opt.sweeps + 1 ∧
        (u.mx m).opt.target = (s.dev.mx m).opt.target)) ∧
    (∀ deeper : Bool, s.dev.jumpWanted m deeper = true → ActsOn m (.layerJump m deeper) s fun u =>
      (u.mx m).opt.jump = .kick ∧ u.get (Reg.SRV_OPT_STAT_JUMP m) = 1 ∧ u.get (Reg.SRV_OPT_STAT_TRACK_ON m) = 0 ∧
      (u.mx m).opt.jumpFrom = s.dev.layer m ∧
      (u.mx m).opt.target.val = (if deeper then (s.dev.layer m).val + 1 else (s.dev.layer m).val - 1) % 4) ∧
    ((s.dev.mx m).opt.jump = .kick → (s.dev.mx m).opt.det.cross = true → ActsOn m (.jumpCapture m) s fun u =>
      (u.mx m).opt.jump = .settle ∧ u.get (Reg.SRV_OPT_STAT_LAYER m) = (s.dev.mx m).opt.target.val) ∧
    ((s.dev.mx m).opt.jump = .settle → (s.dev.mx m).opt.focus ≠ .settle → (s.dev.mx m).opt.det.bad = false →
      10 * s.dev.get (Reg.SRV_JUMP_CFG_SETTLE m) ≤ (s.dev.mx m).opt.det.frames → (s.dev.mx m).opt.cal = .none →
      ActsOn m (.focusAcquired m) s fun u => (u.mx m).opt.jump = .none ∧ u.get (Reg.SRV_OPT_STAT_JUMP m) = 0) ∧
    ((s.dev.mx m).opt.jump = .kick → 1600 ≤ (s.dev.mx m).opt.det.frames → (s.dev.mx m).opt.cal = .none → ActsOn m (.jumpTimeout m) s fun u =>
      u.mstate m = .spun ∧ (u.mx m).opt.focus = .sweep ∧ (u.mx m).opt.jump = .none) ∧
    (s.dev.running m = true → s.dev.mstate m ≠ .spun → s.dev.focusGone m = true → ActsOn m (.focusLoss m) s fun u =>
      u.mstate m = .spun ∧ (u.mx m).opt.focus = .sweep ∧ (u.mx m).mch.relock = true ∧
      u.get (Reg.SRV_OPT_EVT_FOC_LOSS m) = min (2 ^ (Reg.SRV_OPT_EVT_FOC_LOSS m).width - 1) (s.dev.get (Reg.SRV_OPT_EVT_FOC_LOSS m) + 1))

/-- Tracking: a slip, a loss, the end of a short seek, the address check; a defect comes into force, ends, and releases its loops. -/
def Obligations.TrackingAndDefects : Prop :=
  (∀ (s : State) (m : Mech), s.dev.live m →
    (∀ (b : Beam) (n : LoopId), s.dev.fineLoop m b.val = some n → tbit (s.dev.beamsInUse m) b.val = true →
      s.dev.bit (Reg.SRV_DEF_ACTIVE_BEAM m) b.val = false → s.dev.get (Reg.SRV_DEF_ACTIVE_FOCUS m) = 0 → s.dev.loopOn m n = true →
      0 < (s.dev.mx m).opt.det.slips[b.val] → s.dev.get (Reg.SRV_TRK_CFG_SLIP_N m) ≤ (s.dev.mx m).opt.det.slips[b.val] →
      ActsOn m (.slip m b) s fun u =>
        u.loopOn m n = false ∧ ((u.mx m).srv.loops[n.val]).reenable = true ∧ tbit (u.mx m).srv.inhibit b.val = true ∧
        (u.mx m).srv.okRun[b.val] = 0 ∧ KeepsOthers m s.dev u ∧
        u.get (Reg.SRV_BEAM_SLIP_CNT m b) =
          min (2 ^ (Reg.SRV_BEAM_SLIP_CNT m b).width - 1) (s.dev.get (Reg.SRV_BEAM_SLIP_CNT m b) + 1)) ∧
    (s.dev.following m = true → s.dev.get (Reg.SRV_OPT_STAT_TRACK_ON m) = 1 → s.dev.trackGone m = true → ActsOn m (.trackingLoss m) s fun u =>
      u.mstate m = .focused ∧ (u.mx m).opt.seek = .settle ∧ (u.mx m).mch.relock = true ∧ (u.mx m).fsq.addrCheck = true) ∧
    ((s.dev.mx m).opt.seek = .short → (s.dev.mx m).opt.tracks.natAbs ≤ s.dev.crossings m → ActsOn m (.shortSeekDone m) s fun u =>
      (u.mx m).opt.seek = .settle ∧ (u.mx m).fsq.addrCheck = true ∧ KeepsOthers m s.dev u) ∧
    (∀ (swath : Nat) (k : Beam), (s.dev.mx m).opt.seek = .settle → swath ≤ 6874 → s.dev.cmdOp m ≠ 5 →
      s.dev.mstate m ≠ .seeking ∨ s.dev.get (Reg.SRV_SEEK_STAT_TLAYER m) = (s.dev.layer m).val →
      (swath = s.dev.get (Reg.SRV_SEEK_STAT_TARGET m) → k.val = s.dev.lowBeam m →
        s.dev.get (Reg.SRV_CAL_STAT_QUICK m (s.dev.layer m)) = 1 →
        ActsOn m (.addressCheck m swath k) s fun u => u.mstate m = .tracking ∧ (u.mx m).opt.swath = swath ∧
          (u.mx m).opt.seek = .none ∧ u.get (Reg.SRV_SEEK_STAT_ACTIVE m) = 0 ∧ u.get (Reg.SRV_SEEK_STAT_LAST_K m) = k.val) ∧
      (swath ≠ s.dev.get (Reg.SRV_SEEK_STAT_TARGET m) → s.dev.get (Reg.SRV_SEEK_STAT_TRIES m) < s.dev.get (Reg.SRV_SEEK_CFG_RETRY m) →
        ActsOn m (.addressCheck m swath k) s fun u => (u.mx m).opt.seek = .short ∧ u.mstate m = s.dev.mstate m ∧
          u.get (Reg.SRV_SEEK_STAT_TRIES m) = (s.dev.get (Reg.SRV_SEEK_STAT_TRIES m) + 1) % 2 ^ (Reg.SRV_SEEK_STAT_TRIES m).width ∧
          (u.mx m).opt.tracks = ((s.dev.get (Reg.SRV_SEEK_STAT_TARGET m) : Int) - swath) * 16 + ((s.dev.lowBeam m : Int) - k.val)))) ∧
  (∀ (s : State) (m : Mech) (x : Defect), s.dev.live m →
    (s.dev.defectWatched m x = true → (∀ y ∈ (s.dev.mx m).opt.defects, y.1 ≠ x) → (s.dev.mx m).srv.lostRun = 0 →
      s.dev.defectBegins m (s.dev.mx m).opt.det.sv x = true → ActsOn m (.defectOnset m x) s fun u =>
      (u.mx m).opt.defects = (x, ⟨(s.dev.mx m).opt.frameCount, (s.dev.mx m).opt.frameCount, 0,
        s.dev.stampAt m ((s.dev.mx m).opt.frameCount - s.dev.get (Reg.SRV_DEF_CFG2_PRE m)), true⟩) :: (s.dev.mx m).opt.defects ∧
      (x = .focus → u.get (Reg.SRV_DEF_ACTIVE_FOCUS m) = 1) ∧
      (u.mx m).srv.inhibit = (s.dev.mx m).srv.inhibit ||| Dev.defectBeams x ∧ KeepsOthers m s.dev u) ∧
    (∀ y, (s.dev.mx m).opt.defects.find? (fun y => decide (y.1 = x)) = some y → 2 ≤ y.2.clear → ActsOn m (.defectEnd m x) s fun u =>
      (u.mx m).opt.defects = (s.dev.mx m).opt.defects.filter (fun w => decide (w.1 ≠ x)) ∧
      (x = .focus → u.get (Reg.SRV_DEF_ACTIVE_FOCUS m) = 0) ∧ KeepsOthers m s.dev u) ∧
    ActsOn m (.defectHoldExpiry m x) s fun u =>
      (u.mx m).opt.defects = (s.dev.mx m).opt.defects.map (fun w =>
        if w.1 = x ∧ w.2.onset + s.dev.get (Reg.SRV_DEF_CFG2_DEF_MAX m) ≤ (s.dev.mx m).opt.frameCount then (w.1, { w.2 with hold := false }) else w) ∧
      u.regs = s.dev.regs ∧ KeepsOthers m s.dev u)

/-- The steps of the full calibration and the quick calibration. -/
def Obligations.CalibrationSteps : Prop :=
  ∀ (s : State) (m : Mech), s.dev.live m →
    (s.dev.mstate m = .focused → (s.dev.mx m).opt.jump = .none →
      (∀ l : Layer, (s.dev.mx m).opt.cal = .runout → l = s.dev.layer m → (s.dev.mx m).opt.calLayer = l → 4 ≤ (s.dev.mx m).opt.meas.revs →
        (s.dev.mx m).opt.meas.again = true ∨ (∀ b : Beam, (s.dev.mx m).opt.meas.total ≤ 2 * ((s.dev.mx m).opt.meas.beams[b.val]).n) →
        ActsOn m (.calibrationStepDone m (.runout l)) s fun u =>
          ∀ (b : Beam) (y : RunoutX) (g : Nat), tbit (s.dev.calBeams m) b.val = true → y = (s.dev.mx m).opt.meas.beams[b.val] →
            y.lo < y.hi → (g : Int) = 2 * 16384 * 16384 / (y.hi - y.lo) → 0 < g → g < 65536 → 0 < y.n →
            u.get (Reg.SRV_CAL_GAIN_TE_GAIN m l b) = g ∧ u.get (Reg.SRV_CAL_TOFS_PP m l b) = min 65535 (y.hi - y.lo).toNat ∧
            u.getS (Reg.SRV_CAL_TOFS_TE_OFS m l b) = sat16 (y.sum * g / (y.n * 16384))) ∧
      ((s.dev.mx m).opt.cal = .seekCal → s.dev.get (Reg.SLD_STATE_MODE m) = 1 → s.dev.get (Reg.SLD_STATE_HOMED m) = 1 → ActsOn m (.calibrationStepDone m .seekDone) s fun u =>
        (u.mx m).opt.cal = .layer ∧ (u.mx m).opt.calLayer = s.dev.layer m ∧ u.get (Reg.SRV_OPT_STAT_CAL_STEP m) = 3) ∧
      (∀ (l : Layer) (foc rt tt : BitVec 16) (pair : Nat) (opt err : List (BitVec 16)), (s.dev.mx m).opt.cal = .layer →
        l = s.dev.layer m → (s.dev.mx m).opt.calLayer = l → s.dev.spnClass m = 3 →
        ActsOn m (.calibrationStepDone m (.layerDone l foc rt tt pair opt err)) s fun u =>
          u.get (Reg.SRV_CAL_FOC_FOC_OFS m l) = foc.toNat ∧ u.get (Reg.SRV_CAL_TILT_RTILT_OFS m l) = rt.toNat ∧
          u.get (Reg.SRV_CAL_TILT_TTILT_OFS m l) = tt.toNat ∧ u.get (Reg.WCH_CAL_DONE m l) = 1) ∧
      ((s.dev.mx m).opt.cal = .finish → ActsOn m (.calibrationStepDone m .finish) s fun u =>
        u.get (Reg.MCH_STATE_CAL_VALID m) = 1 ∧ (u.mx m).opt.cal = .none ∧ (u.mx m).mch.restored = 0 ∧
        (∀ l : Layer, l.val < s.dev.get (Reg.SRV_OPT_STAT_LAYERS m) → u.get (Reg.SRV_CAL_STAT_VALID m l) = 1) ∧
        (s.dev.cmdOp m = 4 → u.get (Reg.MCH_CMDSTAT_RESULT m) = 2))) ∧
    (∀ (l : Layer) (foc rt : BitVec 16), (s.dev.mx m).opt.cal = .quick → l = s.dev.layer m →
      ActsOn m (.quickCalibration m l foc rt) s fun u => u.mstate m = .tracking ∧ (u.mx m).opt.cal = .none ∧
        u.get (Reg.SRV_CAL_STAT_QUICK m l) = 1 ∧ u.get (Reg.SRV_CAL_FOC_FOC_OFS m l) = foc.toNat)

/-! ### The spindle -/

/-- Catch, flux build, braking and short brake. -/
def Obligations.CatchAndBrake : Prop :=
  ∀ (s : State) (m : Mech), s.dev.live m →
    (∀ n : Int, n = s.dev.emfSpeed m → s.dev.spnClass m = 1 → s.dev.mstate m = .spinningUp →
      (n.natAbs < 60 → ActsOn m (.catchEnd m) s fun u =>
        u.spnClass m = 2 ∧ (u.mx m).spn.fluxBuild = true ∧ (u.mx m).spn.vector = 1 ∧ u.get (Reg.SPN_STATE_CASE m) = 0) ∧
      (60 ≤ n → n ≤ 2 * (s.dev.profileRpm m : Int) → ActsOn m (.catchEnd m) s fun u =>
        u.spnClass m = 2 ∧ u.get (Reg.SPN_STATE_CASE m) = 1 ∧ (u.mx m).spn.speed = n ∧
        (u.mx m).spn.ang = ((s.dev.mx m).spn.emf.ang + 3221225472) % 4294967296) ∧
      (60 ≤ n → 2 * (s.dev.profileRpm m : Int) < n → ActsOn m (.catchEnd m) s fun u =>
        u.spnClass m = 2 ∧ u.get (Reg.SPN_STATE_CASE m) = 2 ∧ (u.mx m).spn.speed = n) ∧
      (n ≤ -60 → -(2 * (s.dev.get (Reg.SPN_LIM0_BACK_THR m) : Int)) < n → ActsOn m (.catchEnd m) s fun u =>
        u.spnClass m = 4 ∧ u.get (Reg.SPN_STATE_CASE m) = 3 ∧ (u.mx m).spn.speed = n ∧
        (u.mx m).spn.ang = ((s.dev.mx m).spn.emf.ang + 1073741824) % 4294967296) ∧
      (n ≤ -60 → n ≤ -(2 * (s.dev.get (Reg.SPN_LIM0_BACK_THR m) : Int)) → ActsOn m (.catchEnd m) s fun u =>
        u.spnClass m = 5 ∧ u.get (Reg.SPN_STATE_CASE m) = 4 ∧ (u.mx m).pins.gates = .lowSides)) ∧
    (s.dev.spnClass m = 2 → (s.dev.mx m).spn.fluxBuild = true → ActsOn m (.fluxBuildDone m) s fun u =>
      u.spnClass m = 2 ∧ (u.mx m).spn.fluxBuild = false ∧ (u.mx m).spn.ang = 0 ∧ (u.mx m).spn.start0 = some 0 ∧ KeepsOthers m s.dev u) ∧
    (s.dev.spnClass m = 4 → (s.dev.mx m).spn.speed.natAbs < 60 → s.dev.mstate m = .spinningDown → ActsOn m (.brakeStop m) s fun u =>
      u.spnClass m = 0 ∧ (u.mx m).pins.gates = .off ∧ (u.mx m).pins.psen = false ∧ (u.mx m).spn.speed = 0 ∧ KeepsOthers m s.dev u) ∧
    (s.dev.spnClass m = 5 → (s.dev.mx m).spn.releasing = false → ActsOn m (.shortBrakeOnEnd m) s fun u =>
      u.get (Reg.SPN_STATE_SHORT m) = 0 ∧ (u.mx m).spn.releasing = true ∧ (u.mx m).pins.gates = .off ∧
      KeepsRegs [Reg.SPN_STATE_SHORT m] s.dev u ∧ KeepsOthers m s.dev u) ∧
    (∀ n : Int, n = s.dev.emfSpeed m → s.dev.spnClass m = 5 → (s.dev.mx m).spn.releasing = true → (s.dev.mx m).spn.comFail = false →
      (2 * s.dev.get (Reg.SPN_LIM0_BACK_THR m) ≤ n.natAbs → ActsOn m (.shortBrakeReleaseEnd m) s fun u =>
        u.spnClass m = 5 ∧ u.get (Reg.SPN_STATE_SHORT m) = 1 ∧ (u.mx m).spn.releasing = false ∧ (u.mx m).pins.gates = .lowSides ∧
        (u.mx m).spn.speed = n) ∧
      (n.natAbs < 60 → 60 < 2 * s.dev.get (Reg.SPN_LIM0_BACK_THR m) → s.dev.mstate m = .spinningDown →
        ActsOn m (.shortBrakeReleaseEnd m) s fun u => u.spnClass m = 0 ∧ (u.mx m).pins.gates = .off))

/-- The chopper and the thresholds of the bus. -/
def Obligations.BusThresholds : Prop :=
  ∀ (s : State) (m : Mech), s.dev.live m →
    (∀ v : Nat, s.dev.spnClass m ≠ 7 → s.dev.get (Reg.SPN_STATE_CHOP_BAD m) = 0 → (s.dev.mx m).spn.busBad = false →
      (s.dev.get (Reg.SPN_THR0_CHOP_ON_V m) ≤ min 65535 v → ActsOn m (.chopperSwitch m v) s fun u =>
        (u.mx m).pins.chop = true ∧ KeepsRegs [Reg.SPN_BUS_VBUS m] s.dev u ∧ KeepsOthers m s.dev u) ∧
      (min 65535 v < s.dev.get (Reg.SPN_THR0_CHOP_ON_V m) → min 65535 v < s.dev.get (Reg.SPN_THR0_CHOP_OFF_V m) →
        ActsOn m (.chopperSwitch m v) s fun u =>
          (u.mx m).pins.chop = false ∧ KeepsRegs [Reg.SPN_BUS_VBUS m] s.dev u ∧ KeepsOthers m s.dev u)) ∧
    ((s.dev.mx m).pins.chop = true → s.dev.get (Reg.SPN_STATE_CHOP_BAD m) = 0 →
      1000 * s.dev.get (Reg.SPN_CHOP_CFG_CHOP_DET m) ≤ (s.dev.mx m).spn.chopLow → ActsOn m (.chopperFault m) s fun u =>
      u.get (Reg.SPN_STATE_CHOP_BAD m) = 1 ∧ u.get (Reg.SPN_STATE_LOSS_ONLY m) = 1 ∧ (u.mx m).pins.chop = false ∧ KeepsOthers m s.dev u) ∧
    ((s.dev.segment m).filter s.dev.spnLive = [m] → s.dev.generating m = true → ActsOn m (.regenEvent m) s fun u =>
      u.spnClass m = 6 ∧ u.get (Reg.SPN_EVENT_REGEN m) = 1) ∧
    (s.dev.spnClass m = 6 → ActsOn m (.shortVReached m) s fun u =>
      u.get (Reg.SPN_STATE_SHORT m) = 1 ∧ (u.mx m).pins.gates = .lowSides ∧ u.get (Reg.SPN_EVENT_SHORT m) = 1 ∧ KeepsOthers m s.dev u) ∧
    (s.dev.mstate m = .tracking → ActsOn m (.gatesoffVReached m) s fun u => MadeSafe m 16 u ∧ u.get (Reg.SPN_EVENT_GATESOFF m) = 1) ∧
    ((s.dev.segment m).filter s.dev.spnLive = [m] → s.dev.spnClass m = 6 → ActsOn m (.busHoldRelease m) s fun u =>
      u.spnClass m = (if (s.dev.mx m).spn.wasBraking then 4 else 2) ∧ u.get (Reg.SPN_STATE_ABSORB m) = 0) ∧
    (ActsOn m (.undervoltage m) s fun u => u.get (Reg.SPN_STATE_UV m) = 1 ∧ u.get (Reg.SPN_EVENT_UV m) = 1 ∧
      (s.dev.spnClass m = 3 → u.spnClass m = 2 ∧ u.get (Reg.SPN_LAST_CAUSE m) = 6) ∧ KeepsOthers m s.dev u)

/-- Faults of the spindle and what clears them; the modulator settings. -/
def Obligations.SpindleFaults : Prop :=
  ∀ (s : State) (m : Mech), s.dev.live m →
    (s.dev.mstate m = .tracking → s.dev.spnClass m = 2 →
      (s.dev.commBad m = true → ActsOn m (.commutationFailure m) s fun u =>
        Faulted m 6 u ∧ u.spnClass m = 5 ∧ (u.mx m).spn.comFail = true) ∧
      (s.dev.get (Reg.SPN_STATE_UV m) = 1 → ActsOn m (.undervoltageTimeout m) s fun u => Faulted m 6 u ∧ u.spnClass m = 5)) ∧
    (∀ cur : Nat, s.dev.spnClass m = 2 → (s.dev.srec m 0x50).f 4 16 16 < cur → ActsOn m (.overcurrentTrip m cur) s fun u =>
      (u.mx m).pins.gates = .off ∧ u.get (Reg.SPN_EVENT_OC m) = 1 ∧ u.spnClass m = 2 ∧ KeepsOthers m s.dev u) ∧
    (∀ k : Fin 8, k.val ≤ 2 → ActsOn m (.dsmStreamFault m k) s fun u =>
      (u.mx m).spn.curBad = true ∧ u.get (Reg.SPN_EVENT_STREAM m) = 1 ∧ u.mstate m = s.dev.mstate m ∧ KeepsOthers m s.dev u) ∧
    (∀ k : Fin 8, 3 ≤ k.val → k.val ≤ 6 → s.dev.mstate m = .tracking → ActsOn m (.dsmStreamFault m k) s (Faulted m 6)) ∧
    (∀ ke : Nat, s.dev.keOf m = some ke → s.dev.spnClass m = 1 ∨ (s.dev.mx m).spn.window ≠ .none → 0 < s.dev.get (Reg.SPN_LIM1_KE m) →
      ActsOn m (.keMeasurement m) s fun u =>
      u.get (Reg.SPN_KE_MEAS m) = min 65535 ke ∧ u.get (Reg.SPN_KE_VALID m) = 1 ∧ KeepsOthers m s.dev u ∧
      ((s.dev.mx m).spn.window = .up → (u.mx m).spn.window = .none ∧ (u.mx m).pins.gates = .driven) ∧
      ((s.dev.mx m).spn.window = .down → u.spnClass m = 4) ∧
      (12 * s.dev.get (Reg.SPN_LIM1_KE m) < 100 * ((ke : Int) - s.dev.get (Reg.SPN_LIM1_KE m)).natAbs →
        u.get (Reg.SPN_STATE_KE_BAD m) = 1 ∧ u.get (Reg.MCH_EVENT_KE m) = 1)) ∧
    (ActsOn m (.keClear m) s fun u => u = s.dev.set (Reg.SPN_STATE_KE_BAD m) 0) ∧
    (ActsOn m (.chopClear m) s fun u => u = (s.dev.set (Reg.SPN_STATE_CHOP_BAD m) 0).set (Reg.SPN_STATE_LOSS_ONLY m) 0) ∧
    (∀ w : Word, s.dev.spnClass m = 0 → 8 ≤ bits w.toNat 0 8 → bits w.toNat 0 8 ≤ 50 → 8 ≤ bits w.toNat 8 8 → bits w.toNat 8 8 ≤ 64 →
      8 ≤ bits w.toNat 16 8 → bits w.toNat 16 8 ≤ 128 → ActsOn m (.dsmCfgWrite m w) s fun u =>
        u.get (Reg.SPN_DSM_CFG_DIV m) = bits w.toNat 0 8 ∧ u.get (Reg.SPN_DSM_CFG_DEC_I m) = bits w.toNat 8 8 ∧
        u.get (Reg.SPN_DSM_CFG_DEC_V m) = bits w.toNat 16 8 ∧ u.get (Reg.SPN_DSM_CFG_SETTLE m) = bits w.toNat 24 8 ∧
        KeepsRegs [Reg.SPN_DSM_CFG_DIV m, Reg.SPN_DSM_CFG_DEC_I m, Reg.SPN_DSM_CFG_DEC_V m, Reg.SPN_DSM_CFG_SETTLE m] s.dev u ∧
        { u with regs := s.dev.regs } = s.dev) ∧
    (∀ (w : Word) (bad : Bool), bad = decide (bits w.toNat 0 8 < 8 ∨ 50 < bits w.toNat 0 8 ∨ bits w.toNat 8 8 < 8 ∨ 64 < bits w.toNat 8 8 ∨
        bits w.toNat 16 8 < 8 ∨ 128 < bits w.toNat 16 8) →
      (s.dev.spnClass m ≠ 0 → bad = false → ActsOn m (.dsmCfgWrite m w) s fun u => u = s.dev.vlogAdd (0x20 + m.val) 0x0504 0) ∧
      (s.dev.spnClass m = 0 → bad = true → ActsOn m (.dsmCfgWrite m w) s fun u => u = s.dev.vlogAdd (0x20 + m.val) 0x0507 0) ∧
      (s.dev.spnClass m ≠ 0 → bad = true → ActsOn m (.dsmCfgWrite m w) s fun u =>
        u = (s.dev.vlogAdd (0x20 + m.val) 0x0504 0).vlogAdd (0x20 + m.val) 0x0507 0))

/-- The voltage vectors of direct torque control; a DTC step, a commutation and a PWM period, hand-over and hand-back; the index mark
carries the head to the next swath in a run, and stays on its own in TRACKING without one. -/
def Obligations.SpindleDrive : Prop :=
  ((∀ k : Fin 6, nextVector true 1 (k.val + 1) 0 = (k.val + 1) % 6 + 1 ∧ nextVector false 1 (k.val + 1) 0 = (k.val + 2) % 6 + 1 ∧
    nextVector true (-1) (k.val + 1) 0 = (k.val + 5) % 6 + 1 ∧ nextVector false (-1) (k.val + 1) 0 = (k.val + 4) % 6 + 1) ∧
  (∀ (dpsi : Bool) (k : Fin 6) (v : Fin 8), nextVector dpsi 0 (k.val + 1) v.val =
    if v.val = 2 ∨ v.val = 4 ∨ v.val = 6 ∨ v.val = 7 then 7 else 0) ∧
  (∀ (dpsi : Bool) (dtau : Int) (sector now : Nat), nextVector dpsi dtau sector now ≤ 7)) ∧
  (∀ (s : State) (m : Mech), s.dev.live m →
    (∀ i : MotorSample, s.dev.spnClass m = 2 ∨ s.dev.spnClass m = 4 → (s.dev.mx m).spn.fluxBuild = false → (s.dev.mx m).spn.window = .none →
      ActsOn m (.dtcStep m i) s fun u =>
      u.get (Reg.SPN_BUS_VBUS m) = min 65535 i.vbus ∧ (u.mx m).pins.gates = .driven ∧ KeepsOthers m s.dev u ∧
      (u.mx m).spn.vector = if 1000 * (s.dev.srec m 0x50).f 4 0 16 ≤ Dev.peakI (u.mx m).spn then zeroVector (s.dev.mx m).spn.vector
        else nextVector (u.mx m).spn.dpsi (u.mx m).spn.dtau (fluxSector (u.mx m).spn.psiA (u.mx m).spn.psiB) (s.dev.mx m).spn.vector) ∧
    (∀ i : MotorSample, s.dev.spnClass m = 0 ∨ s.dev.spnClass m = 3 ∨ s.dev.spnClass m = 7 →
      ActsOn m (.dtcStep m i) s fun u => u = s.dev) ∧
    (∀ r : Bool, s.dev.spnClass m = 3 → ActsOn m (.commutation m r) s fun u =>
      (u.mx m).spn.ang = (2863311531 + 715827883 * (s.dev.mx m).spn.conduct) % 4294967296 ∧ (u.mx m).spn.crossAt = s.dev.now ∧
      KeepsOthers m s.dev u ∧
      (r = true → (u.mx m).spn.bemfSkips = (s.dev.mx m).spn.bemfSkips + 1 ∧
        u.spnClass m = if s.dev.get (Reg.SPN_REC_EXIT_BEMF_SKIP_MAX m) ≤ (s.dev.mx m).spn.bemfSkips + 1 then 2 else 3)) ∧
    (∀ i : MotorSample, s.dev.spnClass m = 3 → ActsOn m (.spindlePwmPeriod m i) s fun u =>
      u.get (Reg.SPN_BUS_VBUS m) = min 65535 i.vbus ∧ u.get (Reg.SPN_BUS_ICHOP m) = min 65535 i.ichop ∧
      (u.mx m).pins.gates = .driven ∧ (u.mx m).spn.duties.length = 3 ∧ KeepsOthers m s.dev u) ∧
    (s.dev.handoverDue m = true → ActsOn m (.handover m) s fun u =>
      u.spnClass m = 3 ∧ u.get (Reg.MCH_STATE_RECORDING_CLASS m) = 1 ∧ u.get (Reg.SPN_EVENT_HANDOVER m) = 1 ∧ KeepsOthers m s.dev u) ∧
    (s.dev.spnClass m = 3 → ActsOn m (.handback m 5) s fun u =>
      u.spnClass m = 2 ∧ u.get (Reg.SPN_LAST_CAUSE m) = 5 ∧ u.get (Reg.MCH_STATE_RECORDING_CLASS m) = 0 ∧
      u.get (Reg.SPN_EVENT_HANDBACK m) = 1 ∧ KeepsOthers m s.dev u) ∧
    (∀ c : Fin 7, s.dev.spnClass m = 3 → s.dev.handbackHolds m c.val = true → s.dev.get (Reg.FSQ_STAT_RUN m) = 0 →
      ActsOn m (.handback m c) s fun u => u.spnClass m = 2 ∧ u.get (Reg.SPN_LAST_CAUSE m) = c.val) ∧
    (∀ c : Fin 7, c = 1 ∨ c = 2 ∨ c = 4 → s.dev.spnClass m = 3 → s.dev.handbackHolds m c.val = true →
      s.dev.get (Reg.FSQ_STAT_RUN m) = 1 → s.dev.get (Reg.FSQ_STAT_WRITE m) = 1 →
      (s.dev.mx m).spn.handbackDue = none → ActsOn m (.handback m c) s fun u =>
        (u.mx m).spn.handbackDue = some c.val ∧ u.spnClass m = 3 ∧ u.regs = s.dev.regs)) ∧
  (∀ (s : State) (m : Mech), s.dev.live m → s.dev.spnClass m = 3 → 0 ≤ (s.dev.mx m).spn.speed → (s.dev.mx m).fsq.items = [] →
    (s.dev.mstate m = .reading ∨ s.dev.mstate m = .writing → s.dev.spnClass m ≠ 0 → s.dev.spnClass m ≠ 7 → (s.dev.mx m).spn.indexDue = true →
      (∀ w ∈ (s.dev.mx m).fsq.items, w.entry ≠ 6) → ActsOn m (.indexMark m) s fun u =>
      (u.mx m).opt.swath = (s.dev.mx m).opt.swath + 1 ∧ (u.mx m).spn.indexDue = false ∧ u.mstate m = s.dev.mstate m ∧ KeepsOthers m s.dev u) ∧
    (s.dev.mstate m = .tracking → s.dev.get (Reg.FSQ_STAT_RUN m) = 0 → s.dev.spnClass m ≠ 0 → s.dev.spnClass m ≠ 7 →
      (s.dev.mx m).spn.indexDue = true → ActsOn m (.indexMark m) s fun u =>
      (u.mx m).opt.swath = (s.dev.mx m).opt.swath ∧ (u.mx m).spn.indexDue = false ∧ u.mstate m = .tracking ∧ KeepsOthers m s.dev u))

/-! ### The sled -/

/-- The periods and moves of the sled: coil voltages off in OFF, a stop that ends STOPPED, a completed seek move, HOLD given up at
rest, a move resumed after undervoltage; the commands of SLD_CMD: STOP in a move, RESUME of a kept one, and those that are refused. -/
def Obligations.SledMovesAndCommands : Prop :=
  ∀ (s : State) (m : Mech), s.dev.live m →
    (s.dev.get (Reg.SLD_STATE_MODE m) = 0 → ActsOn m (.sledPwmPeriod m) s fun u =>
      u.get (Reg.SLD_VOUT_VA m) = 0 ∧ u.get (Reg.SLD_VOUT_VB m) = 0 ∧ u.get (Reg.SLD_STATE_MODE m) = 0 ∧
      (u.mx m).sld = { (s.dev.mx m).sld with dutyA := none, dutyB := none } ∧ KeepsOthers m s.dev u) ∧
    (s.dev.get (Reg.SLD_STATE_MODE m) = 2 → (s.dev.mx m).sld.stopping = true → (s.dev.mx m).sld.limStop = false →
      (s.dev.mx m).sld.vel = 0 → s.dev.get (Reg.SLD_STATE_LIM m) = 0 → ActsOn m (.sledPwmPeriod m) s fun u =>
        u.get (Reg.SLD_STATE_MODE m) = 4 ∧ (u.mx m).sld.stopping = false ∧ (u.mx m).sld.pos = (s.dev.mx m).sld.pos ∧
        KeepsOthers m s.dev u) ∧
    (s.dev.get (Reg.SLD_STATE_MODE m) = 2 → (s.dev.mx m).sld.stopping = false → (s.dev.mx m).sld.limStop = false →
      (s.dev.mx m).sld.pos = (s.dev.mx m).sld.target * Dev.ustep → (s.dev.mx m).sld.vel = 0 →
      (s.dev.mx m).sld.after = none → (s.dev.mx m).sld.seekMove = true → (s.dev.mx m).opt.seek = .sledMove →
      ActsOn m (.sledMoveDone m) s fun u => u.get (Reg.SLD_STATE_MODE m) = 1 ∧ (u.mx m).opt.seek = .short ∧
        (u.mx m).sld.pos = (s.dev.mx m).sld.pos ∧ (u.mx m).sld.vel = 0 ∧ u.get (Reg.SLD_EVENT_DONE m) = 1 ∧
        KeepsOthers m s.dev u) ∧
    (s.dev.get (Reg.SLD_STATE_MODE m) = 1 → s.dev.get (Reg.SLD_STATE_AT_PARK m) = 1 → s.dev.mstate m = .parked →
      ActsOn m (.sledHoldExpiry m) s fun u => u.get (Reg.SLD_STATE_MODE m) = 0 ∧ (u.mx m).pins.sled = false ∧ KeepsOthers m s.dev u) ∧
    (s.dev.get (Reg.SLD_STATE_UV_WAIT m) = 1 → s.dev.get (Reg.SLD_STATE_KEPT m) = 1 → s.dev.get (Reg.SPN_STATE_UV m) = 0 →
      s.dev.get (Reg.SLD_STATE_MODE m) = 4 → s.dev.get (Reg.SLD_STATE_HOMED m) = 1 → ActsOn m (.uvResume m) s fun u =>
        u.get (Reg.SLD_STATE_MODE m) = 2 ∧ u.get (Reg.SLD_STATE_KEPT m) = 0 ∧ u.get (Reg.SLD_STATE_UV_WAIT m) = 0 ∧
        (u.mx m).pins.sled = true ∧ KeepsOthers m s.dev u) ∧
    (s.dev.get (Reg.SLD_STATE_MODE m) = 2 → ActsOn m (.sledStop m) s fun u =>
      (u.mx m).sld.stopping = true ∧ u.get (Reg.SLD_STATE_KEPT m) = 1 ∧ u.get (Reg.SLD_CMDSTAT_RESULT m) = 1 ∧
      u.get (Reg.SLD_CMDSTAT_OP m) = 1 ∧ KeepsRegs [Reg.SLD_STATE_KEPT m, Reg.SLD_CMDSTAT_RESULT m, Reg.SLD_CMDSTAT_OP m] s.dev u ∧
      KeepsOthers m s.dev u) ∧
    (s.dev.get (Reg.SLD_STATE_MODE m) ≠ 2 → ActsOn m (.sledStop m) s fun u =>
      u.get (Reg.SLD_CMDSTAT_RESULT m) = 3 ∧ u.get (Reg.SLD_CMDSTAT_OP m) = 1 ∧ u.mech = s.dev.mech ∧
      KeepsRegs [Reg.SLD_CMDSTAT_RESULT m, Reg.SLD_CMDSTAT_OP m] s.dev u) ∧
    (s.dev.get (Reg.SLD_STATE_MODE m) = 4 → s.dev.get (Reg.SLD_STATE_KEPT m) = 1 → s.dev.get (Reg.SLD_STATE_HOMED m) = 1 →
      s.dev.get (Reg.SLD_STATE_LIM m) = 0 → (s.dev.mx m).sld.keptState = s.dev.get (Reg.MCH_STATE_STATE m) →
      ActsOn m (.sledResume m) s fun u => u.get (Reg.SLD_STATE_MODE m) = 2 ∧ u.get (Reg.SLD_STATE_KEPT m) = 0 ∧
        u.get (Reg.SLD_CMDSTAT_RESULT m) = 2 ∧ u.get (Reg.SLD_CMDSTAT_OP m) = 2 ∧ (u.mx m).sld.target = (s.dev.mx m).sld.target ∧
        KeepsOthers m s.dev u) ∧
    (s.dev.get (Reg.SLD_STATE_MODE m) ≠ 4 → ActsOn m (.sledResume m) s fun u =>
      u.get (Reg.SLD_CMDSTAT_RESULT m) = 3 ∧ u.get (Reg.SLD_CMDSTAT_OP m) = 2 ∧ u.mech = s.dev.mech) ∧
    (∀ op : BitVec 4, op.toNat ≠ 1 → op.toNat ≠ 2 → ActsOn m (.sldUnknownOp m op) s fun u =>
      u = (s.dev.set (Reg.SLD_CMDSTAT_RESULT m) 4).set (Reg.SLD_CMDSTAT_OP m) op.toNat)

/-- Limit switches and homing. -/
def Obligations.LimitsAndHoming : Prop :=
  ∀ (s : State) (m : Mech), s.dev.live m →
    (∀ outer : Bool, s.dev.bit (Reg.SLD_STATE_LIM m) (b2n outer) = false → s.dev.get (Reg.SLD_STATE_MODE m) ≠ 5 →
      s.dev.mstate m = .tracking →
      (s.dev.limStable m outer true (s.dev.get (Reg.SLD_CFG2_DEBOUNCE m)) = true →
        ActsOn m (.limitSwitchAssert m outer) s fun u => Faulted m 7 u ∧ u.bit (Reg.SLD_STATE_LIM m) (b2n outer) = true) ∧
      (17 ≤ (s.dev.limEdgesOf m outer).length → (s.dev.limEdgesOf m outer).headD 0 ≤ (s.dev.limEdgesOf m outer).getD 16 0 + 1000000 →
        ActsOn m (.limitChatter m outer) s fun u => Faulted m 7 u ∧ u.bit (Reg.SLD_STATE_LIM m) (b2n outer) = true)) ∧
    (s.dev.get (Reg.SLD_STATE_MODE m) = 5 → (s.dev.mx m).sld.homeStep = 1 → (s.dev.mx m).sld.stopping = false →
      s.dev.get (Reg.SLD_STATE_LIM m) = 0 → s.dev.limStable m false true (s.dev.get (Reg.SLD_CFG2_DEBOUNCE m)) = true →
      (s.dev.mx m).sld.vel ≠ 0 → ActsOn m (.limitSwitchAssert m false) s fun u =>
        (u.mx m).sld.homeStep = 2 ∧ u.bit (Reg.SLD_STATE_LIM m) 0 = true ∧ u.mstate m = s.dev.mstate m ∧ KeepsOthers m s.dev u) ∧
    (s.dev.get (Reg.SLD_STATE_MODE m) = 5 → (s.dev.mx m).sld.homeStep = 1 → (s.dev.mx m).sld.stopping = false →
      s.dev.get (Reg.SLD_STATE_LIM m) = 0 → s.dev.limStable m true true (s.dev.get (Reg.SLD_CFG2_DEBOUNCE m)) = true →
      ActsOn m (.limitSwitchAssert m true) s fun u => u.get (Reg.SLD_STATE_MODE m) = 0 ∧ u.get (Reg.SLD_STATE_HOMED m) = 0 ∧
        u.get (Reg.SLD_EVENT_HOME_FAIL m) = 1 ∧ KeepsOthers m s.dev u) ∧
    (s.dev.get (Reg.SLD_STATE_MODE m) = 5 → (s.dev.mx m).sld.homeStep = 3 → (s.dev.mx m).sld.stopping = false →
      (s.dev.mx m).sld.chatter = Vector.replicate 2 false → s.dev.limStable m false false (s.dev.get (Reg.SLD_CFG2_DEBOUNCE m)) = true →
      ActsOn m (.limitSwitchDeassert m false) s fun u =>
      u.get (Reg.SLD_STATE_HOMED m) = 1 ∧ u.get (Reg.SLD_EVENT_HOME_DONE m) = 1 ∧ u.get (Reg.SLD_STATE_MODE m) = 2 ∧
      (u.mx m).sld.pos = 0 ∧ (u.mx m).sld.target = (s.dev.get (Reg.SLD_PARK_PARK_POS m) : Int) ∧ KeepsOthers m s.dev u) ∧
    (s.dev.mstate m = .tracking → s.dev.get (Reg.SLD_STATE_LIM m) ≠ 3 →
      s.dev.limStable m false true (s.dev.get (Reg.SLD_CFG2_DEBOUNCE m)) = true →
      s.dev.limStable m true true (s.dev.get (Reg.SLD_CFG2_DEBOUNCE m)) = true →
      ActsOn m (.bothLimitsAsserted m) s fun u => Faulted m 7 u ∧ u.get (Reg.SLD_STATE_LIM m) = 3) ∧
    (s.dev.get (Reg.SLD_STATE_MODE m) = 0 → s.dev.get (Reg.SLD_STATE_HOMED m) = 0 → ActsOn m (.homing m) s fun u =>
      u.get (Reg.SLD_STATE_MODE m) = 5 ∧ (u.mx m).pins.sled = true ∧ KeepsOthers m s.dev u ∧
      (u.mx m).sld.homeStep = if s.dev.bit (Reg.SLD_STATE_LIM m) 0 then 3 else 1) ∧
    (∀ c : Fin 4, s.dev.homingBad m c.val = true → s.dev.get (Reg.SLD_STATE_MODE m) = 5 → (s.dev.mx m).sld.stopping = false →
      ActsOn m (.homingFail m c) s fun u =>
      u.get (Reg.SLD_STATE_MODE m) = 0 ∧ u.get (Reg.SLD_STATE_HOMED m) = 0 ∧ u.get (Reg.SLD_EVENT_HOME_FAIL m) = 1 ∧
      (u.mx m).pins.sled = false ∧ KeepsOthers m s.dev u)

/-! ### The Head Link -/

/-- Trainings: their causes, their ends, and what follows a failed one. -/
def Obligations.HeadLinkTraining : Prop :=
  ∀ (s : State) (m : Mech), s.dev.live m →
    (s.dev.get (Reg.HLK_STATE_LINK m) ≠ 1 → s.dev.get (Reg.HLK_STATE_LINK m) ≠ 2 →
      (∀ i, i = Instr.fullTraining m ∨ i = .hlkFull m → ActsOn m i s fun u =>
        u.get (Reg.HLK_STATE_LINK m) = 1 ∧ u.get (Reg.HLK_STATE_UP_LOCK m) = 0 ∧ u.get (Reg.HLK_STATE_DN_LOCK m) = 0 ∧
        u.get (Reg.HLK_EVENT_RETRAIN m) = 1 ∧ (u.mx m).gate.ropen = 0 ∧ Counts (Reg.HLK_RETRAIN_FULL m) s.dev u ∧
        KeepsOthers m s.dev u) ∧
      (∀ i, i = Instr.fastRetrain m ∨ i = .hlkRetrain m → ActsOn m i s fun u =>
        u.get (Reg.HLK_STATE_LINK m) = (if (s.dev.mx m).hlk.taps.isSome then 2 else 1) ∧ u.get (Reg.HLK_STATE_UP_LOCK m) = 0 ∧
        u.get (Reg.HLK_STATE_DN_LOCK m) = 0 ∧ (u.mx m).gate.ropen = 0 ∧
        ((s.dev.mx m).hlk.taps.isSome = true → Counts (Reg.HLK_RETRAIN_FAST m) s.dev u) ∧ KeepsOthers m s.dev u)) ∧
    (∀ lane : Fin 3, s.dev.get (Reg.HLK_STATE_LINK m) = 3 → ∀ i, i = Instr.blockLockLoss m lane ∨
      (i = .errorRateExceeded m lane ∧ s.dev.rateExceeded m lane = true) → ActsOn m i s fun u => u.get (Reg.HLK_STATE_LINK m) = (if (s.dev.mx m).hlk.taps.isSome then 2 else 1) ∧
        (u.mx m).gate.ropen = 0 ∧ (i = .errorRateExceeded m lane → u.get (Reg.HLK_EVENT_ERR_RATE m) = 1) ∧ KeepsOthers m s.dev u) ∧
    (∀ r : TrainResult, s.dev.get (Reg.HLK_STATE_LINK m) = 1 ∨ s.dev.get (Reg.HLK_STATE_LINK m) = 2 →
      (r.linkOk = true → r.status.toNat % 8 = 0 → r.id.toNat = (s.dev.srec m 0x20).f 0 16 16 →
        ActsOn m (.trainingDone m r) s fun u => u.get (Reg.HLK_STATE_LINK m) = 3 ∧ u.get (Reg.HLK_STATE_ID_OK m) = 1 ∧
          u.get (Reg.HLK_HEAD_ID_ID m) = r.id.toNat ∧ u.get (Reg.HLK_HEAD_ID_VER m) = r.ver.toNat ∧
          u.get (Reg.HLK_TIMING_RTT m) = r.rtt.toNat ∧ u.get (Reg.HLK_TIMING_SDLY m) = Dev.sdlyOf r.rtt.toNat ∧
          u.get (Reg.HLK_EVENT_UP m) = 1 ∧ (s.dev.get (Reg.HLK_STATE_LINK m) = 1 → (u.mx m).hlk.taps = some r.eq)) ∧
      (r.linkOk = false → s.dev.get (Reg.HLK_STATE_LINK m) = 2 → (s.dev.mx m).hlk.taps.isSome = true →
        ActsOn m (.trainingDone m r) s fun u => (u.mx m).hlk.fastFails = (s.dev.mx m).hlk.fastFails + 1 ∧
          u.get (Reg.HLK_STATE_LINK m) = if s.dev.get (Reg.HLK_CFG_RETRY m) ≤ (s.dev.mx m).hlk.fastFails + 1 then 1 else 2) ∧
      (r.linkOk = false → s.dev.get (Reg.HLK_STATE_LINK m) = 1 → s.dev.mstate m = .spun →
        ActsOn m (.trainingDone m r) s fun u => Faulted m 4 u ∧ u.get (Reg.HLK_STATE_LINK m) = 4 ∧ u.get (Reg.HLK_EVENT_FAILED m) = 1))

/-- Upstream blocks, as the levels of a lane carry them: a bad header counts; the 320 samples of a good stream block of an enabled beam are
placed, and the gap before them is erased. -/
def Obligations.UpstreamBlocks : Prop :=
  ∀ (s : State) (m : Mech) (lane : Fin 3) (levels : List (BitVec 2)) (d : Dev) (b : Link.Block), s.dev.live m →
    s.dev.get (Reg.HLK_STATE_LINK m) ≠ 0 → s.dev.get (Reg.HLK_STATE_LINK m) ≠ 4 → s.dev.hear m lane levels = (d, b) →
    ((d.mx m).hlk.rx[lane.val] = (Link.descramble 2048 (Link.ofLevels levels) (s.dev.mx m).hlk.rx[lane.val]).2 ∧
      { d with mech := s.dev.mech } = s.dev ∧ KeepsOthers m s.dev d) ∧
    (b.hdrOk = false → ActsOn m (.upstreamBlock m lane levels) s fun u =>
      Counts (Reg.HLK_ERR_HDR m ⟨lane.val, by omega⟩) s.dev u ∧ KeepsRegs [Reg.HLK_ERR_HDR m ⟨lane.val, by omega⟩] s.dev u ∧
      KeepsOthers m s.dev u ∧ { u.mx m with hlk := (s.dev.mx m).hlk } = s.dev.mx m) ∧
    (∀ (k : Beam) (e : Nat), b.hdrOk = true → b.crcOk = true → b.t.mtype = 0 → b.t.sv = false → b.t.stream = k.val →
      (s.dev.bit (Reg.MCH_BEAM_ENABLE m) k.val = false → ActsOn m (.upstreamBlock m lane levels) s fun u =>
        u = d.vlogAdd m.val 0x0704 0 [(0, 1, lane.val), (1, 1, k.val), (2, 4, b.t.pos)]) ∧
      (s.dev.bit (Reg.MCH_BEAM_ENABLE m) k.val = true → (s.dev.mx m).hlk.placed[k.val] = some e → (s.dev.mx m).hlk.part[k.val] = none →
        (s.dev.mx m).rch.frames = [] → 0 ≤ Link.cbcDiff b.t.pos e → ActsOn m (.upstreamBlock m lane levels) s fun u =>
          (u.mx m).hlk.placed[k.val] = some ((b.t.pos + 320) % 4294967296) ∧
          Counts (Reg.HLK_ERASE_ERASED m) s.dev u (Link.cbcDiff b.t.pos e).toNat ∧
          KeepsRegs [Reg.HLK_ERASE_ERASED m] s.dev u ∧ KeepsOthers m s.dev u))

/-- The head's messages and the host's accesses to head registers. -/
def Obligations.HeadMessages : Prop :=
  ∀ (s : State) (m : Mech), s.dev.live m →
    (∀ (addr data : BitVec 16) (code : Byte) (tag : BitVec 4) (e : HlkTag),
      (s.dev.mx m).hlk.tags.find? (fun e => decide (e.tag = tag.toNat)) = some e → e.host = true → (s.dev.mx m).hlk.waiting = [] →
      ActsOn m (.regData m addr data tag) s (fun u => u.get (Reg.HLK_REG_DATA_DATA m) = data.toNat ∧
        u.get (Reg.HLK_REG_STAT_RESULT m) = 2 ∧ u.get (Reg.HLK_REG_STAT_CODE m) = 0 ∧ u.get (Reg.HLK_EVENT_REG_DONE m) = 1 ∧
        (u.mx m).hlk.tags = (s.dev.mx m).hlk.tags.filter (fun e => decide (e.tag ≠ tag.toNat)) ∧ KeepsOthers m s.dev u) ∧
      ActsOn m (.regErr m addr code tag) s (fun u => u.get (Reg.HLK_REG_DATA_DATA m) = s.dev.get (Reg.HLK_REG_DATA_DATA m) ∧
        u.get (Reg.HLK_REG_STAT_RESULT m) = 3 ∧ u.get (Reg.HLK_REG_STAT_CODE m) = code.toNat ∧ KeepsOthers m s.dev u) ∧
      (s.dev.get (Reg.HLK_STATE_LINK m) = 3 →
        (e.tries < 2 → ActsOn m (.hlkRegTimeout m tag) s fun u => u.regs = s.dev.regs ∧ KeepsOthers m s.dev u ∧
          (u.mx m).hlk.tags = (s.dev.mx m).hlk.tags.map (fun y => if y.tag = tag.toNat then { y with tries := y.tries + 1 } else y)) ∧
        (2 ≤ e.tries → ActsOn m (.hlkRegTimeout m tag) s fun u =>
          u.get (Reg.HLK_REG_STAT_RESULT m) = 3 ∧ u.get (Reg.HLK_REG_STAT_CODE m) = 0xFF ∧ KeepsOthers m s.dev u))) ∧
    (∀ (q : BitVec 6) (hdr : Bool), ActsOn m (.dnErr m q hdr) s fun u =>
      u.get (Reg.HLK_EVENT_WLOSS m) = 1 ∧ Counts (Reg.HLK_WERR_FRAG m) s.dev u ∧
      Counts (if hdr then Reg.HLK_ERR_HDR m 3 else Reg.HLK_ERR_CRC m 3) s.dev u ∧
      (hdr = true → (u.mx m).gate.wopen = andNot (s.dev.mx m).gate.wopen 0xFFFF) ∧ KeepsOthers m s.dev u) ∧
    (∀ (b : Beam) (pos : Word), ActsOn m (.wlate m b pos) s fun u =>
      u.get (Reg.HLK_EVENT_WLOSS m) = 1 ∧ Counts (Reg.HLK_WERR_FRAG m) s.dev u ∧
      KeepsRegs [Reg.HLK_EVENT_WLOSS m, Reg.HLK_WERR_FRAG m] s.dev u ∧ KeepsOthers m s.dev u) ∧
    (∀ st : BitVec 36, ActsOn m (.headStatus m st) s fun u => u.get (Reg.HLK_HEAD_STAT_STATUS m) = st.toNat % 2 ^ 32 ∧
      u.get (Reg.HLK_STATE_HEAD_FAULT m) = b2n (decide (st.toNat % 8 ≠ 0)) ∧ KeepsOthers m s.dev u ∧
      (st.toNat % 8 ≠ 0 → (u.mx m).pins.lden = false ∧ u.get (Reg.HLK_EVENT_HEAD_FAULT m) = 1)) ∧
    (∀ w : Word, w.toNat.testBit 31 = true →
      (s.dev.get (Reg.HLK_REG_STAT_RESULT m) ≠ 1 → s.dev.get (Reg.HLK_STATE_LINK m) ≠ 3 → ActsOn m (.hlkRegGo m w) s fun u =>
        u.get (Reg.HLK_REG_STAT_RESULT m) = 1 ∧ u.get (Reg.HLK_REG_STAT_CODE m) = 0 ∧
        u.get (Reg.HLK_REG_CMD_ADDR m) = w.toNat % 65536 ∧ KeepsOthers m s.dev u ∧
        (u.mx m).hlk.waiting = (s.dev.mx m).hlk.waiting ++ [⟨0, w.toNat.testBit 16, w.toNat % 65536,
          if w.toNat.testBit 16 then s.dev.get (Reg.HLK_REG_DATA_DATA m) else 0, true, 0⟩]) ∧
      (s.dev.get (Reg.HLK_REG_STAT_RESULT m) ≠ 1 → s.dev.get (Reg.HLK_STATE_LINK m) = 3 → (s.dev.mx m).hlk.waiting = [] →
        (s.dev.mx m).hlk.tags = [] → ActsOn m (.hlkRegGo m w) s fun u =>
        u.get (Reg.HLK_REG_STAT_RESULT m) = 1 ∧ (u.mx m).hlk.waiting = [] ∧ (∃ l : List (BitVec 2), u.out = .link m l :: s.dev.out) ∧
        (u.mx m).hlk.tags = [⟨0, w.toNat.testBit 16, w.toNat % 65536,
          if w.toNat.testBit 16 then s.dev.get (Reg.HLK_REG_DATA_DATA m) else 0, true, 0⟩]) ∧
      (s.dev.get (Reg.HLK_REG_STAT_RESULT m) = 1 → ActsOn m (.hlkRegGo m w) s fun u =>
        KeepsRegs [Reg.HLK_REG_CMD_ADDR m, Reg.HLK_REG_CMD_WRITE m] s.dev u ∧ u.mech = s.dev.mech))

/-! ### The format sequencer -/

/-- Dispatch, abandonment, restart, watchdog and RESUME. -/
def Obligations.SequencerRuns : Prop :=
  ∀ (s : State) (m : Mech), s.dev.live m →
    (s.dev.get (Reg.FSQ_STAT_BUSY m) ≠ 0 → ActsOn m (.routineDispatch m) s fun u => u = s.dev) ∧
    (s.dev.get (Reg.FSQ_STAT_BUSY m) = 0 → s.dev.get (Reg.FSQ_UCODE_STAT_SWAP_ARMED m) = 0 → s.dev.get (Reg.FSQ_STAT_HALTED m) = 0 →
      (s.dev.activeBank m).loaded = true → (s.dev.mx m).fsq.nextSwathMask = false → s.dev.get (Reg.HLK_STATE_LINK m) = 3 →
      (s.dev.mstate m = .tracking → (s.dev.mx m).opt.cal = .none) →
      s.dev.mstate m = .seeking ∨ s.dev.following m = true → (s.dev.mx m).fsq.addrCheck = true →
      ActsOn m (.routineDispatch m) s fun u => u.get (Reg.FSQ_STAT_BUSY m) = 1 ∧ u.get (Reg.FSQ_STAT_ENTRY m) = 4 ∧
        u.get (Reg.FSQ_STAT_PC m) = 4 ∧ (u.mx m).fsq.addrCheck = false ∧ (u.mx m).fsq.commit = [] ∧
        FsqOnly m [Reg.FSQ_STAT_BUSY m, Reg.FSQ_STAT_ENTRY m, Reg.FSQ_STAT_PC m] s.dev u) ∧
    (s.dev.get (Reg.FSQ_STAT_BUSY m) ≠ 0 → (s.dev.mx m).fsq.abandoned = false → s.dev.fsqLive m (s.dev.entryOf m) = false →
      ActsOn m (.routineAbandon m) s fun u => (u.mx m).gate.ropen = 0 ∧ (u.mx m).fsq.commit = [] ∧
        (u.mx m).fsq.armedOpen = Vector.replicate 16 none ∧
        if s.dev.get (Reg.FSQ_CFG_RESTART_MAX m) ≤ (s.dev.mx m).fsq.failRuns
        then u.get (Reg.FSQ_STAT_HALTED m) = 1 ∧ u.get (Reg.FSQ_STAT_BUSY m) = 0 else (u.mx m).fsq.abandoned = true) ∧
    (s.dev.get (Reg.FSQ_STAT_BUSY m) ≠ 0 → (s.dev.mx m).fsq.abandoned = true → s.dev.fsqLive m (s.dev.entryOf m) = true →
      ActsOn m (.routineRestart m) s fun u => u.get (Reg.FSQ_STAT_PC m) = (s.dev.mx m).fsq.snap.point % 4096 ∧
        (u.mx m).fsq.abandoned = false ∧ (u.mx m).fsq.failRuns = (s.dev.mx m).fsq.failRuns + 1 ∧ Counts (Reg.FSQ_CNT_RESTARTS m) s.dev u ∧
        FsqOnly m [Reg.FSQ_STAT_PC m, Reg.FSQ_CNT_RESTARTS m] s.dev u) ∧
    (s.dev.get (Reg.FSQ_STAT_BUSY m) ≠ 0 → (s.dev.mx m).fsq.abandoned = false → ActsOn m (.fsqWatchdog m) s fun u =>
      u.get (Reg.FSQ_FAULT_WATCHDOG m) = 1 ∧ u.get (Reg.FSQ_FAULT_PC m) = s.dev.get (Reg.FSQ_STAT_PC m) % 4096 ∧
      u.get (Reg.FSQ_EVENT_FAULT m) = 1 ∧ (u.mx m).gate.ropen = 0) ∧
    (ActsOn m (.fsqResume m) s fun u => u.get (Reg.FSQ_STAT_HALTED m) = 0 ∧ (u.mx m).fsq.failRuns = 0 ∧
      FsqOnly m [Reg.FSQ_STAT_HALTED m] s.dev u)

/-- USER_GO: in TRACKING, a user entry whose vector is not an END word becomes pending; any other has no effect but STATE_CONFLICT and an
entry of the violation log. -/
def Obligations.UserRoutines : Prop :=
  ∀ (s : State) (m : Mech) (w : Word), s.dev.live m →
    (∀ v : BitVec 128, s.dev.mstate m = .tracking → 10 ≤ bits w.toNat 2 4 → (s.dev.activeBank m).words[bits w.toNat 2 4]? = some v →
      Ucode.seq v ≠ 9 → ActsOn m (.userGo m w) s fun u => u.get (Reg.FSQ_USER_STAT_RESULT m) = 1 ∧
        bits w.toNat 2 4 ∈ (u.mx m).fsq.userPending ∧ FsqOnly m [Reg.FSQ_USER_STAT_RESULT m] s.dev u) ∧
    (s.dev.mstate m ≠ .tracking ∨ bits w.toNat 2 4 < 10 ∨ (s.dev.activeBank m).words[bits w.toNat 2 4]? = none ∨
        ((s.dev.activeBank m).words[bits w.toNat 2 4]?.map Ucode.seq) = some 9 →
      ActsOn m (.userGo m w) s fun u => u = (s.dev.set (Reg.FSQ_USER_STAT_RESULT m) 3).vlogAdd 0x14 0x0C01 0)

/-- A micro-word: the effects of the ALU and of the address, the wait that does not end, and the faults. -/
def Obligations.MicroWords : Prop :=
  ∀ (s : State) (m : Mech) (i : FsqInputs) (w : BitVec 128), s.dev.live m → s.dev.get (Reg.FSQ_STAT_BUSY m) ≠ 0 →
    (s.dev.mx m).fsq.abandoned = false → s.dev.fsqLive m (s.dev.entryOf m) = true →
    (i.ecc = .double → ActsOn m (.microWord m i) s fun u => u.get (Reg.FSQ_FAULT_CS_UE m) = 1 ∧
      u.get (Reg.FSQ_FAULT_PC m) = s.dev.get (Reg.FSQ_STAT_PC m) % 4096 ∧ u.get (Reg.FSQ_EVENT_FAULT m) = 1) ∧
    (i.ecc = .clean → (s.dev.activeBank m).words[s.dev.get (Reg.FSQ_STAT_PC m)]? = none → ActsOn m (.microWord m i) s fun u =>
      u.get (Reg.FSQ_FAULT_ILLEGAL m) = 1 ∧ u.get (Reg.FSQ_FAULT_PC m) = s.dev.get (Reg.FSQ_STAT_PC m) % 4096) ∧
    (i.ecc = .clean → (s.dev.activeBank m).words[s.dev.get (Reg.FSQ_STAT_PC m)]? = some w →
      (Ucode.seq w = 6 → Ucode.cond w = 13 → (s.dev.mx m).fsq.zero = false → ActsOn m (.microWord m i) s fun u =>
        u.regs = s.dev.regs ∧ KeepsOthers m s.dev u ∧ u.slots = s.dev.slots) ∧
      (Ucode.gate w = 0 → Ucode.req w = 0 → Ucode.commit w = false → Ucode.seq w = 0 ∨ Ucode.seq w = 1 →
        ActsOn m (.microWord m i) s fun u =>
          u.get (Reg.FSQ_STAT_PC m) = (if Ucode.seq w = 1 then Ucode.next w else s.dev.get (Reg.FSQ_STAT_PC m) + 1) % 4096 ∧
          FsqOnly m [Reg.FSQ_STAT_PC m, Reg.FSQ_WK_VALUE m ⟨Ucode.dst w % 16, Nat.mod_lt _ (by decide)⟩] s.dev u ∧
          (Ucode.alu w = 1 → u.wk m (Ucode.dst w) = Ucode.imm w ∧ (u.mx m).fsq.carry = (s.dev.mx m).fsq.carry ∧
            (u.mx m).fsq.zero = decide (Ucode.imm w = 0)) ∧
          (Ucode.alu w = 2 → u.wk m (Ucode.dst w) = (s.dev.wk m (Ucode.srca w) + s.dev.wk m (Ucode.srcb w)) % 2 ^ 32 ∧
            (u.mx m).fsq.carry = decide (2 ^ 32 ≤ s.dev.wk m (Ucode.srca w) + s.dev.wk m (Ucode.srcb w))) ∧
          (Ucode.alu w = 3 → u.wk m (Ucode.dst w) = (s.dev.wk m (Ucode.srca w) + 2 ^ 32 - s.dev.wk m (Ucode.srcb w)) % 2 ^ 32 ∧
            (u.mx m).fsq.carry = decide (s.dev.wk m (Ucode.srca w) < s.dev.wk m (Ucode.srcb w)))))

/-- The gates at the positions where they are armed, and the revolution mark. -/
def Obligations.GatesAndRevolutionMark : Prop :=
  ∀ (s : State) (m : Mech), s.dev.live m →
    (∀ (b : Beam) (cb : Nat), (s.dev.mx m).fsq.armedClose[b.val] = none →
      ((s.dev.mx m).fsq.armedOpen[b.val] = none → (s.dev.mx m).gate.inBlock = false → ActsOn m (.gatePosition m b cb) s fun u =>
        u.regs = s.dev.regs ∧ (u.mx m).gate = { (s.dev.mx m).gate with cb := cb } ∧ KeepsOthers m s.dev u) ∧
      ((s.dev.mx m).fsq.armedOpen[b.val] = some ⟨cb, false⟩ → s.dev.following m = true → ActsOn m (.gatePosition m b cb) s fun u =>
        u.mstate m = .reading ∧ tbit (u.mx m).gate.ropen b.val = true ∧ (u.mx m).gate.wopen = (s.dev.mx m).gate.wopen ∧
        (u.mx m).fsq.armedOpen = (s.dev.mx m).fsq.armedOpen.set b.val none ∧ u.get (Reg.RCH_STAT_ACTIVE m b) = 1 ∧ KeepsOthers m s.dev u) ∧
      ((s.dev.mx m).fsq.armedOpen[b.val] = some ⟨cb, true⟩ → s.dev.following m = true → tbit (s.dev.mx m).srv.inhibit b.val = true →
        ActsOn m (.gatePosition m b cb) s fun u => tbit (u.mx m).gate.wopen b.val = tbit (s.dev.mx m).gate.wopen b.val ∧
          tbit (u.mx m).gate.reopen b.val = true)) ∧
    (∀ (b : Beam) (cb : Nat), (s.dev.mx m).fsq.armedClose[b.val] = some cb → (s.dev.mx m).fsq.armedOpen[b.val] = none →
      ActsOn m (.gatePosition m b cb) s fun u => tbit (u.mx m).gate.wopen b.val = false ∧ tbit (u.mx m).gate.ropen b.val = false) ∧
    (s.dev.following m = false → ActsOn m (.revolutionMark m) s fun u => u = s.dev) ∧
    (s.dev.following m = true → s.dev.get (Reg.FSQ_STAT_BUSY m) ≠ 0 → ActsOn m (.revolutionMark m) s fun u =>
      (u.mx m).fsq.rev = true ∧ (u.mx m).gate.cb = 0 ∧ (u.mx m).hlk.mark = (s.dev.mx m).hlk.placed ∧ (u.mx m).opt.hints = [] ∧
      (u.mx m).fsq.rate = none ∧ (u.mx m).fsq.nextSwathMask = false ∧
      u.mstate m = s.dev.mstate m ∧ KeepsOthers m s.dev u)

/-! ### Recording and reading back -/

/-- A block is loaded, classified, timed out, or missed its slot. -/
def Obligations.RecordedBlocks : Prop :=
  ∀ (s : State) (m : Mech), s.dev.live m →
    (∀ (i : Nat) (b : Blk), (s.dev.mx m).wch.load = some i → (s.dev.mx m).wch.ready = false → s.dev.blk i = some b →
      b.mech = some m.val → b.phase = .placed ∨ b.phase = .copying → ActsOn m (.wchLoadDone m) s fun u =>
        (u.mx m).wch.ready = true ∧ (u.mx m).wch.load = some i ∧ KeepsOthers m s.dev u ∧ u.bufx = s.dev.bufx ∧
        (u.mx m).wch.symbols = Codec.blockSymbols ((List.range 16).filter (tbit (s.dev.get (Reg.WCH_MASK_MASK m)))) (s.dev.codeOf m).1
          (Codec.headerBytes (s.dev.headerOf m b)) (s.dev.blockData s.buf b)) ∧
    (∀ (pba : Word) (e : Nat × Blk) (v : VerifyRec) (cls : Nat),
      s.dev.bufx.blocks.find? (fun b => decide (b.2.mech = some m.val ∧ b.2.pba = pba.toNat ∧ b.2.phase = .written)) = some e →
      (s.dev.mx m).gate.ended = [] →
      v = ((s.dev.mx m).rch.verify.find? (fun v => decide (v.pba = pba.toNat))).getD ⟨pba.toNat, false, []⟩ →
      cls = s.dev.ganderClass m v.found [] (s.dev.loads m v.w []) → ActsOn m (.ganderClassify m pba) s fun u =>
        u.get (Reg.GANDER_LAST_PBA_PBA m) = pba.toNat ∧ u.get (Reg.GANDER_LAST_CLASS m) = cls ∧
        (cls = 0 → Counts (Reg.GANDER_GOOD_COUNT m) s.dev u) ∧ (cls = 1 → Counts (Reg.GANDER_MARG_COUNT m) s.dev u) ∧
        (cls = 2 → Counts (Reg.GANDER_FAIL_COUNT m) s.dev u ∧ u.get (Reg.GANDER_FAIL_PBA_PBA m) = pba.toNat)) ∧
    (∀ (gid : Nat) (g : Group), s.dev.arc.groups.find? (fun g => decide (g.ident = gid)) = some g → g.mech = m.val → g.closed = false →
      g.opened ≠ none → ActsOn m (.groupTimeout m gid) s fun u => u.get (Reg.GPE_EVENT_GROUP_TMO m) = 1 ∧
        (∀ x ∈ u.arc.groups, x.ident = gid → x.closed = true)) ∧
    (∀ (i : Nat) (b : Blk), s.dev.blk i = some b → b.phase = .filling → Makes (.partialBlockTimeout i) s fun t =>
      t.blk i = some { b with phase := .staged, order := s.dev.arc.nextOrder + 1 } ∧ t.mech = s.dev.mech) ∧
    (∀ (i : Nat) (b : Blk), s.dev.blk i = some b → b.mech = some m.val → b.phase = .placed → (s.dev.mx m).wch.load ≠ some i →
      ActsOn m (.slotUnderrun m i) s fun u => u.blk i = some { b with phase := .staged, copyFlag := false, order := 0 } ∧
        u.get Reg.BUF_EVENT_UNDERRUN = 1 ∧ Counts Reg.BUF_UNDERRUN_COUNT s.dev u ∧ Counts (Reg.GANDER_RELOC_HANDBACK m) s.dev u ∧
        KeepsOthers m s.dev u)

/-- The decoder pool, whose oldest codeword ends as the decoder finds, and a block that has decoded, is blank, or has failed. -/
def Obligations.DecodedBlocks : Prop :=
  ∀ (s : State) (m : Mech), s.dev.live m →
    ((s.dev.mx m).rch.jobs = [] → ActsOn m (.codewordDecoded m) s fun u => u = s.dev) ∧
    (∀ (j : CwJob) (rest : List CwJob) (o : CwOutcome) (bs : List Bool), (s.dev.mx m).rch.jobs = j :: rest →
      s.dev.cwOutcome m j = (o, bs) → ActsOn m (.codewordDecoded m) s fun u =>
      (u.mx m).rch.jobs = rest ∧ u.get (Reg.DEC_STAT_QUEUE m) = (rest.length - 4) % 2 ^ (Reg.DEC_STAT_QUEUE m).width ∧ KeepsOthers m s.dev u ∧
      (∀ n : Nat, o = .converged n → Counts (Reg.DEC_CW_CONVERGED m) s.dev u ∧ Counts (Reg.DEC_HIST_COUNT m (Dev.histBin n)) s.dev u ∧
        (u.mx m).fsq.decFailed = (s.dev.mx m).fsq.decFailed) ∧
      (o = .erased → Counts (Reg.DEC_FAIL_ERASED m) s.dev u) ∧ (o = .iter → Counts (Reg.DEC_FAIL_ITER m) s.dev u) ∧
      (o = .flip → Counts (Reg.DEC_FAIL_FLIP m) s.dev u) ∧ (o = .backlog → Counts (Reg.DEC_FAIL_BACKLOG m) s.dev u) ∧
      ((s.dev.mx m).fsq.readBlk = some j.pba → 0 < (s.dev.mx m).fsq.decLeft → (u.mx m).fsq.decLeft = (s.dev.mx m).fsq.decLeft - 1 ∧
        (Dev.cwGood o = false → (u.mx m).fsq.decFailed = setb (s.dev.mx m).fsq.decFailed j.cw)) ∧
      (∀ r : ReadBlk, s.dev.readAt m j.pba = some r → ∃ r', u.readAt m j.pba = some r' ∧ r'.left = r.left - 1 ∧
        r'.good = (if Dev.cwGood o then setb r.good j.cw else r.good) ∧
        r'.data = (if Dev.cwGood o then (j.cw, Dev.cwBytes bs) :: r.data else r.data))) ∧
    (∀ (pba : Word) (r : ReadBlk), s.dev.readAt m (s.dev.remap m pba.toNat) = some r → r.left = 0 →
      (r.fate = .coded → r.good = 0xFFFF → MakesBuf (.blockDecoded m pba) s fun _ t =>
        ∃ u : Dev, t = u.settle m ∧ Counts (Reg.DEC_BLOCKS_BLOCKS m) s.dev u) ∧
      (r.fate = .blank → MakesBuf (.blockDecoded m pba) s fun b t =>
        b = s.buf ∧ ∃ u : Dev, t = u.settle m ∧ u.regs = s.dev.regs ∧ ∀ h ∈ (u.mx m).mch.held, Dev.readsPba pba.toNat h = false) ∧
      (r.fate ≠ .blank → r.fate ≠ .coded ∨ r.good ≠ 0xFFFF →
        s.dev.wantedBlk m pba.toNat = true → (∀ x ∈ (s.dev.mx m).goat.ctxs, x.pba ≠ pba.toNat) →
        (∀ x ∈ (s.dev.mx m).goat.waiting, x.1 ≠ pba.toNat) → (s.dev.mx m).goat.ctxs.length < 8 →
        MakesBuf (.blockDecoded m pba) s fun b t => b = s.buf ∧ ∃ u : Dev, t = u.settle m ∧
          (u.mx m).goat.waiting = (s.dev.mx m).goat.waiting ++ [(pba.toNat, r.good, s.dev.now)] ∧ KeepsOthers m s.dev u))

/-- Goat's contexts: opened, one rung's reads, the time limit, group decoding, the end. -/
def Obligations.RecoveryLadder : Prop :=
  ∀ (s : State) (m : Mech) (pba : Word), s.dev.live m →
    (∀ (conv t : Nat) (rest : List (Nat × Nat × Nat)), (s.dev.mx m).goat.waiting = (pba.toNat, conv, t) :: rest →
      (s.dev.mx m).goat.ctxs.length < 8 → (∀ c ∈ (s.dev.mx m).goat.ctxs, c.pba ≠ pba.toNat) → s.dev.get (Reg.GOAT_CFG_REREAD_N m) ≠ 0 →
      s.dev.get (Reg.GOAT_CFG_SKIP_EN m) = 0 →
      ActsOn m (.goatContextOpen m pba) s fun u => (u.mx m).goat.waiting = rest ∧
        (u.mx m).goat.ctxs.length = (s.dev.mx m).goat.ctxs.length + 1 ∧
        u.get (Reg.GOAT_STAT_CTX m) = (s.dev.mx m).goat.ctxs.length + 1 ∧
        (∃ c, u.ctx m pba.toNat = some c ∧ c.rung = 1 ∧ c.reads = 0 ∧ c.converged = conv ∧ c.firstFail = t ∧ c.opened = s.dev.now ∧
          c.media = s.dev.remap m pba.toNat) ∧
        (∃ w, (u.mx m).fsq.items = (s.dev.mx m).fsq.items ++ [w] ∧ w.entry = 6 ∧ w.pba = s.dev.remap m pba.toNat) ∧
        KeepsOthers m s.dev u) ∧
    (∀ c : GoatCtx, s.dev.ctx m pba.toNat = some c →
      (∀ r : ReadBlk, c.ended = false → c.rung = 1 → c.converged ≠ 0xFFFF → s.dev.readAt m c.media = some r → r.left = 0 →
        (c.converged ||| r.good = 0xFFFF → ActsOn m (.goatRungDone m pba) s fun u => KeepsOthers m s.dev u ∧ u.regs = s.dev.regs ∧
          u.ctx m pba.toNat = some { c with converged := 0xFFFF, reads := c.reads + 1, stored := Dev.storeRead c.stored r,
                                            data := r.data.filter (fun x => !tbit c.converged x.1) ++ c.data }) ∧
        (c.converged ||| r.good ≠ 0xFFFF → c.reads + 1 < s.dev.get (Reg.GOAT_CFG_REREAD_N m) → ActsOn m (.goatRungDone m pba) s fun u =>
          u.regs = s.dev.regs ∧ KeepsOthers m s.dev u ∧
          (∃ c', u.ctx m pba.toNat = some c' ∧ c'.rung = 1 ∧ c'.reads = c.reads + 1 ∧ c'.converged = c.converged ||| r.good) ∧
          ∃ w, (u.mx m).fsq.items = (s.dev.mx m).fsq.items ++ [w] ∧ w.entry = 6 ∧ w.pba = c.media)) ∧
      (ActsOn m (.goatTimeout m pba) s fun u =>
        u.ctx m pba.toNat = some { c with hurry := true } ∧ u.regs = s.dev.regs ∧ KeepsOthers m s.dev u) ∧
      (c.ended = false → c.rung = 7 → c.converged ≠ 0xFFFF → c.skipped = false →
        (∀ a ∈ s.dev.groupMates m pba.toNat, s.dev.mateWaits m a = false) → MakesBuf (.groupDecodeDone m pba) s fun _ t => ∃ u : Dev,
          t = u.settle m ∧ Counts (Reg.GPE_GRP_DECODES m) s.dev u ∧ u.get (Reg.GOAT_EVENT_GROUP m) = 1 ∧
          (∃ c', u.ctx m pba.toNat = some c' ∧ c'.converged ||| c.converged = c'.converged ∧ c'.ran7 = true ∧
            c'.ended = decide (c'.converged ≠ 0xFFFF)) ∧ KeepsOthers m s.dev u) ∧
      (c.converged = 0xFFFF → MakesBuf (.recoveryEnd m pba) s fun _ t => ∃ u : Dev, t = u.settle m ∧
        u.get (Reg.GOAT_LAST_PBA_PBA m) = pba.toNat ∧ u.get (Reg.GOAT_LAST_RECOVERED m) = 1 ∧ u.get (Reg.GOAT_LAST_MASK m) = 0 ∧
        (u.mx m).goat.ctxs = (s.dev.mx m).goat.ctxs.filter (fun e => decide (e.pba ≠ pba.toNat))) ∧
      (c.converged ≠ 0xFFFF → c.ended = true → MakesBuf (.recoveryEnd m pba) s fun b t => b = s.buf ∧
        ∃ u : Dev, t = u.settle m ∧ u.get (Reg.GOAT_LAST_PBA_PBA m) = pba.toNat ∧ u.get (Reg.GOAT_LAST_RECOVERED m) = 0 ∧
          u.get (Reg.GOAT_LAST_MASK m) = 0xFFFF - c.converged ∧ Counts (Reg.GOAT_UNREC_UNREC m) s.dev u ∧
          (u.mx m).goat.ctxs = (s.dev.mx m).goat.ctxs.filter (fun e => decide (e.pba ≠ pba.toNat))))

/-- The leaky bucket, an idle refresh, and the remap table. -/
def Obligations.BucketAndRemapTable : Prop :=
  ∀ (s : State) (m : Mech), s.dev.live m →
    (s.dev.get (Reg.GOAT_BKT_CFG_LEAK_MS m) = 0 → ActsOn m (.bucketLeak m) s fun u => u = s.dev) ∧
    (s.dev.get (Reg.GOAT_BKT_CFG_LEAK_MS m) ≠ 0 → ActsOn m (.bucketLeak m) s fun u =>
      u.get (Reg.GOAT_BKT_LVL_LEVEL m) = (s.dev.get (Reg.GOAT_BKT_LVL_LEVEL m) - 1) % 65536 ∧
      (2 * u.get (Reg.GOAT_BKT_LVL_LEVEL m) ≤ s.dev.get (Reg.GOAT_BKT_CFG_DEPTH m) → u.get (Reg.GOAT_BKT_LVL_ARMED m) = 1) ∧
      KeepsRegs [Reg.GOAT_BKT_LVL_LEVEL m, Reg.GOAT_BKT_LVL_ARMED m] s.dev u ∧ u.mech = s.dev.mech) ∧
    (∀ (r : Refresh) (b : Blk) (x : Disc) (pba : Nat), s.dev.mstate m = .tracking → (s.dev.mx m).goat.refreshes = [r] →
      s.dev.blk r.blk = some b → b.phase = .cached → s.dev.discIn m = some x → (s.dev.mx m).fsq.items = [] → s.dev.drtNoRoom m r.pba = false →
      s.dev.spareSlot m (Dev.pbaLayer r.pba) x.parityUsed = some pba → ActsOn m (.refreshIdleTimeout m) s fun u =>
        u.blk r.blk = some { b with phase := .placed, mech := some m.val, pba := pba, orig := r.pba, copyFlag := true } ∧
        ∃ w, (u.mx m).fsq.items = [w] ∧ w.entry = 7 ∧ w.pba = pba ∧ w.blk = r.blk) ∧
    (∀ pba : Word, (s.dev.drtFind m pba.toNat = none → ActsOn m (.drtLookup m pba) s fun u =>
        u.get (Reg.DRT_LOOKUP_RES_DONE m) = 1 ∧ u.get (Reg.DRT_LOOKUP_RES_HIT m) = 0 ∧ u.mech = s.dev.mech) ∧
      (∀ e : DrtEntry × Nat, s.dev.drtFind m pba.toNat = some e → ActsOn m (.drtLookup m pba) s fun u =>
        u.get (Reg.DRT_LOOKUP_RES_DONE m) = 1 ∧ u.get (Reg.DRT_LOOKUP_RES_HIT m) = 1 ∧ u.get (Reg.DRT_LOOKUP_RES_INDEX m) = e.2 % 2048 ∧
        u.get (Reg.DRT_LOOKUP_TO_TO m) = e.1.dst % 2 ^ 32 ∧ u.mech = s.dev.mech)) ∧
    (∀ l : List (Word × Word × Word), s.dev.get (Reg.DRT_STAT_LOADED m) = 0 → l.length ≤ 2048 → ActsOn m (.drtSliceLoad m l) s fun u =>
      u.get (Reg.DRT_STAT_LOADED m) = 1 ∧ (u.mx m).goat.drt = (l.map Dev.drtOf).filter (fun e => decide (e.kind ≠ 0)) ∧
      u.get (Reg.DRT_STAT_USED m) = (u.mx m).goat.drt.length % 2 ^ (Reg.DRT_STAT_USED m).width ∧ KeepsOthers m s.dev u)

/-! ### The buffer -/

/-- Refresh, calibration and self-refresh of the buffer's channels; reads that are clean, corrected or uncorrectable, of the device and of
the scrubber alike. -/
def Obligations.BufferChannels : Prop :=
  ((∀ (s : State) (k : Fin 6), s.dev.up = true → s.dev.get Reg.BUF_CTL_SR_EN ≠ 0 → s.dev.inReset ⟨20 + k.val, by omega⟩ = false →
    Makes (.bufferSelfRefreshEntry k) s fun t => { t with regs := s.dev.regs } = s.dev ∧
      KeepsRegs ((List.finRange 24).map Reg.BUF_CH_STAT_SR) s.dev t ∧
      ∀ c : Chan, t.get (Reg.BUF_CH_STAT_SR c) =
        if Dev.chanGroup c = k ∧ s.dev.chanServes c = true then 1 else s.dev.get (Reg.BUF_CH_STAT_SR c)) ∧
  (∀ (s : State) (c : Chan), s.dev.up = true → s.dev.chanServes c = true →
    (∀ (code : BitVec 3) (hot : Bool), Makes (.mr4Poll c code hot) s fun t =>
      t.get (Reg.BUF_CH_STAT_HOT c) = b2n hot ∧ t.get (Reg.BUF_CH_STAT_REFRESH c) = s.dev.get (Reg.BUF_CH_STAT_REFRESH c) ∧
      t.bufx.phy[c.val] = { s.dev.bufx.phy[c.val] with refNext := some code.toNat } ∧ (hot = true → t.get Reg.BUF_EVENT_MR4_HOT = 1)) ∧
    (∀ w : Word,
      Makes (.zqCalibration c w) s (fun t => t.regs = s.dev.regs ∧
        t.bufx.phy[c.val] = { s.dev.bufx.phy[c.val] with zqNext := some w.toNat }) ∧
      Makes (.dqsOscillatorTracking c w) s (fun t => t.regs = s.dev.regs ∧
        t.bufx.phy[c.val] = { s.dev.bufx.phy[c.val] with tapsNext := some w.toNat })) ∧
    (s.dev.get (Reg.BUF_CH_STAT_SR c) = 0 → Makes (.allBankRefresh c) s fun t =>
      t.bufx.phy[c.val].zq = ((s.dev.bufx.phy[c.val]).zqNext).getD (s.dev.bufx.phy[c.val]).zq ∧
      t.bufx.phy[c.val].taps = ((s.dev.bufx.phy[c.val]).tapsNext).getD (s.dev.bufx.phy[c.val]).taps ∧
      t.bufx.phy[c.val].zqNext = none ∧ t.bufx.phy[c.val].tapsNext = none ∧ t.bufx.phy[c.val].refNext = none ∧
      (∀ r, (s.dev.bufx.phy[c.val]).refNext = some r → r < 8 → t.get (Reg.BUF_CH_STAT_REFRESH c) = r) ∧
      KeepsRegs [Reg.BUF_CH_STAT_REFRESH c] s.dev t))) ∧
  (∀ (s : State) (addr : Nat) (r : EccResult) (i : Instr), s.dev.up = true → s.dev.chanServes (s.dev.chanOf (addr / 32 * 32)) = true →
    i = .bufferRead addr r ∨ (i = .scrubRead addr r ∧ s.dev.get Reg.BUF_CTL_SCRUB_EN ≠ 0) →
    (r = .clean → addr / 32 * 32 ∉ s.dev.bufx.poison → Makes i s fun t =>
      KeepsRegs ((List.finRange 24).map Reg.BUF_CH_STAT_SR) s.dev t ∧
      { t with regs := s.dev.regs, bufx := { t.bufx with fixes := s.dev.bufx.fixes } } = s.dev ∧
      t.bufx.fixes = if i = .bufferRead addr r then s.dev.bufx.fixes else s.dev.bufx.fixes.filter (· ≠ addr / 32 * 32)) ∧
    (r = .single → addr / 32 * 32 ∉ s.dev.bufx.poison → Makes i s fun t =>
      Counts (Reg.BUF_CH_CE_COUNT (s.dev.chanOf (addr / 32 * 32))) s.dev t ∧
      t.bufx.fixes.contains (addr / 32 * 32) = decide (i = .bufferRead addr r) ∧ t.bufx.poison = s.dev.bufx.poison ∧
      t.bufx.blocks = s.dev.bufx.blocks ∧ t.mech = s.dev.mech) ∧
    (r = .double → Makes i s fun t => Counts (Reg.BUF_CH_UE_COUNT (s.dev.chanOf (addr / 32 * 32))) s.dev t ∧
      t.get (Reg.BUF_CH_ERR_ADDR_LO_ADDR (s.dev.chanOf (addr / 32 * 32))) =
        addr / 32 * 32 % 2 ^ (Reg.BUF_CH_ERR_ADDR_LO_ADDR (s.dev.chanOf (addr / 32 * 32))).width ∧
      t.get Reg.BUF_EVENT_UE = 1 ∧ addr / 32 * 32 ∈ t.bufx.poison))

/-- Retirement of a channel: its causes, a failed PHY, which also resets its group, BUF_RETIRE, its end, and the rates. -/
def Obligations.RetirementAndRates : Prop :=
  (∀ (s : State) (c : Chan), s.dev.up = true → s.dev.get (Reg.BUF_CH_STAT_STATE c) = 2 → 20 < s.dev.activeLeft →
    (∀ cause : Fin 6, cause ≠ 4 → s.dev.causeHolds c cause.val = true → Makes (.channelRetireCause c cause true) s fun t =>
      t.get (Reg.BUF_CH_STAT_STATE c) = 3 ∧ t.get Reg.BUF_STAT_RETIRING = 1 ∧
      t.get Reg.BUF_EVENT_RETIRE_START = 1 ∧ t.bufx.retiring = s.dev.bufx.retiring ++ [(c.val, cause.val)] ∧ t.bufx.blocks = s.dev.bufx.blocks ∧
      t.mech = s.dev.mech) ∧
    (∀ cause : Fin 6, s.dev.causeHolds c cause.val = false → ∀ r : Bool, Gives (.channelRetireCause c cause r) s s.dev) ∧
    (∀ n : Part, n.val = 20 + c.val / 4 → s.dev.inReset n = false → (s.dev.parts[n.val]).lastEnd = none →
      Makes (.channelRetireCause c 4 true) s fun t => t.get Reg.BUF_STAT_RETIRING = 1 ∧ t.get Reg.BUF_EVENT_RETIRE_START = 1 ∧
        t.bufx.retiring = s.dev.bufx.retiring ++ [(c.val, 4)] ∧ t.inReset n = true ∧
        t.get (Reg.GCTL_EPOCH_EPOCH n) = (s.dev.get (Reg.GCTL_EPOCH_EPOCH n) + 1) % 65536 ∧
        (∀ k : Chan, k.val / 4 = c.val / 4 → t.get (Reg.BUF_CH_STAT_SR k) = 1 ∧ t.bufx.phy[k.val] = PhyX.reset) ∧
        t.bufx.blocks = s.dev.bufx.blocks ∧ t.mech = s.dev.mech) ∧
    (∀ w : Word, w.toNat.testBit 31 = true → w.toNat % 32 = c.val → Makes (.bufRetireGo w) s fun t =>
      t.get (Reg.BUF_CH_STAT_STATE c) = 3 ∧ t.bufx.retiring = s.dev.bufx.retiring ++ [(c.val, 5)] ∧ t.get Reg.BUF_RETIRE_CH = c.val)) ∧
  (∀ (s : State) (c : Chan), s.dev.up = true → s.dev.get (Reg.BUF_CH_STAT_STATE c) = 2 → s.dev.activeLeft ≤ 20 →
    s.dev.get Reg.BUF_STAT_FAILED = 0 → Makes (.channelRetireCause c 4 true) s fun t =>
      t.get Reg.BUF_STAT_FAILED = 1 ∧ t.get Reg.BUF_EVENT_BUFFER_FAILED = 1 ∧ t.bufx.retiring = s.dev.bufx.retiring) ∧
  (∀ (s : State) (w : Word), s.dev.up = true → w.toNat.testBit 31 = true → 24 ≤ w.toNat % 32 →
    Gives (.bufRetireGo w) s ((s.dev.set Reg.BUF_RETIRE_CH w.toNat).vlogAdd 0x14 0x0902 0)) ∧
  (∀ (s : State) (c : Chan) (cause : Nat), s.dev.up = true → s.dev.bufx.retiring = [(c.val, cause)] →
    Makes (.retirementCopyDone c) s fun t => t.get (Reg.BUF_CH_STAT_STATE c) = 4 ∧ t.get Reg.BUF_STAT_RETIRING = 0 ∧
      t.get Reg.BUF_EVENT_RETIRE_DONE = 1 ∧ t.bufx.retiring = [] ∧ t.bit Reg.BUF_CH_ACTIVE_MASK c.val = false) ∧
  (∀ (s : State) (dn mn ru : Nat), s.dev.up = true → s.dev.bufx.retiring = [] → Makes (.rateUpdate dn mn ru) s fun t =>
    t.get Reg.BUF_RATE_D_D_NOW = dn % 2 ^ Reg.BUF_RATE_D_D_NOW.width ∧ t.get Reg.BUF_RATE_M_M_NOW = mn % 2 ^ Reg.BUF_RATE_M_M_NOW.width ∧
    t.get Reg.BUF_RATE_R_R_USED = ru % 2 ^ Reg.BUF_RATE_R_R_USED.width ∧
    t.get Reg.BUF_RATE_U_U_RATE = (s.dev.get Reg.GCTL_IMG_BWEFF_BWEFF - dn - mn - ru) % 2 ^ Reg.BUF_RATE_U_U_RATE.width ∧
    KeepsRegs [Reg.BUF_RATE_D_D_NOW, Reg.BUF_RATE_M_M_NOW, Reg.BUF_RATE_R_R_USED, Reg.BUF_RATE_U_U_RATE] s.dev t ∧ t.mech = s.dev.mech)

/-! ### The queues and the I/O commands -/

/-- Doorbells, enable and disable of a queue pair, and the violations they meet; `d` is the device as the access through the port has
woken it. -/
def Obligations.QueuePairs : Prop :=
  ∀ (s : State) (p : Port) (q : Pair) (w : Word) (d : Dev), s.dev.portServes p = true → d = s.dev.wakePort p →
    (w.toNat % 4096 ≤ d.get (Reg.QE_QCFG_SIZE p q) → d.get (Reg.QE_QCTL_STATE p q) = 1 →
      ActsOnQueues (.sqTailDoorbell p q w) s fun b u => b = s.buf ∧ u.sqTail p q = w.toNat % 4096 ∧ u.slots = d.slots ∧
        u.mech = d.mech) ∧
    (d.get (Reg.QE_QCFG_SIZE p q) < w.toNat % 4096 → ActsOnQueues (.sqTailDoorbell p q w) s fun b u =>
      b = s.buf ∧ u = d.violation p q.val 0x0A01 0 w.toNat) ∧
    (w.toNat % 4096 < d.ringN p q →
      (w.toNat % 4096 + d.ringN p q - d.cqHead p q) % d.ringN p q ≤
        (d.get (Reg.QE_QPTR_CQ_TAIL p q) + d.ringN p q - d.cqHead p q) % d.ringN p q →
      ActsOnQueues (.cqHeadDoorbell p q w) s fun b u => b = s.buf ∧ u.cqHead p q = w.toNat % 4096 ∧ u.regs = d.regs ∧
        u.slots = d.slots ∧ u.mech = d.mech) ∧
    (d.ringN p q ≤ w.toNat % 4096 → ActsOnQueues (.cqHeadDoorbell p q w) s fun b u =>
      b = s.buf ∧ u = d.violation p q.val 0x0A02 0 w.toNat) ∧
    (d.get (Reg.QE_QCTL_STATE p q) = 2 → d.get (Reg.QE_QPTR_SQ_HEAD p q) < d.ringN p q → w.toNat.testBit 31 = true →
      ActsOnQueues (.restartDoorbell p q w) s fun b u => b = s.buf ∧ u.get (Reg.QE_QCTL_STATE p q) = 1 ∧
        u.get (Reg.QE_QPTR_SQ_HEAD p q) = d.get (Reg.QE_QPTR_SQ_HEAD p q) % 2 ^ (Reg.QE_QPTR_SQ_HEAD p q).width ∧
        u.slots = d.slots) ∧
    (d.get (Reg.QE_QCTL_STATE p q) ≠ 2 → ActsOnQueues (.restartDoorbell p q w) s fun b u =>
      b = s.buf ∧ u = d.violation p q.val 0x0A03 0 w.toNat) ∧
    (d.get (Reg.QE_QCTL_STATE p q) = 0 → d.get (Reg.QE_SQB_LO_ADDR p q) % 64 = 0 → d.get (Reg.QE_CQB_LO_ADDR p q) % 16 = 0 →
      d.get (Reg.QE_QCFG_SIZE p q) ≠ 0 → d.ringN p q ≤ d.ringMax → q.val < d.pairsOf p →
      ActsOnQueues (.queueEnable p q) s fun b u => b = s.buf ∧ u.get (Reg.QE_QCTL_STATE p q) = 1 ∧ u.get (Reg.QE_QCTL_EN p q) = 1 ∧
        u.get (Reg.QE_QPTR_SQ_HEAD p q) = 0 ∧ u.get (Reg.QE_QPTR_CQ_TAIL p q) = 0 ∧ u.get (Reg.QE_QPTR_PHASE p q) = 1 ∧
        u.sqTail p q = 0 ∧ u.cqHead p q = 0 ∧ u.slots = d.slots ∧
        KeepsRegs [Reg.QE_QPTR_SQ_HEAD p q, Reg.QE_QPTR_CQ_TAIL p q, Reg.QE_QPTR_PHASE p q, Reg.QE_QCTL_EN p q, Reg.QE_QCTL_STATE p q] d u) ∧
    (d.get (Reg.QE_QCTL_STATE p q) = 0 → d.get (Reg.QE_QCFG_SIZE p q) = 0 → ActsOnQueues (.queueEnable p q) s fun b u =>
      b = s.buf ∧ u = d.violation p q.val 0x0A04 0 1) ∧
    (d.get (Reg.QE_QCTL_STATE p q) = 1 → d.qe.aborts = [] → ActsOnQueues (.queueDisable p q) s fun b u => b = s.buf ∧ u.get (Reg.QE_QCTL_EN p q) = 0 ∧
      u.get (Reg.QE_QCTL_STATE p q) =
        if d.slots.any (fun x => decide (x.2.port = p ∧ x.2.pair = q.val ∧ x.2.orphan = false)) then 3 else 0)

/-- Fetch, completion, failed accesses to host memory, and the aggregation time. -/
def Obligations.FetchAndCompletion : Prop :=
  ∀ s : State, s.dev.up = true →
    (∀ (p : Port) (entry dlist : List Byte), (s.dev.due ≠ some p → ActsOnQueues (.submissionFetch p entry dlist) s fun b u =>
        b = s.buf ∧ u = s.dev) ∧
      (∀ (q : Pair) (a : ArbX), s.dev.due = some p → s.dev.pick p = some (q.val, a) → ActsOnQueues (.submissionFetch p entry dlist) s fun b u =>
        b = s.buf ∧ u.get (Reg.QE_QPTR_SQ_HEAD p q) =
          (s.dev.get (Reg.QE_QPTR_SQ_HEAD p q) + 1) % s.dev.ringN p q % 2 ^ (Reg.QE_QPTR_SQ_HEAD p q).width ∧
        Counts (Reg.QE_QCNT_FETCHED p q) s.dev u ∧
        ∃ x, u.slot s.dev.freeSlot = some x ∧ x.entry = entry ∧ x.dlist = dlist ∧ x.port = p ∧ x.pair = q.val ∧ x.arrived = s.dev.now)) ∧
    (∀ (i : Nat) (x : Slot) (q : Pair), s.dev.slot i = some x → x.phase = .finished → x.target = none → x.orphan = false → x.pair = q.val →
      x.status = 0 → s.dev.get (Reg.QE_QCTL_STATE x.port q) = 1 → s.dev.portServes x.port = true →
      (s.dev.cqFull x.port q = false → ActsOnQueues (.completionCommit i) s fun b u => b = s.buf ∧ u.slot i = none ∧
        u.get (Reg.QE_QPTR_CQ_TAIL x.port q) = (s.dev.get (Reg.QE_QPTR_CQ_TAIL x.port q) + 1) % s.dev.ringN x.port q %
          2 ^ (Reg.QE_QPTR_CQ_TAIL x.port q).width ∧
        Out.hostWrite x.port (s.dev.get (Reg.QE_CQB_LO_ADDR x.port q) + 4294967296 * s.dev.get (Reg.QE_CQB_HI_ADDR x.port q) +
          16 * s.dev.get (Reg.QE_QPTR_CQ_TAIL x.port q)) (Dev.cqEntry x (s.dev.get (Reg.QE_QPTR_SQ_HEAD x.port q))
          (s.dev.get (Reg.QE_QPTR_PHASE x.port q)) false false) ∈ u.out) ∧
      (s.dev.cqFull x.port q = true → ActsOnQueues (.completionCommit i) s fun b u => b = s.buf ∧ u = s.dev)) ∧
    (∀ (i : Nat) (x : Slot), s.dev.slot i = some x → x.phase = .running → x.orphan = false →
      ActsOnQueues (.hostMemoryError (.data i)) s fun b u => b = s.buf ∧ Ends i 6 u ∧ u.regs = s.dev.regs) ∧
    (∀ (p : Port) (q : Pair), (s.dev.portServes p = true → s.dev.get (Reg.QE_QCTL_STATE p q) ≠ 0 →
        ActsOnQueues (.hostMemoryError (.cqWrite p q)) s fun b u => b = s.buf ∧ u.get (Reg.QE_QCTL_STATE p q) = 4 ∧
          KeepsRegs [Reg.QE_QCTL_STATE p q] s.dev u ∧ u.slots = s.dev.slots) ∧
      (ActsOnQueues (.hostMemoryError (.ecrc p)) s fun b u => b = s.buf ∧ u = s.dev.violation p 0 0x0A07 0 0) ∧
      (∀ n : Nat, s.dev.get (Reg.QE_QCFG_AGG_T p q) ≠ 0 → Sparse.lookup s.dev.qe.agg (pairKey p q.val) = some n →
        ActsOnQueues (.interruptAggregationTimeout p q) s fun b u => b = s.buf ∧ u.regs = s.dev.regs ∧ u.slots = s.dev.slots ∧
          u.qe.agg = Sparse.erase s.dev.qe.agg (pairKey p q.val)))

/-- Admission of writes, and the refusals of those that wait; Write, Read, Verify, Flush and Abort of a command in a slot. -/
def Obligations.WritesAndSectors : Prop :=
  (∀ (s : State) (i : Nat) (x : Slot), s.dev.up = true → s.dev.slot i = some x →
    (x.phase = .admitWait → opcode x = 1 → s.dev.canAdmit i x = true → x.cls ≠ .reserved → ActsOnQueues (.writeAdmission i) s fun b u =>
      b = s.buf ∧ u.mech = s.dev.mech ∧ u.bufx.meter = s.dev.meterNow - (1000 * dataLen x : Nat) ∧
      ∃ y, u.slot i = some y ∧ y.phase = .running ∧ y.entry = x.entry ∧ y.delay = x.delay + (s.dev.now - x.grantedAt + 999) / 1000) ∧
    (x.phase = .admitWait → opcode x = 1 → s.dev.canAdmit i x = false → ActsOnQueues (.writeAdmission i) s fun b u => b = s.buf ∧ u = s.dev) ∧
    (x.phase = .admitWait → opcode x = 1 → x.cls = .unreserved → s.dev.get Reg.BUF_STAT_PRESSURE = 1 →
      ActsOnQueues (.holdLimitRefusal i) s fun b u => b = s.buf ∧ Refuses i 0x13 1 u ∧ Counts Reg.BUF_OUT_REFUSED_COUNT s.dev u ∧
        KeepsRegs [Reg.BUF_OUT_REFUSED_COUNT] s.dev u ∧ u.mech = s.dev.mech) ∧
    (∀ (k : Nat) (y : Blk), x.phase = .running → isAdmin x = false → opcode x = 0 → k ∈ x.covers → s.dev.blk k = some y → y.phase = .staged →
      ActsOnQueues (.placeHoldTimeout i) s fun b u => b = s.buf ∧ Refuses i 0x13 8 u ∧ u.regs = s.dev.regs ∧ u.mech = s.dev.mech)) ∧
  (∀ (s : State) (i : Nat) (x : Slot), s.dev.up = true → s.dev.slot i = some x → isAdmin x = false →
    (∀ data : List Byte, x.phase = .running → opcode x = 1 → nsect x = 1 → dataLen x = 4096 → data.length = 4096 →
      ActsOnQueues (.write i data) s fun b u => Ends i 0 u ∧
        (∀ k : Nat, k < 4096 →
          b.read (s.dev.stageAddr ⟨volOf x, none, slba x / 16⟩ (slba x % 16) + k) = data.getD k 0) ∧
        (∀ a : Nat, a < s.dev.stageAddr ⟨volOf x, none, slba x / 16⟩ (slba x % 16) ∨
          s.dev.stageAddr ⟨volOf x, none, slba x / 16⟩ (slba x % 16) + 4096 ≤ a → b.read a = s.buf.read a)) ∧
    (x.phase = .fetched → opcode x = 2 → s.dev.bufx.blocks = [] → s.dev.arc.map = [] → x.lostXfer = false → s.dev.slots = [(i, x)] →
      ActsOnQueues (.read i) s fun b u => b = s.buf ∧ Ends i 0 u ∧ u.mech = s.dev.mech) ∧
    (x.phase = .fetched → opcode x = 4 → s.dev.bufx.blocks = [] → s.dev.arc.map = [] → s.dev.slots = [(i, x)] → x.earlier = [] → x.wants = [] →
      ActsOnQueues (.verify i) s fun b u => b = s.buf ∧ Ends i 0 u ∧ u.mech = s.dev.mech) ∧
    (x.phase = .fetched → opcode x = 0 → s.dev.bufx.blocks = [] → s.dev.bufx.losses = [] → x.lost = 0 → x.wants = [] → s.dev.slots = [(i, x)] →
      ActsOnQueues (.flush i) s fun b u => b = s.buf ∧ Ends i 0 u ∧ u.mech = s.dev.mech) ∧
    (∀ (p : Port) (q : Pair) (at_ : Option (Nat × Slot)), x.phase = .fetched → opcode x = 8 → p = (if tbit (cdw x 0) 7 then .B else .A) →
      q.val = cdw x 0 % 128 →
      at_ = s.dev.slots.find? (fun t => decide (t.1 ≠ i ∧ t.2.port = p ∧ t.2.pair = q.val ∧ t.2.index = bits (cdw x 0) 16 12)) →
      (∀ (j : Nat) (t : Slot), at_ = some (j, t) → s.dev.slot j = some t → opcode t = 8 ∧ isAdmin t = false →
        ActsOnQueues (.abort i) s fun b u => b = s.buf ∧ Ends i 2 u ∧ u.slot j = some t ∧ u.regs = s.dev.regs ∧ u.mech = s.dev.mech) ∧
      (∀ (j : Nat) (t : Slot), at_ = some (j, t) → s.dev.slot j = some t → opcode t ≠ 8 ∨ isAdmin t = true → t.cid = cdw x 1 % 65536 →
        (Dev.abortable t = true → ActsOnQueues (.abort i) s fun b u => b = s.buf ∧ Ends j 8 u ∧ Counts Reg.QE_ABORT_CNT_ABORTED s.dev u ∧
          u.slot i = some { x with phase := .finished, status := 0, target := some j } ∧
          ∀ (m : Mech) (h : HeldReq), h ∈ (u.mx m).mch.held → h.req.slot ≠ some j) ∧
        (Dev.abortable t = false → ActsOnQueues (.abort i) s fun b u => b = s.buf ∧
          u.slot i = some { x with phase := .running, target := some j } ∧ u.slot j = some t ∧ u.regs = s.dev.regs ∧ u.mech = s.dev.mech)) ∧
      (at_ = none → s.dev.get (Reg.QE_QCTL_STATE p q) = 1 ∨ s.dev.get (Reg.QE_QCTL_STATE p q) = 2 →
        bits (cdw x 0) 16 12 < s.dev.ringN p q →
        (bits (cdw x 0) 16 12 + s.dev.ringN p q - s.dev.get (Reg.QE_QPTR_SQ_HEAD p q)) % s.dev.ringN p q < s.dev.unfetched p q →
        ActsOnQueues (.abort i) s fun b u => b = s.buf ∧ u.slot i = some { x with phase := .running } ∧
          u.qe.aborts = s.dev.qe.aborts ++ [(i, Dev.entryKey p q.val (bits (cdw x 0) 16 12))] ∧ u.regs = s.dev.regs ∧ u.mech = s.dev.mech) ∧
      ((at_ = none ∧ s.dev.get (Reg.QE_QCTL_STATE p q) ≠ 1 ∧ s.dev.get (Reg.QE_QCTL_STATE p q) ≠ 2) ∨
        (∃ (j : Nat) (t : Slot), at_ = some (j, t) ∧ (opcode t ≠ 8 ∨ isAdmin t = true) ∧ t.cid ≠ cdw x 1 % 65536) →
        ActsOnQueues (.abort i) s fun b u => b = s.buf ∧ Ends i 9 u ∧ Counts Reg.QE_ABORT_CNT_LATE s.dev u ∧
          KeepsRegs [Reg.QE_ABORT_CNT_LATE] s.dev u ∧ u.mech = s.dev.mech)))

/-- The commands of the Archive Service: while it does not serve they wait; streams opened, with and without a reservation, and closed;
objects written and read, and queries, whatever they ask; the bytes of an admitted Object Put are staged, and join an object that is not
sealed. -/
def Obligations.ArchiveCommands : Prop :=
  (∀ (s : State) (i : Nat) (x : Slot), s.dev.up = true → s.dev.slot i = some x → isAdmin x = false → x.phase = .fetched →
    (s.dev.arcServes = false → ∀ c, c = Instr.streamOpen i ∨ c = .streamClose i ∨ c = .objectGet i ∨ c = .catalogueQuery i →
      ActsOnQueues c s fun b u => b = s.buf ∧ u.slot i = some { x with held := some (x.held.getD s.dev.now) } ∧ u.regs = s.dev.regs) ∧
    (s.dev.arcServes = true →
      (∀ (v : Vol) (c rsv p q : Nat), opcode x = 0x10 → s.dev.vol (volOf x) = some v → v.kind ≠ 0 ∨ s.dev.discThere v = true →
        rsv = cdw x 0 → p = cdw x 1 % 32 → q = bits (cdw x 1) 8 4 → p = 0 ∨ (v.p ≤ p ∧ Dev.codeP p = true) → q = 0 ∨ (v.q ≤ q ∧ q ≤ 8) →
        s.dev.freeCtx = some c → rsv = 0 ∨ s.dev.canReserve x.port rsv = true →
        ActsOnQueues (.streamOpen i) s fun b u => b = s.buf ∧ u.mech = s.dev.mech ∧ ∃ (y : Slot) (st : Stream), u.slot i = some y ∧
          y.phase = .finished ∧ y.status = 0 ∧ y.result = c + 16384 * st.gen ∧ Sparse.lookup u.arc.streams c = some st ∧ st.opened = true ∧
          st.vol = volOf x ∧ st.port = x.port ∧ st.rsv = rsv ∧ st.p = p ∧ st.q = q) ∧
      (∀ l : List Nat, opcode x = 0x11 → l = (s.dev.slots.filter (fun t =>
          decide (t.2.order < x.order ∧ t.1 ≠ i ∧ Dev.handleOf t.2 = some (cdw x 0)))).map Prod.fst →
        ActsOnQueues (.streamClose i) s fun b u => b = s.buf ∧ u.regs = s.dev.regs ∧ u.arc = s.dev.arc ∧
          if l = [] then Ends i 0 u else ∃ y, u.slot i = some y ∧ y.phase = .running ∧ y.earlier = l) ∧
      (opcode x = 0x21 → s.dev.newestSealed (volOf x) (objId x) = none → ActsOnQueues (.objectGet i) s fun b u => b = s.buf ∧
        u.regs = s.dev.regs ∧ ∃ y, u.slot i = some y ∧ y.phase = .finished ∧ y.status = 0 ∧ y.result = 0xFFFFFFFF) ∧
      (∀ (o : Obj) (ps : List Dev.Piece), opcode x = 0x21 → s.dev.newestSealed (volOf x) (objId x) = some o → Dev.verifies x = false →
        x.lostXfer = false → ps = s.dev.piecesOf x → s.dev.absentDisc false ps = none →
        s.dev.bufferBytes ps = 0 ∨ (0 < s.dev.meterNow ∧ s.dev.olderWaits i x = false) →
        ActsOnQueues (.objectGet i) s fun b u => b = s.buf ∧ u.mech = s.dev.mech ∧ ∃ y, u.slot i = some y ∧
          y.result = min (dataLen x) (o.size - byteField x.entry 52 8) ∧ y.wants = s.dev.wantsOf false ps ∧
          (s.dev.wantsOf false ps = [] → y.phase = .finished ∧ y.status = 0) ∧
          ((∃ w ∈ s.dev.wantsOf false ps, w.done = false) → y.phase = .running)) ∧
      (opcode x = 0x22 → x.lostXfer = false → s.dev.queryEntries x = none → ActsOnQueues (.catalogueQuery i) s fun b u =>
        b = s.buf ∧ Ends i 2 u ∧ u.regs = s.dev.regs ∧ u.out = s.dev.out) ∧
      (∀ l : List (List Byte), opcode x = 0x22 → x.lostXfer = false → s.dev.queryEntries x = some l →
        ActsOnQueues (.catalogueQuery i) s fun b u => b = s.buf ∧ u.regs = s.dev.regs ∧ u.mech = s.dev.mech ∧
          u.out = (s.dev.putHost x 0 ((l.take (dataLen x / 64)).flatMap Dev.fit64)).out ∧
          ∃ y, u.slot i = some y ∧ y.phase = .finished ∧ y.status = 0 ∧ y.result = (l.take (dataLen x / 64)).length))) ∧
  (∀ (s : State) (i : Nat) (x : Slot) (st : Stream) (data : List Byte), s.dev.up = true → s.dev.slot i = some x → isAdmin x = false →
    s.dev.arcServes = true → x.phase = .running → opcode x = 0x20 → data.length = dataLen x →
    Sparse.lookup s.dev.arc.streams (cdw x 0 % 16384) = some st →
    ActsOnQueues (.objectPut i data) s fun _ u => Ends i 0 u ∧
      (∃ st', Sparse.lookup u.arc.streams (cdw x 0 % 16384) = some st' ∧ st'.seq = st.seq + (data.length + 4095) / 4096 ∧ st'.vol = st.vol) ∧
      (s.dev.unsealed st.vol (objId x) = none → ∃ o ∈ u.arc.objs, o.vol = st.vol ∧ o.ident = objId x ∧ o.size = data.length ∧
        o.isSealed = tbit (cdw x 5) 0 ∧ o.extents = [(st.seq, data.length)]) ∧
      (∀ o : Obj, s.dev.unsealed st.vol (objId x) = some o →
        { o with extents := o.extents ++ [(st.seq, data.length)], size := o.size + data.length, isSealed := tbit (cdw x 5) 0 } ∈ u.arc.objs)) ∧
  (∀ (s : State) (i : Nat) (x : Slot) (st : Stream) (q : Pair), s.dev.up = true → s.dev.slot i = some x → isAdmin x = false →
    x.phase = .finished → x.target = none → x.orphan = false → opcode x = 0x11 → x.status = 0 → x.pair = q.val →
    s.dev.get (Reg.QE_QCTL_STATE x.port q) = 1 → s.dev.portServes x.port = true → s.dev.cqFull x.port q = false →
    Sparse.lookup s.dev.arc.streams (cdw x 0 % 16384) = some st →
    ActsOnQueues (.completionCommit i) s fun b u => b = s.buf ∧ u.slot i = none ∧
      (∃ t, Sparse.lookup u.arc.streams (cdw x 0 % 16384) = some t ∧ t.opened = false ∧ t.gen = st.gen ∧ t.vol = st.vol) ∧
      ∀ o ∈ u.arc.objs, o.strm = cdw x 0 → o.isSealed = true)

/-! ### Admin commands, health and power -/

/-- Identify, Get Log, the self-tests and the features. -/
def Obligations.AdminCommands : Prop :=
  (∀ (s : State) (i : Nat) (x : Slot), s.dev.up = true → s.dev.slot i = some x → isAdmin x = true → x.phase = .fetched →
    x.lostXfer = false →
    (opcode x = 1 → cdw x 0 % 4 = 0 → tbit (Dev.ent x 1 1) 0 = false → Dev.ent x 24 4 = 4096 →
      ActsOnQueues (.identify i) s fun b u => b = s.buf ∧ Ends i 0 u ∧ u.regs = s.dev.regs ∧
        Out.hostWrite x.port (Dev.ent x 16 8) (Dev.fitBytes 4096 s.dev.identDevice) ∈ u.out) ∧
    (opcode x = 1 → cdw x 0 % 4 = 3 → ActsOnQueues (.identify i) s fun b u => b = s.buf ∧ Ends i 2 u ∧ u.out = s.dev.out) ∧
    (opcode x = 2 → cdw x 0 % 256 = 1 → 64 * cdw x 2 ≤ dataLen x → ActsOnQueues (.getLog i) s fun b u => b = s.buf ∧
      u.regs = s.dev.regs ∧ u.elog = s.dev.elog ∧
      ∃ y, u.slot i = some y ∧ y.phase = .finished ∧ y.status = 0 ∧ y.result = s.dev.elog.next) ∧
    (opcode x = 2 → 5 ≤ cdw x 0 % 256 → ActsOnQueues (.getLog i) s fun b u => b = s.buf ∧ Ends i 2 u ∧ u.out = s.dev.out) ∧
    (opcode x = 3 → cdw x 0 % 16 = 1 → s.dev.fw.test = none → ActsOnQueues (.selfTest i) s fun b u => b = s.buf ∧ Ends i 0 u ∧
      u.regs = s.dev.regs ∧ ∃ t, u.fw.test = some t ∧ t.kind = 1 ∧ t.start = s.dev.now) ∧
    (opcode x = 3 → cdw x 0 % 16 = 1 → s.dev.fw.test.isSome = true → ActsOnQueues (.selfTest i) s fun b u => b = s.buf ∧ Ends i 0x22 u ∧
      u.fw = s.dev.fw) ∧
    (opcode x = 4 → cdw x 0 % 256 = 2 → tbit (cdw x 0) 31 = false → cdw x 2 = 0 →
      (10 ≤ cdw x 1 → cdw x 1 ≤ 60000 → ActsOnQueues (.setFeature i) s fun b u => b = s.buf ∧ Ends i 0 u ∧ u.feature 2 = cdw x 1 ∧
        u.feature 3 = s.dev.feature 3 ∧ u.feature 4 = s.dev.feature 4 ∧ u.regs = s.dev.regs) ∧
      (cdw x 1 < 10 ∨ 60000 < cdw x 1 → ActsOnQueues (.setFeature i) s fun b u => b = s.buf ∧ Ends i 2 u ∧ u.feats = s.dev.feats)) ∧
    (∀ sig : List Byte, opcode x = 10 →
      (s.dev.slots.any (fun t => decide (t.2.order < x.order ∧ t.2.phase = .fetched ∧ opcode t.2 = 10) && isAdmin t.2) = true →
        ActsOnQueues (.attestation i sig) s fun b u => b = s.buf ∧ u = s.dev) ∧
      (s.dev.slots.any (fun t => decide (t.2.order < x.order ∧ t.2.phase = .fetched ∧ opcode t.2 = 10) && isAdmin t.2) = false →
        ActsOnQueues (.attestation i sig) s fun b u => b = s.buf ∧ u.regs = s.dev.regs ∧ u.mech = s.dev.mech ∧
          ∃ y, u.slot i = some y ∧ y.phase = .finished ∧
          if dataLen x < 80 + 80 * s.dev.measurements.length + 4376 then y.status = 2 ∧ u.out = s.dev.out
          else y.status = 0 ∧ y.result = 80 + 80 * s.dev.measurements.length + 4376 ∧
            u.out = (s.dev.putHost x 0 (s.dev.reportBody x s.dev.measurements ++
              (if s.dev.get Reg.SEC_STAT_ID_BAD = 0 then Dev.fitBytes 1280 sig else List.replicate 1280 0))).out))) ∧
  (∀ (s : State) (t : SelfTest), s.dev.up = true → s.dev.fw.test = some t →
    (s.dev.slots = [] → (∀ m : Mech, (s.dev.mx m).mch.held = []) → Makes .selftestResume s fun u =>
      u.fw.test = some { t with paused := 0, marchPaused := false } ∧ u.regs = s.dev.regs ∧ u.mech = s.dev.mech) ∧
    (∀ (fail : Bool) (step mech : Byte) (r4 : BitVec 16) (pba : Word), Makes (.selftestEnd fail step mech r4 pba) s fun u =>
      u.fw.test = none ∧ u.regs = s.dev.regs ∧ u.mech = s.dev.mech ∧
      u.fw.results.head? = some ⟨t.start, s.dev.now, t.kind, b2n fail, step.toNat, mech.toNat, t.mask, r4.toNat, pba.toNat⟩)) ∧
  (∀ s : State, s.dev.up = true → s.dev.arcServes = true → Gives .healthPageUpdate s { s.dev with health := s.dev.healthPage }) ∧
  (∀ (s : State) (p : Nat), s.dev.up = true → Gives (.powerEstimateUpdate p) s { s.dev with pest := p })

/-- Create Volume and Delete Volume. -/
def Obligations.VolumeCommands : Prop :=
  ∀ (s : State) (i : Nat) (x : Slot), s.dev.up = true → s.dev.slot i = some x → isAdmin x = true → x.phase = .fetched →
    (opcode x = 5 → s.dev.volumeOk x = true → s.dev.vol (volOf x) = none → ActsOnQueues (.createVolume i) s fun b u => b = s.buf ∧
      Ends i 0 u ∧ u.regs = s.dev.regs ∧ (∀ k : Nat, k ≠ volOf x → u.vol k = s.dev.vol k) ∧
      ∃ v, u.vol (volOf x) = some v ∧ v.kind = cdw x 0 % 2 ∧ v.mechMask = cdw x 1 % 65536 ∧ v.capacity = cdw x 2 + 2 ^ 32 * cdw x 3) ∧
    (opcode x = 5 → s.dev.volumeOk x = false → ActsOnQueues (.createVolume i) s fun b u => b = s.buf ∧ Ends i 2 u ∧ u.arc = s.dev.arc) ∧
    (opcode x = 5 → s.dev.volumeOk x = true → (s.dev.vol (volOf x)).isSome = true → ActsOnQueues (.createVolume i) s fun b u =>
      b = s.buf ∧ Ends i 0x20 u ∧ u.arc = s.dev.arc) ∧
    (opcode x = 6 → s.dev.vol (volOf x) = none → ActsOnQueues (.deleteVolume i) s fun b u => b = s.buf ∧ Ends i 3 u ∧ u.arc = s.dev.arc) ∧
    (opcode x = 6 → (s.dev.vol (volOf x)).isSome = true → s.dev.volumeUsed i (volOf x) = true → ActsOnQueues (.deleteVolume i) s fun b u =>
      b = s.buf ∧ Ends i 0x21 u ∧ u.arc = s.dev.arc) ∧
    (opcode x = 6 → (s.dev.vol (volOf x)).isSome = true → s.dev.volumeUsed i (volOf x) = false → ActsOnQueues (.deleteVolume i) s fun b u =>
      b = s.buf ∧ Ends i 0 u ∧ u.vol (volOf x) = none ∧ (∀ k : Nat, k ≠ volOf x → u.vol k = s.dev.vol k) ∧ u.arc.map = s.dev.arc.map)

/-! ### Firmware and reloads -/

/-- Firmware Stage, Firmware Activate with its hand-over record, and the ends of an activation. -/
def Obligations.FirmwareCommands : Prop :=
  (∀ (s : State) (i : Nat) (x : Slot) (img : SignedImage) (ok : Bool), s.dev.up = true → s.dev.slot i = some x → isAdmin x = true →
    x.phase = .fetched → x.lostXfer = false →
    (opcode x = 7 → cdw x 0 % 4 = 0 → ActsOnQueues (.firmwareStage i img none ok) s fun b u => b = s.buf ∧
      Ends i (s.dev.stageStatus img 1 true) u ∧ u.regs = s.dev.regs ∧
      u.sec.svcStaged = if s.dev.stageStatus img 1 true = 0 then some img else s.dev.sec.svcStaged) ∧
    (opcode x = 7 → cdw x 0 % 4 = 1 → (∀ m : Mech, s.dev.get (Reg.FSQ_UCODE_STAT_SWAP_ARMED m) = 0) →
      ActsOnQueues (.firmwareStage i img none ok) s fun b u => b = s.buf ∧ Ends i 0x25 u ∧ u.mech = s.dev.mech ∧ u.regs = s.dev.regs) ∧
    (opcode x = 8 → 2 ≤ cdw x 0 % 4 → ActsOnQueues (.firmwareActivate i) s fun b u => b = s.buf ∧ Ends i 2 u ∧ u.fw = s.dev.fw) ∧
    (opcode x = 8 → cdw x 0 % 4 = 0 → s.dev.fwBusy = true → ActsOnQueues (.firmwareActivate i) s fun b u => b = s.buf ∧ Ends i 0x23 u ∧
      u.fw = s.dev.fw) ∧
    (opcode x = 8 → cdw x 0 % 4 = 0 → s.dev.fwBusy = false → s.dev.sec.svcStaged.isSome = true → s.dev.inReset 26 = false →
      (s.dev.parts[26]).lastEnd = none → ActsOnQueues (.firmwareActivate i) s fun b u => b = s.buf ∧ u.fw.svcAct = some ⟨i, false, s.dev.handOver, Crypto.shake256 s.dev.handOver⟩ ∧
        u.get (Reg.GCTL_EPOCH_IN_RESET 26) = 1 ∧ u.get Reg.ARC_STAT_STATE = 2)) ∧
  (∀ (s : State) (a : SvcAct) (y : Slot), s.dev.up = true → s.dev.fw.svcAct = some a → a.fallback = false →
    (∀ (img : SignedImage) (burn : Bool), s.dev.sec.svcStaged = some img → s.dev.inReset 26 = false → s.dev.slot a.slot = some y →
      y.phase = .running → Crypto.shake256 a.record = a.digest → ActsOnQueues (.fwImportDone true burn) s fun b u => b = s.buf ∧ u.sec.svc = some img ∧ u.sec.svcStaged = none ∧
        u.fw.svcAct = none ∧ u.get Reg.ARC_STAT_STATE = 1 ∧ Ends a.slot 0 u) ∧
    (∀ (img : SignedImage) (ok burn : Bool), s.dev.sec.svcStaged = some img → s.dev.inReset 26 = false → (s.dev.parts[26]).lastEnd = none →
      ok = false ∨ Crypto.shake256 a.record ≠ a.digest → ActsOnQueues (.fwImportDone ok burn) s fun b u => b = s.buf ∧
        u.fw.svcAct = some { a with fallback := true } ∧ u.sec = s.dev.sec ∧ u.inReset 26 = true) ∧
    (s.dev.inReset 26 = true → ActsOnQueues .activateTimeout s fun b u => b = s.buf ∧ u.fw.svcAct = some { a with fallback := true } ∧
      u.regs = s.dev.regs ∧ u.sec = s.dev.sec)) ∧
  (∀ (s : State) (a : UcodeAct) (y : Slot), s.dev.up = true → s.dev.fw.ucodeAct = some a → s.dev.slot a.slot = some y → y.phase = .running →
    ActsOnQueues .ucodeActivateTimeout s fun b u => b = s.buf ∧ u.fw.ucodeAct = none ∧ Ends a.slot 0x27 u)

/-- Structure Reload: its start, the loader's verdict, and the rest of a partial reload's mechanism. -/
def Obligations.StructureReloads : Prop :=
  (∀ (s : State) (i : Nat) (x : Slot), s.dev.up = true → s.dev.slot i = some x → isAdmin x = true → x.phase = .fetched → opcode x = 9 →
    (s.dev.fwBusy = true → ActsOnQueues (.structureReload i) s fun b u => b = s.buf ∧ Ends i 0x23 u ∧ u.fw = s.dev.fw) ∧
    (s.dev.fwBusy = false → s.dev.sec.ownerOp = 0 → tbit (cdw x 0) 0 = true → x.lostXfer = false →
      ActsOnQueues (.structureReload i) s fun b u => b = s.buf ∧ u.get Reg.GCTL_IMG_STAT_STATE = 3 ∧
        u.fw.reload = some ⟨i, some (bits (cdw x 0) 1 4), tbit (cdw x 0) 8, dataLen x, s.dev.get Reg.GCTL_IMG_STAT_STATE, none, false⟩ ∧
        u.slot i = some { x with phase := .running })) ∧
  (∀ (s : State) (r : Reload) (y : Slot) (img : List Byte), s.dev.up = true → s.dev.fw.reload = some r → r.image = none →
    s.dev.slot r.slot = some y → y.phase = .running → ActsOnQueues (.loaderCheckDone img) s fun _ u =>
      u.get Reg.GCTL_IMG_STAT_LAST_PARTIAL = bits (byteField img 12 4) 1 1 ∧
      ((byteField img 12 4).testBit 1 = true → u.get Reg.GCTL_IMG_STAT_LAST_MECH = bits (byteField img 12 4) 2 4) ∧
      match s.dev.reloadCheck r img with
      | .error e => u.get Reg.GCTL_IMG_STAT_STATE = 2 ∧ u.get Reg.GCTL_IMG_STAT_CODE = e.code % 256 ∧ u.fw.reload = none ∧
          Ends r.slot 0x24 u ∧ u.img = s.dev.img
      | .ok i => r.mech = none → u.fw.reload = none ∧ Ends r.slot 0 u ∧ u.img.serial = i.serial ∧ u.img.globals = i.globals) ∧
  (∀ (s : State) (m : Mech), s.dev.up = true → s.dev.reloadWaits m = true →
    (s.dev.reloadRest m = true → s.dev.mstate m ≠ .safe → s.dev.mechInReset m = false → s.dev.resetPending ⟨m.val, by omega⟩ = false →
      (s.dev.parts[m.val]).lastEnd = none → ActsOnQueues (.reloadRestReached m) s fun b u => b = s.buf ∧ u.mechInReset m = true ∧
        u.epoch ⟨m.val, by omega⟩ = (s.dev.epoch ⟨m.val, by omega⟩ + 1) % 65536) ∧
    (∀ (r : Reload) (y : Slot), s.dev.fw.reload = some r → s.dev.slot r.slot = some y → y.phase = .running →
      ActsOnQueues (.reloadRestTimeout m) s fun b u => b = s.buf ∧ ∃ v : Dev, u = v.settle m ∧ v.fw.reload = none ∧ Ends r.slot 0x28 v ∧
        v.mech = s.dev.mech))

/-! ### The Archive Service -/

/-- Placement and joining. `d` is the device after the service has woken and done its upkeep at the command. -/
def Obligations.PlacementAndJoining : Prop :=
  ∀ (s : State) (d : Dev), s.dev.up = true → s.dev.arcServes = true → d = s.dev.wakeService.arcSync →
    (∀ i : Nat, d.blk i = none → ActsOnArc (.blockPlacement i) s fun u => u = d) ∧
    (∀ (i : Nat) (b : Blk), d.blk i = some b → b.phase ≠ .staged ∨ d.isNext b = false → ActsOnArc (.blockPlacement i) s fun u => u = d) ∧
    (∀ (i : Nat) (b : Blk) (v v' : Vol) (m : Mech) (x : Disc) (l w t : Nat), d.blk i = some b → b.phase = .staged → d.isNext b = true →
      b.pool = .retained → d.vol b.key.vol = some v → d.chooseMech v b = some (m, v') → d.discIn m = some x → x.blank = false →
      d.cursorSlot m x x.p x.q = some (l, w, t) → ActsOnArc (.blockPlacement i) s fun u => ∃ z : Dev, u = z.settle m ∧ z.slots = s.dev.slots ∧
        (∃ y, z.blk i = some y ∧ y.phase = .placed ∧ y.pool = .retained ∧ y.mech = some m.val ∧ y.pba = Codec.pba l w 0 t ∧ y.key = b.key) ∧
        (∃ y, z.discIn m = some y ∧ y.ident = x.ident ∧ y.layer = l ∧ y.swath = w ∧ y.dslot = t + 1 ∧ y.placed = x.placed + 1) ∧
        KeepsOthers m s.dev z) ∧
    (∀ (i : Nat) (b : Blk) (v : Vol), d.blk i = some b → b.phase = .staged → d.isNext b = true → b.pool = .retained →
      d.vol b.key.vol = some v → d.chooseMech v b = none → ActsOnArc (.blockPlacement i) s fun u => u.bufx = d.bufx ∧ u.mech = d.mech ∧
        u.arc.groups = d.arc.groups ∧ u.arc.discs = d.arc.discs ∧ if v.starved then u = d else ∃ y, u.vol b.key.vol = some y ∧ y.starved = true) ∧
    (∀ (m : Mech) (t : Nat), (d.arc.joinAt[m.val]) = some t → tbit d.arc.joined m.val = false → d.canPlace m = true →
      ActsOnArc (.mechanismJoin m) s fun u => tbit u.arc.joined m.val = true ∧ (∀ k : Mech, k ≠ m → tbit u.arc.joined k.val = tbit d.arc.joined k.val) ∧
        u.mech = d.mech ∧ u.bufx = d.bufx ∧ u.slots = d.slots) ∧
    (∀ m : Mech, d.canPlace m = false → ActsOnArc (.mechanismJoin m) s fun u => u = d)

/-- Checkpoints: their start, the writing of copy B, and what ends them. -/
def Obligations.Checkpoints : Prop :=
  ∀ (s : State) (m : Mech) (d : Dev), s.dev.up = true → s.dev.arcServes = true → d = s.dev.wakeService.arcSync →
    ((d.arc.ckpts[m.val]).isSome = true ∨ d.discIn m = none → ActsOnArc (.checkpointInterval m) s fun u => u = d) ∧
    (∀ x : Disc, d.arc.ckpts[m.val] = none → d.discIn m = some x → ActsOnArc (.checkpointInterval m) s fun u => ∃ z : Dev, u = z.settle m ∧
      z.arc.ckpts[m.val] = some ⟨((d.mx m).goat.drt.filter (fun e => !e.persisted)).map (fun e => (e.src, e.dst)), false, false⟩ ∧
      z.slots = d.slots ∧ KeepsOthers m d z ∧
      if (d.catNextSlot m x).isSome then ∃ y, z.discIn m = some y ∧ y.catNext = x.catNext + 1 else z.bufx = d.bufx) ∧
    (∀ cls : Fin 3, (d.arc.ckpts[m.val]) = none → ActsOnArc (.checkpointWritten m cls) s fun u => u = d) ∧
    (∀ (cls : Fin 3) (c : Ckpt) (x : Disc), d.arc.ckpts[m.val] = some c → d.discIn m = some x →
      (cls = 2 → ActsOnArc (.checkpointWritten m cls) s fun u => ∃ z : Dev, u = z.settle m ∧ z.arc.ckpts[m.val] = some c) ∧
      (cls ≠ 2 → c.thenExchange = false → ActsOnArc (.checkpointWritten m cls) s fun u => ∃ z : Dev, u = z.settle m ∧ z.arc.ckpts[m.val] = none ∧
        (∃ y, z.discIn m = some y ∧ y.ident = x.ident ∧ y.ckptSeq = x.ckptSeq + 1 ∧ y.ckptAt = d.now) ∧
        (c.mbox = true → z.get Reg.ARC_MBOX_STAT_RESULT = 2) ∧ KeepsOthers m d z))

/-- A disc loaded, a disc full, and the withdrawal of the robot's time. -/
def Obligations.DiscsOfTheService : Prop :=
  ∀ (s : State) (m : Mech) (d : Dev), s.dev.up = true → s.dev.arcServes = true → d = s.dev.wakeService.arcSync →
    (∀ r : DiscInfo, d.get (Reg.MCH_STATE_DISC m) = 0 ∨ (d.discIn m).isSome = true → ActsOnArc (.discLoad m r) s fun u => u = d) ∧
    (∀ r : DiscInfo, d.get (Reg.MCH_STATE_DISC m) = 1 → d.discIn m = none → r.blank = false →
      (d.arc.discs.find? fun x => decide (x.ident = r.discId.toNat ∧ x.mech = none)) = none →
      ActsOnArc (.discLoad m r) s fun u => ∃ z : Dev, u = z.settle m ∧ z.get (Reg.DRT_STAT_LOADED m) = 1 ∧
        (∃ y, z.discIn m = some y ∧ y.ident = r.discId.toNat ∧ y.p = r.p ∧ y.q = r.q ∧ y.layers = r.layers ∧ y.placed = r.placed ∧
          y.blank = false ∧ y.full = false ∧ y.ckptSeq = r.ckptSeq ∧
          y.swaths = r.swaths.map fun e => ⟨e.1.val, e.2.1, e.2.2.1.toNat, e.2.2.2⟩) ∧ (z.mx m).goat.drt.length = r.drt.length ∧ KeepsOthers m d z ∧ z.slots = d.slots) ∧
    (∀ r : DiscInfo, d.get (Reg.MCH_STATE_DISC m) = 1 → d.discIn m = none → r.blank = true →
      ActsOnArc (.discLoad m r) s fun u => ∃ z : Dev, u = z.settle m ∧ z.get (Reg.DRT_STAT_LOADED m) = 1 ∧ (z.mx m).goat.drt = [] ∧
        (∃ y, z.discIn m = some y ∧ y.blank = true ∧ y.placed = 0 ∧ y.full = false) ∧ z.arc.map = d.arc.map ∧ z.arc.objs = d.arc.objs ∧
        KeepsOthers m d z) ∧
    (∀ x : Disc, d.discIn m = some x → x.full = true ∨ d.exhausted m x = false → ActsOnArc (.discFull m) s fun u => u = d) ∧
    (∀ x : Disc, d.discIn m = some x → x.full = false → d.exhausted m x = true → (d.arc.ckpts[m.val]) = none →
      ActsOnArc (.discFull m) s fun u => ∃ z : Dev, u = z.settle m ∧ (∃ y, z.discIn m = some y ∧ y.ident = x.ident ∧ y.full = true) ∧
        ∃ c, z.arc.ckpts[m.val] = some c ∧ c.mbox = false ∧ c.thenExchange = (d.policy 1 1 1 == 1)) ∧
    (d.policy 1 2 1 ≠ 1 ∨ tbit d.arc.exch m.val = false ∨ d.mstate m ≠ .exchange ∨ (d.arc.discInAt[m.val]) = none →
      ActsOnArc (.withdrawTimeout m) s fun u => u = d) ∧
    (d.policy 1 2 1 = 1 → tbit d.arc.exch m.val = true → d.mstate m = .exchange → (d.arc.discInAt[m.val]).isSome = true →
      ActsOnArc (.withdrawTimeout m) s fun u =>
        u = (d.modArc fun a => { a with discInAt := a.discInAt.set m.val none }).mchOp m 9 0 true)

/-- The five mailbox commands: refused while the service or another command is busy, or in the wrong state; HOLD, RELEASE,
CHECKPOINT, EXCHANGE and EXCH_DONE otherwise; `d` is the device with the service's processors awake. -/
def Obligations.MailboxCommands : Prop :=
  ∀ (s : State) (m : Mech) (d : Dev), s.dev.up = true → s.dev.inReset 26 = false → d = s.dev.wakeService →
    (∀ e ∈ [(1, Instr.exchDone m), (2, .mboxCheckpoint m), (3, .mboxHold m), (4, .mboxRelease m), (5, .mboxExchange m)],
      d.arcServes = false ∨ d.arc.ckpts.toList.any (fun c => c.any (fun c => c.mbox)) = true →
      ActsOnMailbox e.2 s (MailRefused d e.1 1)) ∧
    (d.arcServes = true → d.arc.ckpts.toList.any (fun c => c.any (fun c => c.mbox)) = false →
      (d.present m = true → ActsOnMailbox (.mboxHold m) s fun u => tbit u.arc.held m.val = true ∧ u.get Reg.ARC_MBOX_STAT_RESULT = 2 ∧
        u.get Reg.ARC_MBOX_STAT_OP = 3 ∧ u.mech = d.mech ∧ u.bufx = d.bufx) ∧
      (d.present m = false → ActsOnMailbox (.mboxHold m) s (MailRefused d 3 2)) ∧
      (tbit d.arc.held m.val = true → ActsOnMailbox (.mboxRelease m) s fun u => tbit u.arc.held m.val = false ∧
        u.get Reg.ARC_MBOX_STAT_RESULT = 2 ∧ u.get Reg.ARC_MBOX_STAT_OP = 4 ∧ u.mech = d.mech ∧ u.bufx = d.bufx) ∧
      (tbit d.arc.held m.val = false → ActsOnMailbox (.mboxRelease m) s (MailRefused d 4 2)) ∧
      (d.discLoaded m = true → d.arc.ckpts[m.val] = none → ActsOnMailbox (.mboxCheckpoint m) s fun u => ∃ z : Dev, u = z.settle m ∧
        z.get Reg.ARC_MBOX_STAT_RESULT = 1 ∧ ∃ c, z.arc.ckpts[m.val] = some c ∧ c.mbox = true ∧ c.thenExchange = false) ∧
      (d.discLoaded m = false → ActsOnMailbox (.mboxCheckpoint m) s (MailRefused d 2 2)) ∧
      (d.discLoaded m = true → d.mstate m ≠ .exchange → d.arc.ckpts[m.val] = none → ActsOnMailbox (.mboxExchange m) s fun u =>
        ∃ z : Dev, u = z.settle m ∧ z.get Reg.ARC_MBOX_STAT_RESULT = 1 ∧ ∃ c, z.arc.ckpts[m.val] = some c ∧ c.mbox = true ∧ c.thenExchange = true) ∧
      (d.discLoaded m = false ∨ d.mstate m = .exchange → ActsOnMailbox (.mboxExchange m) s (MailRefused d 5 2)) ∧
      (tbit d.arc.exch m.val = true → d.mstate m = .exchange → ActsOnMailbox (.exchDone m) s fun u =>
        u = ((d.setAll [(Reg.ARC_MBOX_STAT_RESULT, 1), (Reg.ARC_MBOX_STAT_OP, 1), (Reg.ARC_MBOX_STAT_CODE, 0)]).mchOp m 9 0 true).set
          Reg.ARC_MBOX_STAT_RESULT 2) ∧
      (tbit d.arc.exch m.val = false ∨ d.mstate m ≠ .exchange → ActsOnMailbox (.exchDone m) s (MailRefused d 1 2)))

/-! ### DMA -/

/-- START, DMA_STOP, CLEAR, a write of the program counter and of the configuration, and of a semaphore; none acts on a channel that the
host does not own. -/
def Obligations.DmaChannelCommands : Prop :=
  ∀ (s : State) (n : DmaCh),
    (DmaOpen s.dev n →
      (s.dev.dmaState n = 0 → Makes (.dmaStart n) s fun u => u.dmaState n = 1 ∧ PcIs n (s.dev.dma[n.val]).pc u ∧ u.mech = s.dev.mech ∧
        (∀ k : DmaCh, k ≠ n → u.dmaState k = s.dev.dmaState k)) ∧
      (s.dev.dmaState n = 3 → Makes (.dmaStart n) s fun u => u.dmaState n = 1 ∧ u.dmaPc n = s.dev.dmaPc n ∧ u.mech = s.dev.mech ∧
        (∀ k : DmaCh, k ≠ n → u.dmaState k = s.dev.dmaState k)) ∧
      (s.dev.dmaState n = 1 ∨ s.dev.dmaState n = 2 ∨ s.dev.dmaState n = 4 → Gives (.dmaStart n) s (s.dev.vlogAdd 0x14 0x0B02 0)) ∧
      (s.dev.dmaState n = 1 → Makes (.dmaStop n) s fun u => u.get (Reg.DMA_CH_STAT_STOP_PENDING n) = 1 ∧
        KeepsRegs [Reg.DMA_CH_STAT_STOP_PENDING n] s.dev u ∧ { u with regs := s.dev.regs } = s.dev) ∧
      (s.dev.dmaState n = 2 → Makes (.dmaStop n) s fun u => u.dmaState n = 3 ∧ u.dmaPc n = s.dev.dmaPc n ∧ u.dma = s.dev.dma ∧ u.mech = s.dev.mech) ∧
      (s.dev.dmaState n = 0 → Gives (.dmaStop n) s (s.dev.vlogAdd 0x14 0x0B02 0)) ∧
      (s.dev.dmaState n = 3 ∨ s.dev.dmaState n = 4 ∨ s.dev.dmaState n = 5 → Makes (.dmaClear n) s fun u => u.dmaState n = 0 ∧
        (∀ k : Fin 4, u.get (Reg.DMA_CH_CNT_CNT n k) = 0) ∧ u.get (Reg.DMA_CH_FAULT_LO_ADDR n) = 0 ∧ u.get (Reg.DMA_CH_FAULT_HI_ADDR n) = 0 ∧
        u.dmaPc n = s.dev.dmaPc n ∧ u.mech = s.dev.mech ∧ (∀ k : DmaCh, k ≠ n → u.dmaState k = s.dev.dmaState k)) ∧
      (s.dev.dmaState n = 1 → Gives (.dmaClear n) s (s.dev.vlogAdd 0x14 0x0B02 0)) ∧
      (∀ w : Word, s.dev.dmaState n = 0 ∨ s.dev.dmaState n = 3 ∨ s.dev.dmaState n = 5 →
        (Makes (.dmaPcWrite n false w) s fun u => u.get (Reg.DMA_CH_PC_LO_PC n) = w.toNat ∧ KeepsRegs [Reg.DMA_CH_PC_LO_PC n] s.dev u) ∧
        (Makes (.dmaPcWrite n true w) s fun u => u.get (Reg.DMA_CH_PC_HI_PC n) = w.toNat ∧ KeepsRegs [Reg.DMA_CH_PC_HI_PC n] s.dev u)) ∧
      (∀ w : Word, bits w.toNat 0 2 = 2 → Makes (.dmaCfgWrite n w) s fun u => u.get (Reg.DMA_CH_CFG_RETRY n) = bits w.toNat 2 4 ∧
        u.get (Reg.DMA_CH_CFG_EPOCH_STOP n) = bits w.toNat 6 1 ∧ KeepsRegs [Reg.DMA_CH_CFG_RETRY n, Reg.DMA_CH_CFG_EPOCH_STOP n] s.dev u ∧
        { u with regs := s.dev.regs } = s.dev)) ∧
    (s.dev.up = true → s.dev.inReset 18 = false → s.dev.get (Reg.DMA_CH_CFG_OWNER n) ≠ 2 →
      ∀ c, c = Instr.dmaStart n ∨ c = .dmaStop n ∨ c = .dmaClear n ∨ (∃ h w, c = .dmaPcWrite n h w) ∨ (∃ w, c = .dmaCfgWrite n w) →
        Gives c s (s.dev.vlogAdd 0x14 0x0B02 0)) ∧
    (s.dev.up = true → s.dev.inReset 18 = false → ∀ (i : Fin 64) (w : Word), Makes (.dmaSemWrite i w) s fun u =>
      u.get (Reg.DMA_SEM_VALUE i) = w.toNat ∧ KeepsRegs [Reg.DMA_SEM_VALUE i] s.dev u ∧ { u with regs := s.dev.regs } = s.dev)

/-- The five DMA instructions, of a channel that holds them and has no stop pending. -/
def Obligations.DmaInstructions : Prop :=
  ∀ (s : State) (n : DmaCh), s.dev.get (Reg.DMA_CH_STAT_STOP_PENDING n) = 0 →
    (DmaHolds s.dev n .done → MakesBuf (.dmaEnd n) s fun b u => b = s.buf ∧ u.dmaState n = 5 ∧ PcIs n (s.dev.dmaPc n + 32) u ∧
      u.mech = s.dev.mech) ∧
    (∀ (len src dst : Nat) (host : List Byte),
      DmaHolds s.dev n (.move 2 2 false false true false len src dst) → s.dev.accessStop n 2 false true dst len = none →
      MakesBuf (.dmaMove n host) s fun b u => u.dmaState n = 1 ∧ PcIs n (s.dev.dmaPc n + 32) u ∧ Counts (Reg.DMA_CH_BYTES_BYTES n) s.dev u len ∧
        (∀ a : Nat, dst ≤ a → a < dst + len → b.read a = 0) ∧ (∀ a : Nat, a < dst ∨ dst + len ≤ a → b.read a = s.buf.read a)) ∧
    (∀ (len src dst : Nat) (host : List Byte),
      DmaHolds s.dev n (.move 2 2 false false false false len src dst) → s.dev.accessStop n 2 false false src len = none →
      s.dev.accessStop n 2 false true dst len = none → s.dev.poisoned src len = false →
      MakesBuf (.dmaMove n host) s fun b u => u.dmaState n = 1 ∧ PcIs n (s.dev.dmaPc n + 32) u ∧ Counts (Reg.DMA_CH_BYTES_BYTES n) s.dev u len ∧
        (∀ k : Nat, k < len → b.read (dst + k) = s.buf.read (src + k)) ∧
        (∀ a : Nat, a < dst ∨ dst + len ≤ a → b.read a = s.buf.read a)) ∧
    (∀ (k : Fin 4) (count target ss sd : Nat), DmaHolds s.dev n (.loop k count target ss sd) → MakesBuf (.dmaLoop n) s fun b u => b = s.buf ∧
      u.get (Reg.DMA_CH_CNT_CNT n k) = ((if s.dev.get (Reg.DMA_CH_CNT_CNT n k) = 0 then count else s.dev.get (Reg.DMA_CH_CNT_CNT n k)) - 1) %
        2 ^ (Reg.DMA_CH_CNT_CNT n k).width ∧
      PcIs n (if 1 < (if s.dev.get (Reg.DMA_CH_CNT_CNT n k) = 0 then count else s.dev.get (Reg.DMA_CH_CNT_CNT n k)) then target
        else s.dev.dmaPc n + 32) u ∧ u.dmaState n = 1) ∧
    (∀ (sem : Fin 64) (value time timeout : Nat), DmaHolds s.dev n (.wait 0 sem value time timeout) → s.dev.outranked n sem = false →
      (value ≤ s.dev.get (Reg.DMA_SEM_VALUE sem) → MakesBuf (.dmaWait n) s fun b u => b = s.buf ∧ u.dmaState n = 1 ∧
        PcIs n (s.dev.dmaPc n + 32) u ∧ u.get (Reg.DMA_SEM_VALUE sem) = s.dev.get (Reg.DMA_SEM_VALUE sem) - value) ∧
      (s.dev.get (Reg.DMA_SEM_VALUE sem) < value → MakesBuf (.dmaWait n) s fun b u => b = s.buf ∧ u.dmaState n = 2 ∧
        u.dmaPc n = s.dev.dmaPc n ∧ u.get (Reg.DMA_SEM_VALUE sem) = s.dev.get (Reg.DMA_SEM_VALUE sem))) ∧
    (∀ (sp : Nat) (sem : Fin 64) (value addr : Nat), DmaHolds s.dev n (.signal 0 sp sem value addr) → MakesBuf (.dmaSignal n) s fun b u => b = s.buf ∧
      u.dmaState n = 1 ∧ PcIs n (s.dev.dmaPc n + 32) u ∧
      u.get (Reg.DMA_SEM_VALUE sem) = min 0xFFFFFFFF (s.dev.get (Reg.DMA_SEM_VALUE sem) + value))

/-- Waits of DMA channels, failed accesses and the re-issue after a reset. -/
def Obligations.DmaWaitsAndFailures : Prop :=
  ∀ (s : State) (n : DmaCh),
    (∀ (kind : Nat) (sem : Fin 64) (value time limit : Nat), s.dev.waitingOn n = some (.wait kind sem value time limit) →
      (s.dev.waitHolds n kind sem value time = true → Makes (.waitSatisfied n) s fun u =>
        (u.dmaState n = 1 ∨ u.dmaState n = 3) ∧ PcIs n (s.dev.dmaPc n + 32) u ∧
        (kind = 0 → u.get (Reg.DMA_SEM_VALUE sem) = s.dev.get (Reg.DMA_SEM_VALUE sem) - value) ∧ u.mech = s.dev.mech) ∧
      (s.dev.waitHolds n kind sem value time = false → Gives (.waitSatisfied n) s s.dev) ∧
      (limit ≠ 0 → s.dev.waitHolds n kind sem value time = false → Makes (.waitTimeout n) s fun u => u.dmaState n = 4 ∧
        u.get (Reg.DMA_CH_STAT_HALT n) = 4 ∧ u.dmaPc n = s.dev.dmaPc n ∧ u.mech = s.dev.mech) ∧
      (limit = 0 → Gives (.waitTimeout n) s s.dev)) ∧
    (∀ (f : DmaFail) (a : BitVec 64) (sp : Fin 4), s.dev.dmaRuns n = true →
      (f ≠ .fetch → ¬(f = .poison ∧ sp = 2) → (s.dev.dma[n.val]).tries < s.dev.get (Reg.DMA_CH_CFG_RETRY n) →
        Makes (.dmaAccessFail n f a sp) s fun u => u.dmaState n = 1 ∧ Counts (Reg.DMA_CH_RETRY_BUS n) s.dev u ∧
          KeepsRegs [Reg.DMA_CH_RETRY_BUS n] s.dev u ∧ (u.dma[n.val]).tries = (s.dev.dma[n.val]).tries + 1) ∧
      (f ≠ .fetch → ¬(f = .poison ∧ sp = 2) → s.dev.get (Reg.DMA_CH_CFG_RETRY n) ≤ (s.dev.dma[n.val]).tries →
        Makes (.dmaAccessFail n f a sp) s fun u => u.dmaState n = 4 ∧ u.get (Reg.DMA_CH_STAT_HALT n) = 1 ∧
          u.get (Reg.DMA_CH_FAULT_LO_ADDR n) = a.toNat % 2 ^ 32 ∧ u.get (Reg.DMA_CH_FAULT_HI_ADDR n) = a.toNat / 2 ^ 32 ∧
          u.get (Reg.DMA_CH_FAULT_SP_SPACE n) = sp.val) ∧
      (f = .fetch → Makes (.dmaAccessFail n f a sp) s fun u => u.dmaState n = 4 ∧ u.get (Reg.DMA_CH_STAT_HALT n) = 5) ∧
      (f = .poison → sp = 2 → Makes (.dmaAccessFail n f a sp) s fun u => u.dmaState n = 4 ∧ u.get (Reg.DMA_CH_STAT_HALT n) = 6) ∧
      (2 ≤ sp.val → s.dev.get (Reg.DMA_CH_CFG_EPOCH_STOP n) = 0 → (s.dev.dma[n.val]).reissues < s.dev.get (Reg.DMA_CH_CFG_RETRY n) →
        Makes (.dmaEpochReissue n a sp false) s fun u => u.dmaState n = 1 ∧ Counts (Reg.DMA_CH_RETRY_EPOCH n) s.dev u ∧
          (u.dma[n.val]).reissues = (s.dev.dma[n.val]).reissues + 1) ∧
      (∀ late : Bool, sp.val < 2 ∨ s.dev.get (Reg.DMA_CH_CFG_EPOCH_STOP n) = 1 ∨ late = true → Makes (.dmaEpochReissue n a sp late) s fun u =>
        u.dmaState n = 4 ∧ u.get (Reg.DMA_CH_STAT_HALT n) = 2 ∧ u.get (Reg.DMA_CH_FAULT_SP_SPACE n) = sp.val))

/-! ### The metadata cache -/

/-- What a request of the metadata cache does: it hits a line, merges into a fill, takes a miss register, or passes the cache by. -/
def Obligations.MetadataRequests : Prop :=
  ∀ (s : State) (a : Nat), s.dev.up = true → s.dev.inReset 19 = false →
    (∀ x : Line, s.dev.findLine (lineOf a) = some x → x.lock = true ∨ s.dev.get Reg.MDC_STAT_ENABLED = 1 →
      (MakesBuf (.metadataRequest a none) s fun b u => b = s.buf ∧ Counts Reg.MDC_HIT_HITS s.dev u ∧ u.mdc.misses = s.dev.mdc.misses ∧
        (∀ l : Nat, (u.findLine l).map Line.data = (s.dev.findLine l).map Line.data) ∧ u.mech = s.dev.mech) ∧
      (∀ l : List Byte, MakesBuf (.metadataRequest a (some l)) s fun b u => Counts Reg.MDC_HIT_HITS s.dev u ∧
        (∃ y, u.findLine (lineOf a) = some y ∧ y.data = Dev.patch x.data (a % 128) (l.take (128 - a % 128)) ∧ y.lock = x.lock ∧
          (y.dirty = !x.lock)) ∧
        b = (if x.lock then s.buf.writeBytes a (l.take (128 - a % 128)) else s.buf) ∧ u.mech = s.dev.mech)) ∧
    (∀ x : Miss, s.dev.findLine (lineOf a) = none → s.dev.missOf (lineOf a) = some x → x.waiters.length < 16 →
      MakesBuf (.metadataRequest a none) s fun b u => b = s.buf ∧ Counts Reg.MDC_MERGE_MERGED s.dev u ∧ u.mdc.lines = s.dev.mdc.lines ∧
        u.missOf (lineOf a) = some { x with waiters := x.waiters ++ [⟨a, none⟩] } ∧ u.mech = s.dev.mech) ∧
    (s.dev.findLine (lineOf a) = none → s.dev.missOf (lineOf a) = none →
      (s.dev.get Reg.MDC_CTL_EN = 1 → s.dev.get Reg.MDC_CTL_PREFETCH = 0 → s.dev.mdc.misses.length < 64 →
        MakesBuf (.metadataRequest a none) s fun b u => b = s.buf ∧ Counts Reg.MDC_MISS_MISSES s.dev u ∧ u.mdc.lines = s.dev.mdc.lines ∧
          u.mdc.misses = s.dev.mdc.misses ++ [⟨lineOf a, [⟨a, none⟩], [], false⟩] ∧ u.mech = s.dev.mech) ∧
      (∀ l : List Byte, s.dev.get Reg.MDC_CTL_EN = 0 → MakesBuf (.metadataRequest a (some l)) s fun b u =>
        b = s.buf.writeBytes a (l.take (128 - a % 128)) ∧ u.mdc.lines = s.dev.mdc.lines ∧ u.mdc.misses = s.dev.mdc.misses ∧ u.mech = s.dev.mech))

/-- Prefetch: a demand miss to a line also starts a fill of the next one, only if that is absent, has no fill held, and 8 miss registers
remain free after the demand miss has taken its own; a prefetched line is allocated as a demand line is and is not locked. -/
def Obligations.Prefetches : Prop :=
  (∀ (s : State) (a : Nat) (wr : Option (List Byte)), s.dev.up = true → s.dev.inReset 19 = false → s.dev.get Reg.MDC_CTL_EN = 1 →
    s.dev.findLine (lineOf a) = none → s.dev.missOf (lineOf a) = none → s.dev.mdc.misses.length < 64 →
    (s.dev.get Reg.MDC_CTL_PREFETCH = 1 → MakesBuf (.metadataRequest a wr) s fun b u => b = s.buf ∧ u.mdc.lines = s.dev.mdc.lines ∧
      u.mdc.misses = s.dev.mdc.misses ++ [⟨lineOf a, [⟨a, wr.map fun l => l.take (128 - a % 128)⟩], [], false⟩] ++
        (if s.dev.findLine (lineOf a + 128) = none ∧ s.dev.missOf (lineOf a + 128) = none ∧ 8 ≤ 64 - (s.dev.mdc.misses.length + 1)
          then [⟨lineOf a + 128, [], [], true⟩] else [])) ∧
    (s.dev.get Reg.MDC_CTL_PREFETCH = 0 → MakesBuf (.metadataRequest a wr) s fun b u => b = s.buf ∧ u.mdc.lines = s.dev.mdc.lines ∧
      u.mdc.misses = s.dev.mdc.misses ++ [⟨lineOf a, [⟨a, wr.map fun l => l.take (128 - a % 128)⟩], [], false⟩])) ∧
  (∀ (s : State) (l : Nat) (x : Miss), s.dev.up = true → lineOf l = l → s.dev.missOf l = some x → s.dev.groupDown l = false → x.waiters = [] →
    x.later = [] → s.dev.mdc.waiting = [] → s.dev.mdc.maint = none → s.dev.poisoned l 128 = false →
    MakesBuf (.cacheFillDone l false) s fun _ u => u.missOf l = none ∧ u.mech = s.dev.mech ∧
      ∃ y, u.findLine l = some y ∧ y.data = s.buf.readBytes l 128 ∧ y.lock = false ∧ y.dirty = false ∧ y.prefetched = x.prefetch)

/-- A fill that completes allocates its line; the end of a maintenance operation; the cache disabled and enabled. -/
def Obligations.CacheFillsAndEnable : Prop :=
  (∀ (s : State) (l : Nat) (x : Miss), s.dev.up = true → lineOf l = l → s.dev.missOf l = some x → s.dev.groupDown l = false → x.waiters = [] →
    x.later = [] → s.dev.mdc.waiting = [] → s.dev.mdc.maint = none → s.dev.poisoned l 128 = false →
    (∀ y ∈ s.dev.mdc.lines, Dev.setOf y.addr ≠ Dev.setOf l) →
    MakesBuf (.cacheFillDone l false) s fun b u => b = s.buf ∧ u.missOf l = none ∧ u.mech = s.dev.mech ∧
      ∃ y, u.mdc.lines = y :: s.dev.mdc.lines ∧ y = ⟨l, y.way, s.buf.readBytes l 128, false, false, x.prefetch⟩) ∧
  (∀ (s : State) (l : Nat) (p : Bool), s.dev.missOf (lineOf l) = none → MakesBuf (.cacheFillDone l p) s fun b u => b = s.buf ∧ u = s.dev) ∧
  (∀ (s : State) (x : Maint), s.dev.mdc.maint = some x → x.deferred = [] → Makes .maintDone s fun u => u.mdc.maint = none ∧
    u.get Reg.MDC_MAINT_STAT_RESULT = 2 ∧ (x.op = 5 → u.get Reg.MDC_STAT_STALE_RISK = 0) ∧ u.mdc.lines = s.dev.mdc.lines ∧ u.mech = s.dev.mech ∧
    KeepsRegs (if x.op = 5 then [Reg.MDC_MAINT_STAT_RESULT, Reg.MDC_STAT_STALE_RISK] else [Reg.MDC_MAINT_STAT_RESULT]) s.dev u) ∧
  (∀ s : State, s.dev.up = true → s.dev.inReset 19 = false →
    (s.dev.get Reg.MDC_CTL_EN = 1 → Makes .mdcDisable s fun u => u.get Reg.MDC_CTL_EN = 0 ∧ u.mdc.lines = s.dev.mdc.lines ∧
      (s.dev.mdc.misses = [] → u.get Reg.MDC_STAT_ENABLED = 0) ∧ u.mech = s.dev.mech ∧
      u.mdc.disabledValid = s.dev.mdc.lines.any (fun x => !x.lock)) ∧
    (s.dev.get Reg.MDC_CTL_EN = 0 → Makes .mdcEnable s fun u => u.get Reg.MDC_CTL_EN = 1 ∧ u.get Reg.MDC_STAT_ENABLED = 1 ∧
      (s.dev.mdc.disabledValid = true → u.get Reg.MDC_STAT_STALE_RISK = 1) ∧
      KeepsRegs [Reg.MDC_CTL_EN, Reg.MDC_STAT_ENABLED, Reg.MDC_STAT_STALE_RISK] s.dev u ∧ { u with regs := s.dev.regs } = s.dev)) ∧
  (∀ (s : State) (m : Mech) (n : LoopId), s.dev.live m →
    (s.dev.get (Reg.SRV_LSTAT_SWITCH_PENDING m n) = 0 ∨ ((s.dev.mx m).srv.loops[n.val]).shadow.isSome = true →
      ActsOn m (.bankPrefetchDone m n) s fun u => u = s.dev) ∧
    (∀ x : Line, s.dev.get (Reg.SRV_LSTAT_SWITCH_PENDING m n) = 1 → ((s.dev.mx m).srv.loops[n.val]).shadow = none → s.dev.inReset 19 = false →
      s.dev.findLine (lineOf (Dev.bankAddr m n (s.dev.get (Reg.SRV_LSTAT_PEND_BANK m n)))) = some x → x.lock = true →
      s.dev.missOf (lineOf (Dev.bankAddr m n (s.dev.get (Reg.SRV_LSTAT_PEND_BANK m n)))) = none →
      ActsOn m (.bankPrefetchDone m n) s fun u => KeepsOthers m s.dev u ∧ Counts Reg.MDC_HIT_HITS s.dev u ∧
        ∃ ws, ((u.mx m).srv.loops[n.val]).shadow = some (s.dev.get (Reg.SRV_LSTAT_PEND_BANK m n), ws) ∧
          ∀ i : Nat, i < ws.length → ws[i]? = some (byteField ((List.range 32).map fun j =>
            x.data.getD ((Dev.bankAddr m n (s.dev.get (Reg.SRV_LSTAT_PEND_BANK m n)) + j) % 128) 0) (4 * i) 4)))

/-- The maintenance engine, on one line by its address: the six operations, and a GO while one runs. -/
def Obligations.CacheMaintenance : Prop :=
  ∀ s : State, s.dev.up = true → s.dev.inReset 19 = false →
    (s.dev.get Reg.MDC_MAINT_STAT_RESULT = 1 →
      ∀ c ∈ [Instr.maintZero, .maintClean, .maintInvalidate, .maintCleanInv, .maintLockLoad, .maintInvAll],
        MakesBuf c s fun b u => b = s.buf ∧ u = s.dev.vlogAdd 0x14 0x0B01 0) ∧
    (∀ x : Line, s.dev.get Reg.MDC_MAINT_STAT_RESULT ≠ 1 → s.dev.get Reg.MDC_MAINT_CMD_RANGE = 0 → s.dev.findLine s.dev.maintAddr = some x →
      x.lock = false → s.dev.missOf s.dev.maintAddr = none →
      (MakesBuf .maintZero s fun b u => b = s.buf ∧ u.get Reg.MDC_MAINT_STAT_RESULT = 1 ∧ u.get Reg.MDC_MAINT_DONE_DONE = 1 ∧
        u.get Reg.MDC_MAINT_SKIP_SKIPPED = 0 ∧ ∃ y, u.findLine s.dev.maintAddr = some y ∧ y.data = List.replicate 128 0 ∧ y.dirty = true) ∧
      (x.dirty = true → MakesBuf .maintClean s fun b u => b = s.buf.writeBytes s.dev.maintAddr x.data ∧ u.get Reg.MDC_MAINT_DONE_DONE = 1 ∧
        ∃ y, u.findLine s.dev.maintAddr = some y ∧ y.data = x.data ∧ y.dirty = false) ∧
      (MakesBuf .maintInvalidate s fun b u => b = s.buf ∧ u.findLine s.dev.maintAddr = none ∧ u.get Reg.MDC_MAINT_DONE_DONE = 1 ∧
        (x.dirty = true → Counts Reg.MDC_DISCARD_LINES s.dev u)) ∧
      (x.dirty = true → MakesBuf .maintCleanInv s fun b u => b = s.buf.writeBytes s.dev.maintAddr x.data ∧ u.findLine s.dev.maintAddr = none ∧
        u.get Reg.MDC_MAINT_DONE_DONE = 1)) ∧
    (∀ w : Nat, s.dev.get Reg.MDC_MAINT_STAT_RESULT ≠ 1 → s.dev.get Reg.MDC_MAINT_CMD_RANGE = 0 → s.dev.findLine s.dev.maintAddr = none →
      s.dev.missOf s.dev.maintAddr = none → s.dev.groupDown s.dev.maintAddr = false → s.dev.poisoned s.dev.maintAddr 128 = false →
      s.dev.lockPos s.dev.maintAddr = some w → MakesBuf .maintLockLoad s fun b u => b = s.buf ∧ u.get Reg.MDC_MAINT_DONE_DONE = 1 ∧
        u.mdc.lines = ⟨s.dev.maintAddr, w, s.buf.readBytes s.dev.maintAddr 128, false, true, false⟩ :: s.dev.mdc.lines) ∧
    (s.dev.get Reg.MDC_MAINT_STAT_RESULT ≠ 1 → s.dev.mdc.misses = [] → (∀ x ∈ s.dev.mdc.lines, x.lock = false) →
      MakesBuf .maintInvAll s fun b u => b = s.buf ∧ u.mdc.lines = [] ∧ u.get Reg.MDC_MAINT_STAT_RESULT = 1 ∧ u.mech = s.dev.mech)

/-! ### BAR0, BAR2, configuration space and boundary scan -/

/-- Register accesses: to a partition IN_RESET, of wrong alignment, where no register is, and the access codes on registers of Ox;
`d` is the device as the access through the port has woken it. -/
def Obligations.RegisterAccesses : Prop :=
  ∀ (s : State) (p : Port) (off : Nat) (d : Dev), s.dev.barOpen p = true → off < 0x8000000 → d = s.dev.wakePort p →
    (∀ n : Part, off % 4 = 0 → s.dev.downPart (some p) off = some n →
      Gives (.registerRead p off) s ((s.dev.vlogAdd 0x14 0x0E02 1 [(0, 4, off), (4, 1, n.val)]).emit (.regRead p off 0xFFFFFFFF)) ∧
      ∀ w : Word, MakesBuf (.registerWrite p off w) s fun b u => b = s.buf ∧
        u = s.dev.vlogAdd 0x14 0x0E02 0 [(0, 4, off), (4, 1, n.val), (5, 1, 1)]) ∧
    (off % 4 ≠ 0 → (Makes (.registerRead p off) s fun u => u.out.head? = some (Out.ur p) ∧ u.regs = s.dev.regs ∧ u.mech = s.dev.mech) ∧
      ∀ w : Word, MakesBuf (.registerWrite p off w) s fun b u => b = s.buf ∧ u.out.head? = some (Out.ur p) ∧ u.regs = s.dev.regs ∧
        u.mech = s.dev.mech) ∧
    (0x1800000 ≤ off → off % 4 = 0 → Sparse.lookup d.latches off = none →
      (Makes (.registerRead p off) s fun u => u.out.head? = some (Out.regRead p off 0) ∧ u.regs = d.regs ∧ u.mech = d.mech) ∧
      ∀ w : Word, ActsOnQueues (.registerWrite p off w) s fun b u => b = s.buf ∧ u = d.vlogAdd 0x14 0x0E01 0 [(0, 4, off)]) ∧
    (Sparse.lookup d.latches 0x10000 = none → Makes (.registerRead p 0x10000) s fun u =>
      u.out.head? = some (Out.regRead p 0x10000 (d.now % 2 ^ 32)) ∧ Sparse.lookup u.latches 0x10004 = some (d.now / 2 ^ 32 % 2 ^ 32) ∧
      u.regs = d.regs) ∧
    (∀ v : Nat, Sparse.lookup d.latches 0x10004 = some v → Makes (.registerRead p 0x10004) s fun u =>
      u.out.head? = some (Out.regRead p 0x10004 v) ∧ Sparse.lookup u.latches 0x10004 = none ∧ u.regs = d.regs) ∧
    (Sparse.lookup d.latches Reg.OXA_SMB_STAT_PEC_ERR.off = none → Makes (.registerRead p Reg.OXA_SMB_STAT_PEC_ERR.off) s fun u =>
      u.out.head? = some (Out.regRead p Reg.OXA_SMB_STAT_PEC_ERR.off
        (d.get Reg.OXA_SMB_STAT_PEC_ERR + 65536 * d.get Reg.OXA_SMB_STAT_BAD_CMD)) ∧
      u.get Reg.OXA_SMB_STAT_PEC_ERR = 0 ∧ u.get Reg.OXA_SMB_STAT_BAD_CMD = 0 ∧
      KeepsRegs [Reg.OXA_SMB_STAT_PEC_ERR, Reg.OXA_SMB_STAT_BAD_CMD] d u) ∧
    (∀ w : Word, (ActsOnQueues (.registerWrite p Reg.OXA_PCTL_DEEP_EN.off w) s fun b u => b = s.buf ∧
        u.get Reg.OXA_PCTL_DEEP_EN = bits w.toNat 0 1 ∧ u.get Reg.OXA_PCTL_DWELL = bits w.toNat 8 8 ∧
        KeepsRegs [Reg.OXA_PCTL_DEEP_EN, Reg.OXA_PCTL_DWELL] d u ∧ { u with regs := d.regs } = d) ∧
      (ActsOnQueues (.registerWrite p Reg.OXA_WAKE_SRC_SRC.off w) s fun b u => b = s.buf ∧
        (∀ k : Nat, (u.get Reg.OXA_WAKE_SRC_SRC).testBit k = ((d.get Reg.OXA_WAKE_SRC_SRC).testBit k && !(decide (k < 6) && w.toNat.testBit k))) ∧
        KeepsRegs [Reg.OXA_WAKE_SRC_SRC] d u ∧ { u with regs := d.regs } = d))

/-- A bad access, BAR2, configuration requests, L1 substates and boundary scan. -/
def Obligations.PortAccesses : Prop :=
  (∀ (s : State) (p : Port) (off : Word) (fb lb : BitVec 4) (wr : Bool), s.dev.barOpen p = true →
    (off.toNat % 4 ≠ 0 ∨ fb ≠ 15 ∨ lb ≠ 0 → Makes (.bar0BadAccess p off fb lb wr) s fun u => u.out.head? = some (Out.ur p) ∧
      u.vlog = (s.dev.vlogAdd 0x14 0x0E03 1 [(0, 4, off.toNat), (4, 1, fb.toNat), (5, 1, lb.toNat), (6, 1, b2n wr)]).vlog ∧
      u.regs = s.dev.regs ∧ u.mech = s.dev.mech ∧ u.slots = s.dev.slots) ∧
    (off.toNat % 4 = 0 → fb = 15 → lb = 0 → Gives (.bar0BadAccess p off fb lb wr) s s.dev)) ∧
  (∀ (s : State) (a : Nat) (bs : List Byte), s.dev.up = true → a < 2 ^ 37 → s.dev.groupDown a = false →
    (s.dev.get Reg.BUF_CTL_BAR2_WR_EN = 1 → a + bs.length ≤ s.dev.usable → MakesBuf (.bar2Access a (.write bs)) s fun b u =>
      (b = if Config.bar2Implemented then s.buf.writeBytes a bs else s.buf) ∧ u.slots = s.dev.slots ∧ u.mech = s.dev.mech) ∧
    (s.dev.get Reg.BUF_CTL_BAR2_WR_EN = 0 → MakesBuf (.bar2Access a (.write bs)) s fun b u => b = s.buf ∧
      u = if Config.bar2Implemented then s.dev.vlogAdd 0x14 0x0903 0 else s.dev) ∧
    (s.dev.poisoned a 1 = false → a < s.dev.usable → MakesBuf (.bar2Access a (.read 1)) s fun b u => b = s.buf ∧ u.mech = s.dev.mech ∧
      u.out = if Config.bar2Implemented then Out.bar2Read [s.buf.read a] :: s.dev.out else s.dev.out)) ∧
  (∀ (s : State) (p : Port), s.dev.ox.step = .up → s.dev.inReset (portPart p) = false →
    ((s.dev.px p).crs = true → ∀ r : CfgReq, Gives (.configurationRequest p r) s (s.dev.emit (.cfgReply p none))) ∧
    ((s.dev.px p).crs = false →
      Gives (.configurationRequest p (.read 0)) s (s.dev.emit (.cfgReply p (some (Config.vendorId.toNat + 65536 * 0x1616)))) ∧
      Gives (.configurationRequest p (.read 8)) s (s.dev.emit (.cfgReply p (some 0x018000B0))) ∧
      (Makes (.configurationRequest p .d3hot) s fun u => (u.px p).d3 = true ∧ u.regs = s.dev.regs ∧ u.mech = s.dev.mech) ∧
      (Makes (.configurationRequest p .d0) s fun u => (u.px p).d3 = false ∧ u.mech = s.dev.mech))) ∧
  (∀ (s : State) (p : Port) (st : LinkPm),
    ((s.dev.px p).linkUp = true → Makes (.l1SubstateEntry p st) s fun u => (u.px p).linkPm = st ∧ u.regs = s.dev.regs ∧ u.mech = s.dev.mech ∧
      u.slots = s.dev.slots) ∧
    ((s.dev.px p).linkUp = false → Gives (.l1SubstateEntry p st) s s.dev)) ∧
  (∀ (s : State) (i : JtagInstr) (w : Word), s.dev.ox.step ≠ .off → Makes (.boundaryScanInstruction i w) s fun u => u.jtag = i ∧
    u.regs = s.dev.regs ∧ u.mech = s.dev.mech ∧
    u.boundary = (if i = .bypass ∨ i = .idcode ∨ i = .highz then s.dev.boundary else w.toNat) ∧
    u.out = Out.jtag i (if i = .idcode then some (0x10000000 + 0x1616 * 4096 + Config.jedecId.toNat * 2 + 1) else none) :: s.dev.out)
end

