-- ==== Sys2Proof/Laws/Sparse.lean ====
section
/-! SUPPORT. The laws of the sparse stores: what a read after a write gives, and that every operation keeps the canonical form of
a memory. -/
namespace Sys2Proof.Machine

theorem Sparse.lookup_erase {α : Type} (l : List (Nat × α)) (k j : Nat) :
    Sparse.lookup (Sparse.erase l k) j = if k = j then none else Sparse.lookup l j := by
  induction l with
  | nil => simp [Sparse.erase, Sparse.lookup]
  | cons e t ih =>
    obtain ⟨a, v⟩ := e
    simp only [Sparse.erase]
    split
    · rename_i h; subst h; rw [ih]; simp only [Sparse.lookup]; split <;> rfl
    · rename_i h
      simp only [Sparse.lookup, ih]
      split
      · rename_i h2; subst h2; rw [if_neg (fun h3 => h h3.symm)]
      · rfl

theorem Sparse.lookup_insert {α : Type} (l : List (Nat × α)) (k j : Nat) (v : α) (h : Sparse.lookup l k = none) :
    Sparse.lookup (Sparse.insert l k v) j = if k = j then some v else Sparse.lookup l j := by
  induction l with
  | nil => simp [Sparse.insert, Sparse.lookup]
  | cons e t ih =>
    obtain ⟨a, w⟩ := e
    have ha : ¬ a = k := fun e => by simp [Sparse.lookup, e] at h
    have ht : Sparse.lookup t k = none := by simpa [Sparse.lookup, ha] using h
    simp only [Sparse.insert]
    split
    · simp only [Sparse.lookup]
    · simp only [Sparse.lookup, ih ht]
      split
      · rename_i h2; subst h2; rw [if_neg (fun h3 => ha h3.symm)]
      · rfl

theorem Sparse.lookup_put {α : Type} [DecidableEq α] (d : α) (l : List (Nat × α)) (k j : Nat) (v : α) :
    Sparse.lookup (Sparse.put d l k v) j = if k = j then (if v = d then none else some v) else Sparse.lookup l j := by
  unfold Sparse.put
  split
  · rw [Sparse.lookup_erase]
  · rw [Sparse.lookup_insert _ _ _ _ (by simp [Sparse.lookup_erase]), Sparse.lookup_erase]; split <;> rfl

/-- A read after a write. -/
theorem Sparse.get_put {α : Type} [DecidableEq α] (d : α) (l : List (Nat × α)) (k j : Nat) (v : α) :
    Sparse.get d (Sparse.put d l k v) j = if k = j then v else Sparse.get d l j := by
  unfold Sparse.get
  rw [Sparse.lookup_put]
  split
  · split
    · rename_i h; simp [h]
    · rfl
  · rfl

/-- A write leaves every other key alone, whatever an unlisted key reads as. -/
theorem Sparse.get_put_ne {α : Type} [DecidableEq α] (d d' : α) (l : List (Nat × α)) {k j : Nat} (v : α) (h : k ≠ j) :
    Sparse.get d' (Sparse.put d l k v) j = Sparse.get d' l j := by
  simp [Sparse.get, Sparse.lookup_put, h]

/-- Every key of a sorted list's tail is above its head. -/
theorem Sparse.sorted_cons {α : Type} (a : Nat) (v : α) (t : List (Nat × α)) :
    Sparse.sorted ((a, v) :: t) = true ↔ (∀ c ∈ t, a < c.1) ∧ Sparse.sorted t = true := by
  induction t generalizing a v with
  | nil => simp [Sparse.sorted]
  | cons e t ih =>
    obtain ⟨b, w⟩ := e
    simp only [Sparse.sorted, Bool.and_eq_true, decide_eq_true_eq, List.mem_cons, forall_eq_or_imp]
    constructor
    · rintro ⟨h, hs⟩
      exact ⟨⟨h, fun c hc => Nat.lt_trans h ((ih b w).1 hs |>.1 c hc)⟩, hs⟩
    · rintro ⟨⟨h, _⟩, hs⟩
      exact ⟨h, hs⟩

/-- A memory's canonical form, said of its pairs. -/
theorem Memory.wf_iff (m : Memory) : m.wf = true ↔ m.Pairwise (fun a b => a.1 < b.1) ∧ ∀ c ∈ m, c.2 ≠ 0 := by
  unfold Memory.wf
  rw [Bool.and_eq_true, List.all_eq_true]
  refine and_congr ?_ (by simp)
  induction m with
  | nil => simp [Sparse.sorted]
  | cons e t ih =>
    obtain ⟨a, v⟩ := e
    rw [Sparse.sorted_cons, List.pairwise_cons, ih]

theorem Sparse.mem_erase {α : Type} {l : List (Nat × α)} {k : Nat} {c : Nat × α} (h : c ∈ Sparse.erase l k) : c ∈ l ∧ c.1 ≠ k := by
  induction l with
  | nil => simp [Sparse.erase] at h
  | cons e t ih =>
    obtain ⟨a, v⟩ := e
    simp only [Sparse.erase] at h
    split at h
    · exact ⟨List.mem_cons_of_mem _ (ih h).1, (ih h).2⟩
    · rename_i hne
      rcases List.mem_cons.1 h with h | h
      · subst h; exact ⟨List.mem_cons_self, hne⟩
      · exact ⟨List.mem_cons_of_mem _ (ih h).1, (ih h).2⟩

theorem Sparse.pairwise_erase {α : Type} {l : List (Nat × α)} (k : Nat) (h : l.Pairwise (fun a b => a.1 < b.1)) :
    (Sparse.erase l k).Pairwise (fun a b => a.1 < b.1) := by
  induction l with
  | nil => exact h
  | cons e t ih =>
    obtain ⟨a, v⟩ := e
    rw [List.pairwise_cons] at h
    simp only [Sparse.erase]
    split
    · exact ih h.2
    · exact List.pairwise_cons.2 ⟨fun c hc => h.1 c (Sparse.mem_erase hc).1, ih h.2⟩

theorem Sparse.mem_insert {α : Type} {l : List (Nat × α)} {k : Nat} {v : α} {c : Nat × α} (h : c ∈ Sparse.insert l k v) :
    c = (k, v) ∨ c ∈ l := by
  induction l with
  | nil => simpa [Sparse.insert] using h
  | cons e t ih =>
    obtain ⟨a, w⟩ := e
    simp only [Sparse.insert] at h
    split at h
    · rcases List.mem_cons.1 h with h | h
      · exact .inl h
      · exact .inr h
    · rcases List.mem_cons.1 h with h | h
      · exact .inr (h ▸ List.mem_cons_self)
      · rcases ih h with h | h
        · exact .inl h
        · exact .inr (List.mem_cons_of_mem _ h)

theorem Sparse.pairwise_insert {α : Type} {l : List (Nat × α)} {k : Nat} (v : α) (h : l.Pairwise (fun a b => a.1 < b.1))
    (hk : ∀ c ∈ l, c.1 ≠ k) : (Sparse.insert l k v).Pairwise (fun a b => a.1 < b.1) := by
  induction l with
  | nil => simp [Sparse.insert]
  | cons e t ih =>
    obtain ⟨a, w⟩ := e
    rw [List.pairwise_cons] at h
    simp only [Sparse.insert]
    split
    · rename_i hlt
      refine List.pairwise_cons.2 ⟨fun c hc => ?_, List.pairwise_cons.2 h⟩
      rcases List.mem_cons.1 hc with hc | hc
      · subst hc; exact hlt
      · exact Nat.lt_trans hlt (h.1 c hc)
    · rename_i hlt
      refine List.pairwise_cons.2 ⟨fun c hc => ?_, ih h.2 (fun c hc => hk c (List.mem_cons_of_mem _ hc))⟩
      rcases Sparse.mem_insert hc with hc | hc
      · subst hc
        exact Nat.lt_of_le_of_ne (Nat.le_of_not_lt hlt) (hk _ List.mem_cons_self)
      · exact h.1 c hc

/-- Writing one byte keeps the canonical form. -/
theorem Memory.write_wf {m : Memory} (a : Nat) (b : Byte) (h : m.wf = true) : (m.write a b).wf = true := by
  rw [Memory.wf_iff] at h ⊢
  have hp := Sparse.pairwise_erase a h.1
  have hz : ∀ c ∈ Sparse.erase m a, c.2 ≠ 0 := fun c hc => h.2 c (Sparse.mem_erase hc).1
  unfold Memory.write Sparse.put
  split
  · exact ⟨hp, hz⟩
  · rename_i hb
    refine ⟨Sparse.pairwise_insert b hp (fun c hc => (Sparse.mem_erase hc).2), fun c hc => ?_⟩
    rcases Sparse.mem_insert hc with hc | hc
    · subst hc; exact hb
    · exact hz c hc

theorem Memory.mem_cells {l : List Byte} {a : Nat} {c : Host.Cell} (h : c ∈ Memory.cells a l) :
    a ≤ c.1 ∧ c.1 < a + l.length ∧ c.2 ≠ 0 := by
  induction l generalizing a with
  | nil => simp [Memory.cells] at h
  | cons b t ih =>
    simp only [Memory.cells] at h
    split at h
    · have := ih h; simp only [List.length_cons]; exact ⟨by omega, by omega, this.2.2⟩
    · rename_i hb
      rcases List.mem_cons.1 h with h | h
      · subst h; simp only [List.length_cons]; exact ⟨by omega, by omega, hb⟩
      · have := ih h; simp only [List.length_cons]; exact ⟨by omega, by omega, this.2.2⟩

theorem Memory.pairwise_cells (l : List Byte) (a : Nat) : (Memory.cells a l).Pairwise (fun a b => a.1 < b.1) := by
  induction l generalizing a with
  | nil => simp [Memory.cells]
  | cons b t ih =>
    simp only [Memory.cells]
    split
    · exact ih _
    · exact List.pairwise_cons.2 ⟨fun c hc => by have := Memory.mem_cells hc; simp only; omega, ih _⟩

/-- Writing a list of bytes keeps the canonical form. -/
theorem Memory.writeBytes_wf {m : Memory} (a : Nat) (l : List Byte) (h : m.wf = true) : (m.writeBytes a l).wf = true := by
  rw [Memory.wf_iff] at h ⊢
  unfold Memory.writeBytes
  refine ⟨?_, fun c hc => ?_⟩
  · rw [List.pairwise_append, List.pairwise_append]
    refine ⟨⟨h.1.filter _, Memory.pairwise_cells l a, fun x hx y hy => ?_⟩, h.1.filter _, fun x hx y hy => ?_⟩
    · have := Memory.mem_cells hy
      simp only [List.mem_filter, decide_eq_true_eq] at hx
      omega
    · simp only [List.mem_append, List.mem_filter, decide_eq_true_eq] at hx hy
      rcases hx with hx | hx
      · omega
      · have := Memory.mem_cells hx; omega
  · simp only [List.mem_append, List.mem_filter] at hc
    rcases hc with (hc | hc) | hc
    · exact h.2 c hc.1
    · exact (Memory.mem_cells hc).2.2
    · exact h.2 c hc.1

theorem Memory.nil_wf : Memory.wf [] = true := rfl

/-- Keeping some of the cells keeps the canonical form. -/
theorem Memory.filter_wf {m : Memory} (p : Host.Cell → Bool) (h : m.wf = true) : Memory.wf (m.filter p) = true := by
  rw [Memory.wf_iff] at h ⊢
  exact ⟨h.1.filter _, fun c hc => h.2 c (List.mem_filter.1 hc).1⟩

theorem Sparse.lookup_append {α : Type} (l r : List (Nat × α)) (k : Nat) :
    Sparse.lookup (l ++ r) k = (Sparse.lookup l k).or (Sparse.lookup r k) := by
  induction l with
  | nil => simp [Sparse.lookup]
  | cons e t ih =>
    obtain ⟨a, v⟩ := e
    simp only [List.cons_append, Sparse.lookup, ih]
    split <;> simp

theorem Sparse.lookup_filter {α : Type} (l : List (Nat × α)) (p : Nat → Bool) (k : Nat) :
    Sparse.lookup (l.filter (fun c => p c.1)) k = if p k then Sparse.lookup l k else none := by
  induction l with
  | nil => simp [Sparse.lookup]
  | cons e t ih =>
    obtain ⟨a, v⟩ := e
    by_cases hp : p a
    · simp only [List.filter_cons, hp, if_true, Sparse.lookup, ih]
      by_cases h : a = k
      · subst h; simp [hp]
      · simp [h]
    · rw [List.filter_cons, if_neg hp, ih]
      by_cases h : a = k
      · subst h; simp [hp]
      · simp [h, Sparse.lookup]

theorem Sparse.mem_of_lookup {α : Type} {l : List (Nat × α)} {k : Nat} {v : α} (h : Sparse.lookup l k = some v) : (k, v) ∈ l := by
  induction l with
  | nil => simp [Sparse.lookup] at h
  | cons e t ih =>
    obtain ⟨x, w⟩ := e
    simp only [Sparse.lookup] at h
    split at h
    · rename_i hx; cases h; subst hx; exact List.mem_cons_self
    · exact List.mem_cons_of_mem _ (ih h)

theorem Memory.lookup_cells (l : List Byte) (a k : Nat) :
    (Sparse.lookup (Memory.cells a l) k).getD 0 = if a ≤ k ∧ k < a + l.length then l.getD (k - a) 0 else 0 := by
  induction l generalizing a with
  | nil => simp [Memory.cells, Sparse.lookup]
  | cons b t ih =>
    have key : (Sparse.lookup (Memory.cells a (b :: t)) k).getD 0 = if a = k then b else (Sparse.lookup (Memory.cells (a + 1) t) k).getD 0 := by
      simp only [Memory.cells]
      split
      · rename_i hb
        subst hb
        split
        · rename_i h
          subst h
          have : Sparse.lookup (Memory.cells (a + 1) t) a = none := by
            rw [← Option.not_isSome_iff_eq_none]
            intro h
            obtain ⟨v, hv⟩ := Option.isSome_iff_exists.1 h
            have := Memory.mem_cells (Sparse.mem_of_lookup hv)
            omega
          simp [this]
        · rfl
      · simp only [Sparse.lookup]; split <;> rfl
    rw [key, ih]
    by_cases h : a = k
    · subst h; simp
    · rw [if_neg h]
      by_cases h2 : a + 1 ≤ k ∧ k < a + 1 + t.length
      · rw [if_pos h2, if_pos (by simp only [List.length_cons]; omega)]
        obtain ⟨j, rfl⟩ : ∃ j, k = a + 1 + j := ⟨k - (a + 1), by omega⟩
        rw [show a + 1 + j - (a + 1) = j by omega, show a + 1 + j - a = j + 1 by omega]
        simp
      · rw [if_neg h2, if_neg (by simp only [List.length_cons]; omega)]

/-- What a byte reads as after bytes have been written. -/
theorem Memory.read_writeBytes (m : Memory) (a k : Nat) (l : List Byte) :
    (m.writeBytes a l).read k = if a ≤ k ∧ k < a + l.length then l.getD (k - a) 0 else m.read k := by
  unfold Memory.writeBytes Memory.read Sparse.get
  have h1 := Sparse.lookup_filter m (fun x => decide (x < a)) k
  have h2 := Sparse.lookup_filter m (fun x => decide (a + l.length ≤ x)) k
  rw [Sparse.lookup_append, Sparse.lookup_append, h1, h2]
  have hc := Memory.lookup_cells l a k
  by_cases h : a ≤ k ∧ k < a + l.length
  · rw [if_pos h] at hc ⊢
    rw [← hc]
    have : ¬ k < a := by omega
    have : ¬ a + l.length ≤ k := by omega
    simp [*]
  · rw [if_neg h] at hc ⊢
    have hnone : Sparse.lookup (Memory.cells a l) k = none := by
      cases hl : Sparse.lookup (Memory.cells a l) k with
      | none => rfl
      | some v =>
        have := Memory.mem_cells (Sparse.mem_of_lookup hl)
        exact absurd ⟨this.1, this.2.1⟩ h
    rw [hnone]
    by_cases hlt : k < a
    · have : ¬ a + l.length ≤ k := by omega
      simp [*]
    · have : a + l.length ≤ k := by omega
      simp [*]

end Sys2Proof.Machine
end

