-- ==== Sys2Proof/Laws/State.lean ====
section
/-! SUPPORT. For each update of the device: what every field reads after it. The updates of one mechanism's parts and the register
writes by bit, by Bool and by counter are first brought to their normal forms, `modMech` and `set`. -/
namespace Sys2Proof.Machine
namespace Dev

variable (d : Dev)

/-! ### Normal forms -/
@[simp] theorem modMch_eq (m : Mech) (f) : d.modMch m f = d.modMech m fun x => { x with mch := f x.mch } := rfl
@[simp] theorem modSrv_eq (m : Mech) (f) : d.modSrv m f = d.modMech m fun x => { x with srv := f x.srv } := rfl
@[simp] theorem modOpt_eq (m : Mech) (f) : d.modOpt m f = d.modMech m fun x => { x with opt := f x.opt } := rfl
@[simp] theorem modSpn_eq (m : Mech) (f) : d.modSpn m f = d.modMech m fun x => { x with spn := f x.spn } := rfl
@[simp] theorem modSld_eq (m : Mech) (f) : d.modSld m f = d.modMech m fun x => { x with sld := f x.sld } := rfl
@[simp] theorem modHlk_eq (m : Mech) (f) : d.modHlk m f = d.modMech m fun x => { x with hlk := f x.hlk } := rfl
@[simp] theorem modGate_eq (m : Mech) (f) : d.modGate m f = d.modMech m fun x => { x with gate := f x.gate } := rfl
@[simp] theorem modPins_eq (m : Mech) (f) : d.modPins m f = d.modMech m fun x => { x with pins := f x.pins } := rfl
@[simp] theorem modFsq_eq (m : Mech) (f) : d.modFsq m f = d.modMech m fun x => { x with fsq := f x.fsq } := rfl
@[simp] theorem modWch_eq (m : Mech) (f) : d.modWch m f = d.modMech m fun x => { x with wch := f x.wch } := rfl
@[simp] theorem modRch_eq (m : Mech) (f) : d.modRch m f = d.modMech m fun x => { x with rch := f x.rch } := rfl
@[simp] theorem modClk_eq (m : Mech) (f) : d.modClk m f = d.modMech m fun x => { x with clk := f x.clk } := rfl
@[simp] theorem modCore_eq (f : CoreClk → CoreClk) : d.modCore f = d.modOx fun o => { o with clk := f o.clk } := rfl
@[simp] theorem modGoat_eq (m : Mech) (f) : d.modGoat m f = d.modMech m fun x => { x with goat := f x.goat } := rfl
@[simp] theorem setB_eq (f : Field) (b : Bool) : d.setB f b = d.set f (b2n b) := rfl
@[simp] theorem setS_eq (f : Field) (v : Int) : d.setS f v = d.set f (ofSigned f.width v) := rfl
@[simp] theorem count_eq (f : Field) (n : Nat) : d.count f n = d.set f (min (2 ^ f.width - 1) (d.get f + n)) := rfl
@[simp] theorem countWrap_eq (f : Field) (n : Nat) : d.countWrap f n = d.set f (d.get f + n) := rfl
@[simp] theorem setBit_eq (f : Field) (i : Nat) (b : Bool) : d.setBit f i b = d.set f (putb (d.get f) i b) := rfl
@[simp] theorem setAll_nil : d.setAll [] = d := rfl
@[simp] theorem setAll_cons (f : Field) (v : Nat) (t : List (Field × Nat)) : d.setAll ((f, v) :: t) = (d.set f v).setAll t := rfl
@[simp] theorem fireEvt_eq (v : Nat) : d.fireEvt v = d.fire d.evtPort v := rfl
@[simp] theorem modDisc_eq (i : Nat) (f : Disc → Disc) :
    d.modDisc i f = d.modArc fun a => { a with discs := a.discs.map (fun x => if x.ident = i then f x else x) } := rfl

/-! ### set -/
@[simp] theorem set_latches (f : Field) (v : Nat) : (d.set f v).latches = d.latches := rfl
@[simp] theorem set_free (f : Field) (v : Nat) : (d.set f v).free = d.free := rfl
@[simp] theorem set_out (f : Field) (v : Nat) : (d.set f v).out = d.out := rfl
@[simp] theorem set_ox (f : Field) (v : Nat) : (d.set f v).ox = d.ox := rfl
@[simp] theorem set_vlog (f : Field) (v : Nat) : (d.set f v).vlog = d.vlog := rfl
@[simp] theorem set_elog (f : Field) (v : Nat) : (d.set f v).elog = d.elog := rfl
@[simp] theorem set_health (f : Field) (v : Nat) : (d.set f v).health = d.health := rfl
@[simp] theorem set_pest (f : Field) (v : Nat) : (d.set f v).pest = d.pest := rfl
@[simp] theorem set_feats (f : Field) (v : Nat) : (d.set f v).feats = d.feats := rfl
@[simp] theorem set_parts (f : Field) (v : Nat) : (d.set f v).parts = d.parts := rfl
@[simp] theorem set_ports (f : Field) (v : Nat) : (d.set f v).ports = d.ports := rfl
@[simp] theorem set_img (f : Field) (v : Nat) : (d.set f v).img = d.img := rfl
@[simp] theorem set_mech (f : Field) (v : Nat) : (d.set f v).mech = d.mech := rfl
@[simp] theorem set_slots (f : Field) (v : Nat) : (d.set f v).slots = d.slots := rfl
@[simp] theorem set_bufx (f : Field) (v : Nat) : (d.set f v).bufx = d.bufx := rfl
@[simp] theorem set_arc (f : Field) (v : Nat) : (d.set f v).arc = d.arc := rfl
@[simp] theorem set_dma (f : Field) (v : Nat) : (d.set f v).dma = d.dma := rfl
@[simp] theorem set_mdc (f : Field) (v : Nat) : (d.set f v).mdc = d.mdc := rfl
@[simp] theorem set_sec (f : Field) (v : Nat) : (d.set f v).sec = d.sec := rfl
@[simp] theorem set_fw (f : Field) (v : Nat) : (d.set f v).fw = d.fw := rfl
@[simp] theorem set_qe (f : Field) (v : Nat) : (d.set f v).qe = d.qe := rfl
@[simp] theorem set_jtag (f : Field) (v : Nat) : (d.set f v).jtag = d.jtag := rfl
@[simp] theorem set_boundary (f : Field) (v : Nat) : (d.set f v).boundary = d.boundary := rfl
@[simp] theorem set_regs (f : Field) (v : Nat) : (d.set f v).regs = Sparse.put f.reset d.regs f.key (v % 2 ^ f.width) := rfl

/-! ### modOx -/
@[simp] theorem modOx_regs (f : Ox → Ox) : (d.modOx f).regs = d.regs := rfl
@[simp] theorem modOx_latches (f : Ox → Ox) : (d.modOx f).latches = d.latches := rfl
@[simp] theorem modOx_free (f : Ox → Ox) : (d.modOx f).free = d.free := rfl
@[simp] theorem modOx_out (f : Ox → Ox) : (d.modOx f).out = d.out := rfl
@[simp] theorem modOx_vlog (f : Ox → Ox) : (d.modOx f).vlog = d.vlog := rfl
@[simp] theorem modOx_elog (f : Ox → Ox) : (d.modOx f).elog = d.elog := rfl
@[simp] theorem modOx_health (f : Ox → Ox) : (d.modOx f).health = d.health := rfl
@[simp] theorem modOx_pest (f : Ox → Ox) : (d.modOx f).pest = d.pest := rfl
@[simp] theorem modOx_feats (f : Ox → Ox) : (d.modOx f).feats = d.feats := rfl
@[simp] theorem modOx_parts (f : Ox → Ox) : (d.modOx f).parts = d.parts := rfl
@[simp] theorem modOx_ports (f : Ox → Ox) : (d.modOx f).ports = d.ports := rfl
@[simp] theorem modOx_img (f : Ox → Ox) : (d.modOx f).img = d.img := rfl
@[simp] theorem modOx_mech (f : Ox → Ox) : (d.modOx f).mech = d.mech := rfl
@[simp] theorem modOx_slots (f : Ox → Ox) : (d.modOx f).slots = d.slots := rfl
@[simp] theorem modOx_bufx (f : Ox → Ox) : (d.modOx f).bufx = d.bufx := rfl
@[simp] theorem modOx_arc (f : Ox → Ox) : (d.modOx f).arc = d.arc := rfl
@[simp] theorem modOx_dma (f : Ox → Ox) : (d.modOx f).dma = d.dma := rfl
@[simp] theorem modOx_mdc (f : Ox → Ox) : (d.modOx f).mdc = d.mdc := rfl
@[simp] theorem modOx_sec (f : Ox → Ox) : (d.modOx f).sec = d.sec := rfl
@[simp] theorem modOx_fw (f : Ox → Ox) : (d.modOx f).fw = d.fw := rfl
@[simp] theorem modOx_qe (f : Ox → Ox) : (d.modOx f).qe = d.qe := rfl
@[simp] theorem modOx_jtag (f : Ox → Ox) : (d.modOx f).jtag = d.jtag := rfl
@[simp] theorem modOx_boundary (f : Ox → Ox) : (d.modOx f).boundary = d.boundary := rfl
@[simp] theorem modOx_ox (f : Ox → Ox) : (d.modOx f).ox = f d.ox := rfl

/-! ### useFree -/
@[simp] theorem useFree_regs : (d.useFree).regs = d.regs := rfl
@[simp] theorem useFree_latches : (d.useFree).latches = d.latches := rfl
@[simp] theorem useFree_out : (d.useFree).out = d.out := rfl
@[simp] theorem useFree_ox : (d.useFree).ox = d.ox := rfl
@[simp] theorem useFree_vlog : (d.useFree).vlog = d.vlog := rfl
@[simp] theorem useFree_elog : (d.useFree).elog = d.elog := rfl
@[simp] theorem useFree_health : (d.useFree).health = d.health := rfl
@[simp] theorem useFree_pest : (d.useFree).pest = d.pest := rfl
@[simp] theorem useFree_feats : (d.useFree).feats = d.feats := rfl
@[simp] theorem useFree_parts : (d.useFree).parts = d.parts := rfl
@[simp] theorem useFree_ports : (d.useFree).ports = d.ports := rfl
@[simp] theorem useFree_img : (d.useFree).img = d.img := rfl
@[simp] theorem useFree_mech : (d.useFree).mech = d.mech := rfl
@[simp] theorem useFree_slots : (d.useFree).slots = d.slots := rfl
@[simp] theorem useFree_bufx : (d.useFree).bufx = d.bufx := rfl
@[simp] theorem useFree_arc : (d.useFree).arc = d.arc := rfl
@[simp] theorem useFree_dma : (d.useFree).dma = d.dma := rfl
@[simp] theorem useFree_mdc : (d.useFree).mdc = d.mdc := rfl
@[simp] theorem useFree_sec : (d.useFree).sec = d.sec := rfl
@[simp] theorem useFree_fw : (d.useFree).fw = d.fw := rfl
@[simp] theorem useFree_qe : (d.useFree).qe = d.qe := rfl
@[simp] theorem useFree_jtag : (d.useFree).jtag = d.jtag := rfl
@[simp] theorem useFree_boundary : (d.useFree).boundary = d.boundary := rfl
@[simp] theorem useFree_free : d.useFree.free = d.free + 1 := rfl

/-! ### emit -/
@[simp] theorem emit_regs (o : Out) : (d.emit o).regs = d.regs := rfl
@[simp] theorem emit_latches (o : Out) : (d.emit o).latches = d.latches := rfl
@[simp] theorem emit_free (o : Out) : (d.emit o).free = d.free := rfl
@[simp] theorem emit_ox (o : Out) : (d.emit o).ox = d.ox := rfl
@[simp] theorem emit_vlog (o : Out) : (d.emit o).vlog = d.vlog := rfl
@[simp] theorem emit_elog (o : Out) : (d.emit o).elog = d.elog := rfl
@[simp] theorem emit_health (o : Out) : (d.emit o).health = d.health := rfl
@[simp] theorem emit_pest (o : Out) : (d.emit o).pest = d.pest := rfl
@[simp] theorem emit_feats (o : Out) : (d.emit o).feats = d.feats := rfl
@[simp] theorem emit_parts (o : Out) : (d.emit o).parts = d.parts := rfl
@[simp] theorem emit_ports (o : Out) : (d.emit o).ports = d.ports := rfl
@[simp] theorem emit_img (o : Out) : (d.emit o).img = d.img := rfl
@[simp] theorem emit_mech (o : Out) : (d.emit o).mech = d.mech := rfl
@[simp] theorem emit_slots (o : Out) : (d.emit o).slots = d.slots := rfl
@[simp] theorem emit_bufx (o : Out) : (d.emit o).bufx = d.bufx := rfl
@[simp] theorem emit_arc (o : Out) : (d.emit o).arc = d.arc := rfl
@[simp] theorem emit_dma (o : Out) : (d.emit o).dma = d.dma := rfl
@[simp] theorem emit_mdc (o : Out) : (d.emit o).mdc = d.mdc := rfl
@[simp] theorem emit_sec (o : Out) : (d.emit o).sec = d.sec := rfl
@[simp] theorem emit_fw (o : Out) : (d.emit o).fw = d.fw := rfl
@[simp] theorem emit_qe (o : Out) : (d.emit o).qe = d.qe := rfl
@[simp] theorem emit_jtag (o : Out) : (d.emit o).jtag = d.jtag := rfl
@[simp] theorem emit_boundary (o : Out) : (d.emit o).boundary = d.boundary := rfl
@[simp] theorem emit_out (o : Out) : (d.emit o).out = o :: d.out := rfl

/-! ### modMech -/
@[simp] theorem modMech_regs (m : Mech) (f : MechX → MechX) : (d.modMech m f).regs = d.regs := rfl
@[simp] theorem modMech_latches (m : Mech) (f : MechX → MechX) : (d.modMech m f).latches = d.latches := rfl
@[simp] theorem modMech_free (m : Mech) (f : MechX → MechX) : (d.modMech m f).free = d.free := rfl
@[simp] theorem modMech_out (m : Mech) (f : MechX → MechX) : (d.modMech m f).out = d.out := rfl
@[simp] theorem modMech_ox (m : Mech) (f : MechX → MechX) : (d.modMech m f).ox = d.ox := rfl
@[simp] theorem modMech_vlog (m : Mech) (f : MechX → MechX) : (d.modMech m f).vlog = d.vlog := rfl
@[simp] theorem modMech_elog (m : Mech) (f : MechX → MechX) : (d.modMech m f).elog = d.elog := rfl
@[simp] theorem modMech_health (m : Mech) (f : MechX → MechX) : (d.modMech m f).health = d.health := rfl
@[simp] theorem modMech_pest (m : Mech) (f : MechX → MechX) : (d.modMech m f).pest = d.pest := rfl
@[simp] theorem modMech_feats (m : Mech) (f : MechX → MechX) : (d.modMech m f).feats = d.feats := rfl
@[simp] theorem modMech_parts (m : Mech) (f : MechX → MechX) : (d.modMech m f).parts = d.parts := rfl
@[simp] theorem modMech_ports (m : Mech) (f : MechX → MechX) : (d.modMech m f).ports = d.ports := rfl
@[simp] theorem modMech_img (m : Mech) (f : MechX → MechX) : (d.modMech m f).img = d.img := rfl
@[simp] theorem modMech_slots (m : Mech) (f : MechX → MechX) : (d.modMech m f).slots = d.slots := rfl
@[simp] theorem modMech_bufx (m : Mech) (f : MechX → MechX) : (d.modMech m f).bufx = d.bufx := rfl
@[simp] theorem modMech_arc (m : Mech) (f : MechX → MechX) : (d.modMech m f).arc = d.arc := rfl
@[simp] theorem modMech_dma (m : Mech) (f : MechX → MechX) : (d.modMech m f).dma = d.dma := rfl
@[simp] theorem modMech_mdc (m : Mech) (f : MechX → MechX) : (d.modMech m f).mdc = d.mdc := rfl
@[simp] theorem modMech_sec (m : Mech) (f : MechX → MechX) : (d.modMech m f).sec = d.sec := rfl
@[simp] theorem modMech_fw (m : Mech) (f : MechX → MechX) : (d.modMech m f).fw = d.fw := rfl
@[simp] theorem modMech_qe (m : Mech) (f : MechX → MechX) : (d.modMech m f).qe = d.qe := rfl
@[simp] theorem modMech_jtag (m : Mech) (f : MechX → MechX) : (d.modMech m f).jtag = d.jtag := rfl
@[simp] theorem modMech_boundary (m : Mech) (f : MechX → MechX) : (d.modMech m f).boundary = d.boundary := rfl
@[simp] theorem modMech_mech (m : Mech) (f : MechX → MechX) : (d.modMech m f).mech = d.mech.set m.val (f d.mech[m.val]) := rfl

/-! ### modPort -/
@[simp] theorem modPort_regs (p : Port) (f : PortX → PortX) : (d.modPort p f).regs = d.regs := by cases p <;> rfl
@[simp] theorem modPort_latches (p : Port) (f : PortX → PortX) : (d.modPort p f).latches = d.latches := by cases p <;> rfl
@[simp] theorem modPort_free (p : Port) (f : PortX → PortX) : (d.modPort p f).free = d.free := by cases p <;> rfl
@[simp] theorem modPort_out (p : Port) (f : PortX → PortX) : (d.modPort p f).out = d.out := by cases p <;> rfl
@[simp] theorem modPort_ox (p : Port) (f : PortX → PortX) : (d.modPort p f).ox = d.ox := by cases p <;> rfl
@[simp] theorem modPort_vlog (p : Port) (f : PortX → PortX) : (d.modPort p f).vlog = d.vlog := by cases p <;> rfl
@[simp] theorem modPort_elog (p : Port) (f : PortX → PortX) : (d.modPort p f).elog = d.elog := by cases p <;> rfl
@[simp] theorem modPort_health (p : Port) (f : PortX → PortX) : (d.modPort p f).health = d.health := by cases p <;> rfl
@[simp] theorem modPort_pest (p : Port) (f : PortX → PortX) : (d.modPort p f).pest = d.pest := by cases p <;> rfl
@[simp] theorem modPort_feats (p : Port) (f : PortX → PortX) : (d.modPort p f).feats = d.feats := by cases p <;> rfl
@[simp] theorem modPort_parts (p : Port) (f : PortX → PortX) : (d.modPort p f).parts = d.parts := by cases p <;> rfl
@[simp] theorem modPort_img (p : Port) (f : PortX → PortX) : (d.modPort p f).img = d.img := by cases p <;> rfl
@[simp] theorem modPort_mech (p : Port) (f : PortX → PortX) : (d.modPort p f).mech = d.mech := by cases p <;> rfl
@[simp] theorem modPort_slots (p : Port) (f : PortX → PortX) : (d.modPort p f).slots = d.slots := by cases p <;> rfl
@[simp] theorem modPort_bufx (p : Port) (f : PortX → PortX) : (d.modPort p f).bufx = d.bufx := by cases p <;> rfl
@[simp] theorem modPort_arc (p : Port) (f : PortX → PortX) : (d.modPort p f).arc = d.arc := by cases p <;> rfl
@[simp] theorem modPort_dma (p : Port) (f : PortX → PortX) : (d.modPort p f).dma = d.dma := by cases p <;> rfl
@[simp] theorem modPort_mdc (p : Port) (f : PortX → PortX) : (d.modPort p f).mdc = d.mdc := by cases p <;> rfl
@[simp] theorem modPort_sec (p : Port) (f : PortX → PortX) : (d.modPort p f).sec = d.sec := by cases p <;> rfl
@[simp] theorem modPort_fw (p : Port) (f : PortX → PortX) : (d.modPort p f).fw = d.fw := by cases p <;> rfl
@[simp] theorem modPort_qe (p : Port) (f : PortX → PortX) : (d.modPort p f).qe = d.qe := by cases p <;> rfl
@[simp] theorem modPort_jtag (p : Port) (f : PortX → PortX) : (d.modPort p f).jtag = d.jtag := by cases p <;> rfl
@[simp] theorem modPort_boundary (p : Port) (f : PortX → PortX) : (d.modPort p f).boundary = d.boundary := by cases p <;> rfl

/-! ### modBufx -/
@[simp] theorem modBufx_regs (f : BufX → BufX) : (d.modBufx f).regs = d.regs := rfl
@[simp] theorem modBufx_latches (f : BufX → BufX) : (d.modBufx f).latches = d.latches := rfl
@[simp] theorem modBufx_free (f : BufX → BufX) : (d.modBufx f).free = d.free := rfl
@[simp] theorem modBufx_out (f : BufX → BufX) : (d.modBufx f).out = d.out := rfl
@[simp] theorem modBufx_ox (f : BufX → BufX) : (d.modBufx f).ox = d.ox := rfl
@[simp] theorem modBufx_vlog (f : BufX → BufX) : (d.modBufx f).vlog = d.vlog := rfl
@[simp] theorem modBufx_elog (f : BufX → BufX) : (d.modBufx f).elog = d.elog := rfl
@[simp] theorem modBufx_health (f : BufX → BufX) : (d.modBufx f).health = d.health := rfl
@[simp] theorem modBufx_pest (f : BufX → BufX) : (d.modBufx f).pest = d.pest := rfl
@[simp] theorem modBufx_feats (f : BufX → BufX) : (d.modBufx f).feats = d.feats := rfl
@[simp] theorem modBufx_parts (f : BufX → BufX) : (d.modBufx f).parts = d.parts := rfl
@[simp] theorem modBufx_ports (f : BufX → BufX) : (d.modBufx f).ports = d.ports := rfl
@[simp] theorem modBufx_img (f : BufX → BufX) : (d.modBufx f).img = d.img := rfl
@[simp] theorem modBufx_mech (f : BufX → BufX) : (d.modBufx f).mech = d.mech := rfl
@[simp] theorem modBufx_slots (f : BufX → BufX) : (d.modBufx f).slots = d.slots := rfl
@[simp] theorem modBufx_arc (f : BufX → BufX) : (d.modBufx f).arc = d.arc := rfl
@[simp] theorem modBufx_dma (f : BufX → BufX) : (d.modBufx f).dma = d.dma := rfl
@[simp] theorem modBufx_mdc (f : BufX → BufX) : (d.modBufx f).mdc = d.mdc := rfl
@[simp] theorem modBufx_sec (f : BufX → BufX) : (d.modBufx f).sec = d.sec := rfl
@[simp] theorem modBufx_fw (f : BufX → BufX) : (d.modBufx f).fw = d.fw := rfl
@[simp] theorem modBufx_qe (f : BufX → BufX) : (d.modBufx f).qe = d.qe := rfl
@[simp] theorem modBufx_jtag (f : BufX → BufX) : (d.modBufx f).jtag = d.jtag := rfl
@[simp] theorem modBufx_boundary (f : BufX → BufX) : (d.modBufx f).boundary = d.boundary := rfl
@[simp] theorem modBufx_bufx (f : BufX → BufX) : (d.modBufx f).bufx = f d.bufx := rfl

/-! ### modArc -/
@[simp] theorem modArc_regs (f : ArcX → ArcX) : (d.modArc f).regs = d.regs := rfl
@[simp] theorem modArc_latches (f : ArcX → ArcX) : (d.modArc f).latches = d.latches := rfl
@[simp] theorem modArc_free (f : ArcX → ArcX) : (d.modArc f).free = d.free := rfl
@[simp] theorem modArc_out (f : ArcX → ArcX) : (d.modArc f).out = d.out := rfl
@[simp] theorem modArc_ox (f : ArcX → ArcX) : (d.modArc f).ox = d.ox := rfl
@[simp] theorem modArc_vlog (f : ArcX → ArcX) : (d.modArc f).vlog = d.vlog := rfl
@[simp] theorem modArc_elog (f : ArcX → ArcX) : (d.modArc f).elog = d.elog := rfl
@[simp] theorem modArc_health (f : ArcX → ArcX) : (d.modArc f).health = d.health := rfl
@[simp] theorem modArc_pest (f : ArcX → ArcX) : (d.modArc f).pest = d.pest := rfl
@[simp] theorem modArc_feats (f : ArcX → ArcX) : (d.modArc f).feats = d.feats := rfl
@[simp] theorem modArc_parts (f : ArcX → ArcX) : (d.modArc f).parts = d.parts := rfl
@[simp] theorem modArc_ports (f : ArcX → ArcX) : (d.modArc f).ports = d.ports := rfl
@[simp] theorem modArc_img (f : ArcX → ArcX) : (d.modArc f).img = d.img := rfl
@[simp] theorem modArc_mech (f : ArcX → ArcX) : (d.modArc f).mech = d.mech := rfl
@[simp] theorem modArc_slots (f : ArcX → ArcX) : (d.modArc f).slots = d.slots := rfl
@[simp] theorem modArc_bufx (f : ArcX → ArcX) : (d.modArc f).bufx = d.bufx := rfl
@[simp] theorem modArc_dma (f : ArcX → ArcX) : (d.modArc f).dma = d.dma := rfl
@[simp] theorem modArc_mdc (f : ArcX → ArcX) : (d.modArc f).mdc = d.mdc := rfl
@[simp] theorem modArc_sec (f : ArcX → ArcX) : (d.modArc f).sec = d.sec := rfl
@[simp] theorem modArc_fw (f : ArcX → ArcX) : (d.modArc f).fw = d.fw := rfl
@[simp] theorem modArc_qe (f : ArcX → ArcX) : (d.modArc f).qe = d.qe := rfl
@[simp] theorem modArc_jtag (f : ArcX → ArcX) : (d.modArc f).jtag = d.jtag := rfl
@[simp] theorem modArc_boundary (f : ArcX → ArcX) : (d.modArc f).boundary = d.boundary := rfl
@[simp] theorem modArc_arc (f : ArcX → ArcX) : (d.modArc f).arc = f d.arc := rfl

/-! ### modQe -/
@[simp] theorem modQe_regs (f : QeX → QeX) : (d.modQe f).regs = d.regs := rfl
@[simp] theorem modQe_latches (f : QeX → QeX) : (d.modQe f).latches = d.latches := rfl
@[simp] theorem modQe_free (f : QeX → QeX) : (d.modQe f).free = d.free := rfl
@[simp] theorem modQe_out (f : QeX → QeX) : (d.modQe f).out = d.out := rfl
@[simp] theorem modQe_ox (f : QeX → QeX) : (d.modQe f).ox = d.ox := rfl
@[simp] theorem modQe_vlog (f : QeX → QeX) : (d.modQe f).vlog = d.vlog := rfl
@[simp] theorem modQe_elog (f : QeX → QeX) : (d.modQe f).elog = d.elog := rfl
@[simp] theorem modQe_health (f : QeX → QeX) : (d.modQe f).health = d.health := rfl
@[simp] theorem modQe_pest (f : QeX → QeX) : (d.modQe f).pest = d.pest := rfl
@[simp] theorem modQe_feats (f : QeX → QeX) : (d.modQe f).feats = d.feats := rfl
@[simp] theorem modQe_parts (f : QeX → QeX) : (d.modQe f).parts = d.parts := rfl
@[simp] theorem modQe_ports (f : QeX → QeX) : (d.modQe f).ports = d.ports := rfl
@[simp] theorem modQe_img (f : QeX → QeX) : (d.modQe f).img = d.img := rfl
@[simp] theorem modQe_mech (f : QeX → QeX) : (d.modQe f).mech = d.mech := rfl
@[simp] theorem modQe_slots (f : QeX → QeX) : (d.modQe f).slots = d.slots := rfl
@[simp] theorem modQe_bufx (f : QeX → QeX) : (d.modQe f).bufx = d.bufx := rfl
@[simp] theorem modQe_arc (f : QeX → QeX) : (d.modQe f).arc = d.arc := rfl
@[simp] theorem modQe_dma (f : QeX → QeX) : (d.modQe f).dma = d.dma := rfl
@[simp] theorem modQe_mdc (f : QeX → QeX) : (d.modQe f).mdc = d.mdc := rfl
@[simp] theorem modQe_sec (f : QeX → QeX) : (d.modQe f).sec = d.sec := rfl
@[simp] theorem modQe_fw (f : QeX → QeX) : (d.modQe f).fw = d.fw := rfl
@[simp] theorem modQe_jtag (f : QeX → QeX) : (d.modQe f).jtag = d.jtag := rfl
@[simp] theorem modQe_boundary (f : QeX → QeX) : (d.modQe f).boundary = d.boundary := rfl
@[simp] theorem modQe_qe (f : QeX → QeX) : (d.modQe f).qe = f d.qe := rfl

/-! ### modFw -/
@[simp] theorem modFw_regs (f : FwX → FwX) : (d.modFw f).regs = d.regs := rfl
@[simp] theorem modFw_latches (f : FwX → FwX) : (d.modFw f).latches = d.latches := rfl
@[simp] theorem modFw_free (f : FwX → FwX) : (d.modFw f).free = d.free := rfl
@[simp] theorem modFw_out (f : FwX → FwX) : (d.modFw f).out = d.out := rfl
@[simp] theorem modFw_ox (f : FwX → FwX) : (d.modFw f).ox = d.ox := rfl
@[simp] theorem modFw_vlog (f : FwX → FwX) : (d.modFw f).vlog = d.vlog := rfl
@[simp] theorem modFw_elog (f : FwX → FwX) : (d.modFw f).elog = d.elog := rfl
@[simp] theorem modFw_health (f : FwX → FwX) : (d.modFw f).health = d.health := rfl
@[simp] theorem modFw_pest (f : FwX → FwX) : (d.modFw f).pest = d.pest := rfl
@[simp] theorem modFw_feats (f : FwX → FwX) : (d.modFw f).feats = d.feats := rfl
@[simp] theorem modFw_parts (f : FwX → FwX) : (d.modFw f).parts = d.parts := rfl
@[simp] theorem modFw_ports (f : FwX → FwX) : (d.modFw f).ports = d.ports := rfl
@[simp] theorem modFw_img (f : FwX → FwX) : (d.modFw f).img = d.img := rfl
@[simp] theorem modFw_mech (f : FwX → FwX) : (d.modFw f).mech = d.mech := rfl
@[simp] theorem modFw_slots (f : FwX → FwX) : (d.modFw f).slots = d.slots := rfl
@[simp] theorem modFw_bufx (f : FwX → FwX) : (d.modFw f).bufx = d.bufx := rfl
@[simp] theorem modFw_arc (f : FwX → FwX) : (d.modFw f).arc = d.arc := rfl
@[simp] theorem modFw_dma (f : FwX → FwX) : (d.modFw f).dma = d.dma := rfl
@[simp] theorem modFw_mdc (f : FwX → FwX) : (d.modFw f).mdc = d.mdc := rfl
@[simp] theorem modFw_sec (f : FwX → FwX) : (d.modFw f).sec = d.sec := rfl
@[simp] theorem modFw_qe (f : FwX → FwX) : (d.modFw f).qe = d.qe := rfl
@[simp] theorem modFw_jtag (f : FwX → FwX) : (d.modFw f).jtag = d.jtag := rfl
@[simp] theorem modFw_boundary (f : FwX → FwX) : (d.modFw f).boundary = d.boundary := rfl
@[simp] theorem modFw_fw (f : FwX → FwX) : (d.modFw f).fw = f d.fw := rfl

/-! ### modSec -/
@[simp] theorem modSec_regs (f : SecX → SecX) : (d.modSec f).regs = d.regs := rfl
@[simp] theorem modSec_latches (f : SecX → SecX) : (d.modSec f).latches = d.latches := rfl
@[simp] theorem modSec_free (f : SecX → SecX) : (d.modSec f).free = d.free := rfl
@[simp] theorem modSec_out (f : SecX → SecX) : (d.modSec f).out = d.out := rfl
@[simp] theorem modSec_ox (f : SecX → SecX) : (d.modSec f).ox = d.ox := rfl
@[simp] theorem modSec_vlog (f : SecX → SecX) : (d.modSec f).vlog = d.vlog := rfl
@[simp] theorem modSec_elog (f : SecX → SecX) : (d.modSec f).elog = d.elog := rfl
@[simp] theorem modSec_health (f : SecX → SecX) : (d.modSec f).health = d.health := rfl
@[simp] theorem modSec_pest (f : SecX → SecX) : (d.modSec f).pest = d.pest := rfl
@[simp] theorem modSec_feats (f : SecX → SecX) : (d.modSec f).feats = d.feats := rfl
@[simp] theorem modSec_parts (f : SecX → SecX) : (d.modSec f).parts = d.parts := rfl
@[simp] theorem modSec_ports (f : SecX → SecX) : (d.modSec f).ports = d.ports := rfl
@[simp] theorem modSec_img (f : SecX → SecX) : (d.modSec f).img = d.img := rfl
@[simp] theorem modSec_mech (f : SecX → SecX) : (d.modSec f).mech = d.mech := rfl
@[simp] theorem modSec_slots (f : SecX → SecX) : (d.modSec f).slots = d.slots := rfl
@[simp] theorem modSec_bufx (f : SecX → SecX) : (d.modSec f).bufx = d.bufx := rfl
@[simp] theorem modSec_arc (f : SecX → SecX) : (d.modSec f).arc = d.arc := rfl
@[simp] theorem modSec_dma (f : SecX → SecX) : (d.modSec f).dma = d.dma := rfl
@[simp] theorem modSec_mdc (f : SecX → SecX) : (d.modSec f).mdc = d.mdc := rfl
@[simp] theorem modSec_fw (f : SecX → SecX) : (d.modSec f).fw = d.fw := rfl
@[simp] theorem modSec_qe (f : SecX → SecX) : (d.modSec f).qe = d.qe := rfl
@[simp] theorem modSec_jtag (f : SecX → SecX) : (d.modSec f).jtag = d.jtag := rfl
@[simp] theorem modSec_boundary (f : SecX → SecX) : (d.modSec f).boundary = d.boundary := rfl
@[simp] theorem modSec_sec (f : SecX → SecX) : (d.modSec f).sec = f d.sec := rfl

/-! ### modMdc -/
@[simp] theorem modMdc_regs (f : MdcX → MdcX) : (d.modMdc f).regs = d.regs := rfl
@[simp] theorem modMdc_latches (f : MdcX → MdcX) : (d.modMdc f).latches = d.latches := rfl
@[simp] theorem modMdc_free (f : MdcX → MdcX) : (d.modMdc f).free = d.free := rfl
@[simp] theorem modMdc_out (f : MdcX → MdcX) : (d.modMdc f).out = d.out := rfl
@[simp] theorem modMdc_ox (f : MdcX → MdcX) : (d.modMdc f).ox = d.ox := rfl
@[simp] theorem modMdc_vlog (f : MdcX → MdcX) : (d.modMdc f).vlog = d.vlog := rfl
@[simp] theorem modMdc_elog (f : MdcX → MdcX) : (d.modMdc f).elog = d.elog := rfl
@[simp] theorem modMdc_health (f : MdcX → MdcX) : (d.modMdc f).health = d.health := rfl
@[simp] theorem modMdc_pest (f : MdcX → MdcX) : (d.modMdc f).pest = d.pest := rfl
@[simp] theorem modMdc_feats (f : MdcX → MdcX) : (d.modMdc f).feats = d.feats := rfl
@[simp] theorem modMdc_parts (f : MdcX → MdcX) : (d.modMdc f).parts = d.parts := rfl
@[simp] theorem modMdc_ports (f : MdcX → MdcX) : (d.modMdc f).ports = d.ports := rfl
@[simp] theorem modMdc_img (f : MdcX → MdcX) : (d.modMdc f).img = d.img := rfl
@[simp] theorem modMdc_mech (f : MdcX → MdcX) : (d.modMdc f).mech = d.mech := rfl
@[simp] theorem modMdc_slots (f : MdcX → MdcX) : (d.modMdc f).slots = d.slots := rfl
@[simp] theorem modMdc_bufx (f : MdcX → MdcX) : (d.modMdc f).bufx = d.bufx := rfl
@[simp] theorem modMdc_arc (f : MdcX → MdcX) : (d.modMdc f).arc = d.arc := rfl
@[simp] theorem modMdc_dma (f : MdcX → MdcX) : (d.modMdc f).dma = d.dma := rfl
@[simp] theorem modMdc_sec (f : MdcX → MdcX) : (d.modMdc f).sec = d.sec := rfl
@[simp] theorem modMdc_fw (f : MdcX → MdcX) : (d.modMdc f).fw = d.fw := rfl
@[simp] theorem modMdc_qe (f : MdcX → MdcX) : (d.modMdc f).qe = d.qe := rfl
@[simp] theorem modMdc_jtag (f : MdcX → MdcX) : (d.modMdc f).jtag = d.jtag := rfl
@[simp] theorem modMdc_boundary (f : MdcX → MdcX) : (d.modMdc f).boundary = d.boundary := rfl
@[simp] theorem modMdc_mdc (f : MdcX → MdcX) : (d.modMdc f).mdc = f d.mdc := rfl

/-! ### modDma -/
@[simp] theorem modDma_regs (n : DmaCh) (f : DmaX → DmaX) : (d.modDma n f).regs = d.regs := rfl
@[simp] theorem modDma_latches (n : DmaCh) (f : DmaX → DmaX) : (d.modDma n f).latches = d.latches := rfl
@[simp] theorem modDma_free (n : DmaCh) (f : DmaX → DmaX) : (d.modDma n f).free = d.free := rfl
@[simp] theorem modDma_out (n : DmaCh) (f : DmaX → DmaX) : (d.modDma n f).out = d.out := rfl
@[simp] theorem modDma_ox (n : DmaCh) (f : DmaX → DmaX) : (d.modDma n f).ox = d.ox := rfl
@[simp] theorem modDma_vlog (n : DmaCh) (f : DmaX → DmaX) : (d.modDma n f).vlog = d.vlog := rfl
@[simp] theorem modDma_elog (n : DmaCh) (f : DmaX → DmaX) : (d.modDma n f).elog = d.elog := rfl
@[simp] theorem modDma_health (n : DmaCh) (f : DmaX → DmaX) : (d.modDma n f).health = d.health := rfl
@[simp] theorem modDma_pest (n : DmaCh) (f : DmaX → DmaX) : (d.modDma n f).pest = d.pest := rfl
@[simp] theorem modDma_feats (n : DmaCh) (f : DmaX → DmaX) : (d.modDma n f).feats = d.feats := rfl
@[simp] theorem modDma_parts (n : DmaCh) (f : DmaX → DmaX) : (d.modDma n f).parts = d.parts := rfl
@[simp] theorem modDma_ports (n : DmaCh) (f : DmaX → DmaX) : (d.modDma n f).ports = d.ports := rfl
@[simp] theorem modDma_img (n : DmaCh) (f : DmaX → DmaX) : (d.modDma n f).img = d.img := rfl
@[simp] theorem modDma_mech (n : DmaCh) (f : DmaX → DmaX) : (d.modDma n f).mech = d.mech := rfl
@[simp] theorem modDma_slots (n : DmaCh) (f : DmaX → DmaX) : (d.modDma n f).slots = d.slots := rfl
@[simp] theorem modDma_bufx (n : DmaCh) (f : DmaX → DmaX) : (d.modDma n f).bufx = d.bufx := rfl
@[simp] theorem modDma_arc (n : DmaCh) (f : DmaX → DmaX) : (d.modDma n f).arc = d.arc := rfl
@[simp] theorem modDma_mdc (n : DmaCh) (f : DmaX → DmaX) : (d.modDma n f).mdc = d.mdc := rfl
@[simp] theorem modDma_sec (n : DmaCh) (f : DmaX → DmaX) : (d.modDma n f).sec = d.sec := rfl
@[simp] theorem modDma_fw (n : DmaCh) (f : DmaX → DmaX) : (d.modDma n f).fw = d.fw := rfl
@[simp] theorem modDma_qe (n : DmaCh) (f : DmaX → DmaX) : (d.modDma n f).qe = d.qe := rfl
@[simp] theorem modDma_jtag (n : DmaCh) (f : DmaX → DmaX) : (d.modDma n f).jtag = d.jtag := rfl
@[simp] theorem modDma_boundary (n : DmaCh) (f : DmaX → DmaX) : (d.modDma n f).boundary = d.boundary := rfl

/-! ### setSlot -/
@[simp] theorem setSlot_regs (i : Nat) (x : Slot) : (d.setSlot i x).regs = d.regs := rfl
@[simp] theorem setSlot_latches (i : Nat) (x : Slot) : (d.setSlot i x).latches = d.latches := rfl
@[simp] theorem setSlot_free (i : Nat) (x : Slot) : (d.setSlot i x).free = d.free := rfl
@[simp] theorem setSlot_out (i : Nat) (x : Slot) : (d.setSlot i x).out = d.out := rfl
@[simp] theorem setSlot_ox (i : Nat) (x : Slot) : (d.setSlot i x).ox = d.ox := rfl
@[simp] theorem setSlot_vlog (i : Nat) (x : Slot) : (d.setSlot i x).vlog = d.vlog := rfl
@[simp] theorem setSlot_elog (i : Nat) (x : Slot) : (d.setSlot i x).elog = d.elog := rfl
@[simp] theorem setSlot_health (i : Nat) (x : Slot) : (d.setSlot i x).health = d.health := rfl
@[simp] theorem setSlot_pest (i : Nat) (x : Slot) : (d.setSlot i x).pest = d.pest := rfl
@[simp] theorem setSlot_feats (i : Nat) (x : Slot) : (d.setSlot i x).feats = d.feats := rfl
@[simp] theorem setSlot_parts (i : Nat) (x : Slot) : (d.setSlot i x).parts = d.parts := rfl
@[simp] theorem setSlot_ports (i : Nat) (x : Slot) : (d.setSlot i x).ports = d.ports := rfl
@[simp] theorem setSlot_img (i : Nat) (x : Slot) : (d.setSlot i x).img = d.img := rfl
@[simp] theorem setSlot_mech (i : Nat) (x : Slot) : (d.setSlot i x).mech = d.mech := rfl
@[simp] theorem setSlot_bufx (i : Nat) (x : Slot) : (d.setSlot i x).bufx = d.bufx := rfl
@[simp] theorem setSlot_arc (i : Nat) (x : Slot) : (d.setSlot i x).arc = d.arc := rfl
@[simp] theorem setSlot_dma (i : Nat) (x : Slot) : (d.setSlot i x).dma = d.dma := rfl
@[simp] theorem setSlot_mdc (i : Nat) (x : Slot) : (d.setSlot i x).mdc = d.mdc := rfl
@[simp] theorem setSlot_sec (i : Nat) (x : Slot) : (d.setSlot i x).sec = d.sec := rfl
@[simp] theorem setSlot_fw (i : Nat) (x : Slot) : (d.setSlot i x).fw = d.fw := rfl
@[simp] theorem setSlot_qe (i : Nat) (x : Slot) : (d.setSlot i x).qe = d.qe := rfl
@[simp] theorem setSlot_jtag (i : Nat) (x : Slot) : (d.setSlot i x).jtag = d.jtag := rfl
@[simp] theorem setSlot_boundary (i : Nat) (x : Slot) : (d.setSlot i x).boundary = d.boundary := rfl
@[simp] theorem setSlot_slots (i : Nat) (x : Slot) : (d.setSlot i x).slots = Sparse.insert (Sparse.erase d.slots i) i x := rfl

/-! ### vlogAdd -/
/-- A violation-log entry changes the violation log alone. -/
theorem vlogAdd_only (s c a : Nat) (l : List (Nat × Nat × Nat)) : ∃ x, d.vlogAdd s c a l = { d with vlog := x } := by
  unfold vlogAdd
  dsimp only
  split
  · exact ⟨_, rfl⟩
  · split
    · exact ⟨_, rfl⟩
    · exact ⟨_, rfl⟩

@[simp] theorem vlogAdd_regs (s c a : Nat) (l : List (Nat × Nat × Nat)) : (d.vlogAdd s c a l).regs = d.regs := by obtain ⟨x, h⟩ := d.vlogAdd_only s c a l; rw [h]
@[simp] theorem vlogAdd_latches (s c a : Nat) (l : List (Nat × Nat × Nat)) : (d.vlogAdd s c a l).latches = d.latches := by obtain ⟨x, h⟩ := d.vlogAdd_only s c a l; rw [h]
@[simp] theorem vlogAdd_free (s c a : Nat) (l : List (Nat × Nat × Nat)) : (d.vlogAdd s c a l).free = d.free := by obtain ⟨x, h⟩ := d.vlogAdd_only s c a l; rw [h]
@[simp] theorem vlogAdd_out (s c a : Nat) (l : List (Nat × Nat × Nat)) : (d.vlogAdd s c a l).out = d.out := by obtain ⟨x, h⟩ := d.vlogAdd_only s c a l; rw [h]
@[simp] theorem vlogAdd_ox (s c a : Nat) (l : List (Nat × Nat × Nat)) : (d.vlogAdd s c a l).ox = d.ox := by obtain ⟨x, h⟩ := d.vlogAdd_only s c a l; rw [h]
@[simp] theorem vlogAdd_elog (s c a : Nat) (l : List (Nat × Nat × Nat)) : (d.vlogAdd s c a l).elog = d.elog := by obtain ⟨x, h⟩ := d.vlogAdd_only s c a l; rw [h]
@[simp] theorem vlogAdd_health (s c a : Nat) (l : List (Nat × Nat × Nat)) : (d.vlogAdd s c a l).health = d.health := by obtain ⟨x, h⟩ := d.vlogAdd_only s c a l; rw [h]
@[simp] theorem vlogAdd_pest (s c a : Nat) (l : List (Nat × Nat × Nat)) : (d.vlogAdd s c a l).pest = d.pest := by obtain ⟨x, h⟩ := d.vlogAdd_only s c a l; rw [h]
@[simp] theorem vlogAdd_feats (s c a : Nat) (l : List (Nat × Nat × Nat)) : (d.vlogAdd s c a l).feats = d.feats := by obtain ⟨x, h⟩ := d.vlogAdd_only s c a l; rw [h]
@[simp] theorem vlogAdd_parts (s c a : Nat) (l : List (Nat × Nat × Nat)) : (d.vlogAdd s c a l).parts = d.parts := by obtain ⟨x, h⟩ := d.vlogAdd_only s c a l; rw [h]
@[simp] theorem vlogAdd_ports (s c a : Nat) (l : List (Nat × Nat × Nat)) : (d.vlogAdd s c a l).ports = d.ports := by obtain ⟨x, h⟩ := d.vlogAdd_only s c a l; rw [h]
@[simp] theorem vlogAdd_img (s c a : Nat) (l : List (Nat × Nat × Nat)) : (d.vlogAdd s c a l).img = d.img := by obtain ⟨x, h⟩ := d.vlogAdd_only s c a l; rw [h]
@[simp] theorem vlogAdd_mech (s c a : Nat) (l : List (Nat × Nat × Nat)) : (d.vlogAdd s c a l).mech = d.mech := by obtain ⟨x, h⟩ := d.vlogAdd_only s c a l; rw [h]
@[simp] theorem vlogAdd_slots (s c a : Nat) (l : List (Nat × Nat × Nat)) : (d.vlogAdd s c a l).slots = d.slots := by obtain ⟨x, h⟩ := d.vlogAdd_only s c a l; rw [h]
@[simp] theorem vlogAdd_bufx (s c a : Nat) (l : List (Nat × Nat × Nat)) : (d.vlogAdd s c a l).bufx = d.bufx := by obtain ⟨x, h⟩ := d.vlogAdd_only s c a l; rw [h]
@[simp] theorem vlogAdd_arc (s c a : Nat) (l : List (Nat × Nat × Nat)) : (d.vlogAdd s c a l).arc = d.arc := by obtain ⟨x, h⟩ := d.vlogAdd_only s c a l; rw [h]
@[simp] theorem vlogAdd_dma (s c a : Nat) (l : List (Nat × Nat × Nat)) : (d.vlogAdd s c a l).dma = d.dma := by obtain ⟨x, h⟩ := d.vlogAdd_only s c a l; rw [h]
@[simp] theorem vlogAdd_mdc (s c a : Nat) (l : List (Nat × Nat × Nat)) : (d.vlogAdd s c a l).mdc = d.mdc := by obtain ⟨x, h⟩ := d.vlogAdd_only s c a l; rw [h]
@[simp] theorem vlogAdd_sec (s c a : Nat) (l : List (Nat × Nat × Nat)) : (d.vlogAdd s c a l).sec = d.sec := by obtain ⟨x, h⟩ := d.vlogAdd_only s c a l; rw [h]
@[simp] theorem vlogAdd_fw (s c a : Nat) (l : List (Nat × Nat × Nat)) : (d.vlogAdd s c a l).fw = d.fw := by obtain ⟨x, h⟩ := d.vlogAdd_only s c a l; rw [h]
@[simp] theorem vlogAdd_qe (s c a : Nat) (l : List (Nat × Nat × Nat)) : (d.vlogAdd s c a l).qe = d.qe := by obtain ⟨x, h⟩ := d.vlogAdd_only s c a l; rw [h]
@[simp] theorem vlogAdd_jtag (s c a : Nat) (l : List (Nat × Nat × Nat)) : (d.vlogAdd s c a l).jtag = d.jtag := by obtain ⟨x, h⟩ := d.vlogAdd_only s c a l; rw [h]
@[simp] theorem vlogAdd_boundary (s c a : Nat) (l : List (Nat × Nat × Nat)) : (d.vlogAdd s c a l).boundary = d.boundary := by obtain ⟨x, h⟩ := d.vlogAdd_only s c a l; rw [h]

/-! ### fire -/
/-- Firing a vector sends a message or sets a pending bit, and nothing else. -/
theorem fire_only (p : Port) (v : Nat) : ∃ x y, d.fire p v = { d with out := x, ports := y } := by
  unfold fire
  dsimp only
  split
  · exact ⟨_, _, rfl⟩
  · split
    · exact ⟨_, _, rfl⟩
    · cases p
      · exact ⟨_, _, rfl⟩
      · exact ⟨_, _, rfl⟩

@[simp] theorem fire_regs (p : Port) (v : Nat) : (d.fire p v).regs = d.regs := by obtain ⟨x, y, h⟩ := d.fire_only p v; rw [h]
@[simp] theorem fire_latches (p : Port) (v : Nat) : (d.fire p v).latches = d.latches := by obtain ⟨x, y, h⟩ := d.fire_only p v; rw [h]
@[simp] theorem fire_free (p : Port) (v : Nat) : (d.fire p v).free = d.free := by obtain ⟨x, y, h⟩ := d.fire_only p v; rw [h]
@[simp] theorem fire_ox (p : Port) (v : Nat) : (d.fire p v).ox = d.ox := by obtain ⟨x, y, h⟩ := d.fire_only p v; rw [h]
@[simp] theorem fire_vlog (p : Port) (v : Nat) : (d.fire p v).vlog = d.vlog := by obtain ⟨x, y, h⟩ := d.fire_only p v; rw [h]
@[simp] theorem fire_elog (p : Port) (v : Nat) : (d.fire p v).elog = d.elog := by obtain ⟨x, y, h⟩ := d.fire_only p v; rw [h]
@[simp] theorem fire_health (p : Port) (v : Nat) : (d.fire p v).health = d.health := by obtain ⟨x, y, h⟩ := d.fire_only p v; rw [h]
@[simp] theorem fire_pest (p : Port) (v : Nat) : (d.fire p v).pest = d.pest := by obtain ⟨x, y, h⟩ := d.fire_only p v; rw [h]
@[simp] theorem fire_feats (p : Port) (v : Nat) : (d.fire p v).feats = d.feats := by obtain ⟨x, y, h⟩ := d.fire_only p v; rw [h]
@[simp] theorem fire_parts (p : Port) (v : Nat) : (d.fire p v).parts = d.parts := by obtain ⟨x, y, h⟩ := d.fire_only p v; rw [h]
@[simp] theorem fire_img (p : Port) (v : Nat) : (d.fire p v).img = d.img := by obtain ⟨x, y, h⟩ := d.fire_only p v; rw [h]
@[simp] theorem fire_mech (p : Port) (v : Nat) : (d.fire p v).mech = d.mech := by obtain ⟨x, y, h⟩ := d.fire_only p v; rw [h]
@[simp] theorem fire_slots (p : Port) (v : Nat) : (d.fire p v).slots = d.slots := by obtain ⟨x, y, h⟩ := d.fire_only p v; rw [h]
@[simp] theorem fire_bufx (p : Port) (v : Nat) : (d.fire p v).bufx = d.bufx := by obtain ⟨x, y, h⟩ := d.fire_only p v; rw [h]
@[simp] theorem fire_arc (p : Port) (v : Nat) : (d.fire p v).arc = d.arc := by obtain ⟨x, y, h⟩ := d.fire_only p v; rw [h]
@[simp] theorem fire_dma (p : Port) (v : Nat) : (d.fire p v).dma = d.dma := by obtain ⟨x, y, h⟩ := d.fire_only p v; rw [h]
@[simp] theorem fire_mdc (p : Port) (v : Nat) : (d.fire p v).mdc = d.mdc := by obtain ⟨x, y, h⟩ := d.fire_only p v; rw [h]
@[simp] theorem fire_sec (p : Port) (v : Nat) : (d.fire p v).sec = d.sec := by obtain ⟨x, y, h⟩ := d.fire_only p v; rw [h]
@[simp] theorem fire_fw (p : Port) (v : Nat) : (d.fire p v).fw = d.fw := by obtain ⟨x, y, h⟩ := d.fire_only p v; rw [h]
@[simp] theorem fire_qe (p : Port) (v : Nat) : (d.fire p v).qe = d.qe := by obtain ⟨x, y, h⟩ := d.fire_only p v; rw [h]
@[simp] theorem fire_jtag (p : Port) (v : Nat) : (d.fire p v).jtag = d.jtag := by obtain ⟨x, y, h⟩ := d.fire_only p v; rw [h]
@[simp] theorem fire_boundary (p : Port) (v : Nat) : (d.fire p v).boundary = d.boundary := by obtain ⟨x, y, h⟩ := d.fire_only p v; rw [h]

/-! ### elogAdd -/
@[simp] theorem elogAdd_regs (s k c : Nat) (l : List (Nat × Nat × Nat)) : (d.elogAdd s k c l).regs = d.regs := by unfold elogAdd; dsimp only; split <;> simp
@[simp] theorem elogAdd_latches (s k c : Nat) (l : List (Nat × Nat × Nat)) : (d.elogAdd s k c l).latches = d.latches := by unfold elogAdd; dsimp only; split <;> simp
@[simp] theorem elogAdd_free (s k c : Nat) (l : List (Nat × Nat × Nat)) : (d.elogAdd s k c l).free = d.free := by unfold elogAdd; dsimp only; split <;> simp
@[simp] theorem elogAdd_ox (s k c : Nat) (l : List (Nat × Nat × Nat)) : (d.elogAdd s k c l).ox = d.ox := by unfold elogAdd; dsimp only; split <;> simp
@[simp] theorem elogAdd_vlog (s k c : Nat) (l : List (Nat × Nat × Nat)) : (d.elogAdd s k c l).vlog = d.vlog := by unfold elogAdd; dsimp only; split <;> simp
@[simp] theorem elogAdd_health (s k c : Nat) (l : List (Nat × Nat × Nat)) : (d.elogAdd s k c l).health = d.health := by unfold elogAdd; dsimp only; split <;> simp
@[simp] theorem elogAdd_pest (s k c : Nat) (l : List (Nat × Nat × Nat)) : (d.elogAdd s k c l).pest = d.pest := by unfold elogAdd; dsimp only; split <;> simp
@[simp] theorem elogAdd_feats (s k c : Nat) (l : List (Nat × Nat × Nat)) : (d.elogAdd s k c l).feats = d.feats := by unfold elogAdd; dsimp only; split <;> simp
@[simp] theorem elogAdd_parts (s k c : Nat) (l : List (Nat × Nat × Nat)) : (d.elogAdd s k c l).parts = d.parts := by unfold elogAdd; dsimp only; split <;> simp
@[simp] theorem elogAdd_img (s k c : Nat) (l : List (Nat × Nat × Nat)) : (d.elogAdd s k c l).img = d.img := by unfold elogAdd; dsimp only; split <;> simp
@[simp] theorem elogAdd_mech (s k c : Nat) (l : List (Nat × Nat × Nat)) : (d.elogAdd s k c l).mech = d.mech := by unfold elogAdd; dsimp only; split <;> simp
@[simp] theorem elogAdd_slots (s k c : Nat) (l : List (Nat × Nat × Nat)) : (d.elogAdd s k c l).slots = d.slots := by unfold elogAdd; dsimp only; split <;> simp
@[simp] theorem elogAdd_bufx (s k c : Nat) (l : List (Nat × Nat × Nat)) : (d.elogAdd s k c l).bufx = d.bufx := by unfold elogAdd; dsimp only; split <;> simp
@[simp] theorem elogAdd_arc (s k c : Nat) (l : List (Nat × Nat × Nat)) : (d.elogAdd s k c l).arc = d.arc := by unfold elogAdd; dsimp only; split <;> simp
@[simp] theorem elogAdd_dma (s k c : Nat) (l : List (Nat × Nat × Nat)) : (d.elogAdd s k c l).dma = d.dma := by unfold elogAdd; dsimp only; split <;> simp
@[simp] theorem elogAdd_mdc (s k c : Nat) (l : List (Nat × Nat × Nat)) : (d.elogAdd s k c l).mdc = d.mdc := by unfold elogAdd; dsimp only; split <;> simp
@[simp] theorem elogAdd_sec (s k c : Nat) (l : List (Nat × Nat × Nat)) : (d.elogAdd s k c l).sec = d.sec := by unfold elogAdd; dsimp only; split <;> simp
@[simp] theorem elogAdd_fw (s k c : Nat) (l : List (Nat × Nat × Nat)) : (d.elogAdd s k c l).fw = d.fw := by unfold elogAdd; dsimp only; split <;> simp
@[simp] theorem elogAdd_qe (s k c : Nat) (l : List (Nat × Nat × Nat)) : (d.elogAdd s k c l).qe = d.qe := by unfold elogAdd; dsimp only; split <;> simp
@[simp] theorem elogAdd_jtag (s k c : Nat) (l : List (Nat × Nat × Nat)) : (d.elogAdd s k c l).jtag = d.jtag := by unfold elogAdd; dsimp only; split <;> simp
@[simp] theorem elogAdd_boundary (s k c : Nat) (l : List (Nat × Nat × Nat)) : (d.elogAdd s k c l).boundary = d.boundary := by unfold elogAdd; dsimp only; split <;> simp

/-! ### raiseEvt -/
@[simp] theorem raiseEvt_latches (ev en : Field) (i v : Nat) : (d.raiseEvt ev en i v).latches = d.latches := by unfold raiseEvt; dsimp only; split <;> simp
@[simp] theorem raiseEvt_free (ev en : Field) (i v : Nat) : (d.raiseEvt ev en i v).free = d.free := by unfold raiseEvt; dsimp only; split <;> simp
@[simp] theorem raiseEvt_ox (ev en : Field) (i v : Nat) : (d.raiseEvt ev en i v).ox = d.ox := by unfold raiseEvt; dsimp only; split <;> simp
@[simp] theorem raiseEvt_vlog (ev en : Field) (i v : Nat) : (d.raiseEvt ev en i v).vlog = d.vlog := by unfold raiseEvt; dsimp only; split <;> simp
@[simp] theorem raiseEvt_elog (ev en : Field) (i v : Nat) : (d.raiseEvt ev en i v).elog = d.elog := by unfold raiseEvt; dsimp only; split <;> simp
@[simp] theorem raiseEvt_health (ev en : Field) (i v : Nat) : (d.raiseEvt ev en i v).health = d.health := by unfold raiseEvt; dsimp only; split <;> simp
@[simp] theorem raiseEvt_pest (ev en : Field) (i v : Nat) : (d.raiseEvt ev en i v).pest = d.pest := by unfold raiseEvt; dsimp only; split <;> simp
@[simp] theorem raiseEvt_feats (ev en : Field) (i v : Nat) : (d.raiseEvt ev en i v).feats = d.feats := by unfold raiseEvt; dsimp only; split <;> simp
@[simp] theorem raiseEvt_parts (ev en : Field) (i v : Nat) : (d.raiseEvt ev en i v).parts = d.parts := by unfold raiseEvt; dsimp only; split <;> simp
@[simp] theorem raiseEvt_img (ev en : Field) (i v : Nat) : (d.raiseEvt ev en i v).img = d.img := by unfold raiseEvt; dsimp only; split <;> simp
@[simp] theorem raiseEvt_mech (ev en : Field) (i v : Nat) : (d.raiseEvt ev en i v).mech = d.mech := by unfold raiseEvt; dsimp only; split <;> simp
@[simp] theorem raiseEvt_slots (ev en : Field) (i v : Nat) : (d.raiseEvt ev en i v).slots = d.slots := by unfold raiseEvt; dsimp only; split <;> simp
@[simp] theorem raiseEvt_bufx (ev en : Field) (i v : Nat) : (d.raiseEvt ev en i v).bufx = d.bufx := by unfold raiseEvt; dsimp only; split <;> simp
@[simp] theorem raiseEvt_arc (ev en : Field) (i v : Nat) : (d.raiseEvt ev en i v).arc = d.arc := by unfold raiseEvt; dsimp only; split <;> simp
@[simp] theorem raiseEvt_dma (ev en : Field) (i v : Nat) : (d.raiseEvt ev en i v).dma = d.dma := by unfold raiseEvt; dsimp only; split <;> simp
@[simp] theorem raiseEvt_mdc (ev en : Field) (i v : Nat) : (d.raiseEvt ev en i v).mdc = d.mdc := by unfold raiseEvt; dsimp only; split <;> simp
@[simp] theorem raiseEvt_sec (ev en : Field) (i v : Nat) : (d.raiseEvt ev en i v).sec = d.sec := by unfold raiseEvt; dsimp only; split <;> simp
@[simp] theorem raiseEvt_fw (ev en : Field) (i v : Nat) : (d.raiseEvt ev en i v).fw = d.fw := by unfold raiseEvt; dsimp only; split <;> simp
@[simp] theorem raiseEvt_qe (ev en : Field) (i v : Nat) : (d.raiseEvt ev en i v).qe = d.qe := by unfold raiseEvt; dsimp only; split <;> simp
@[simp] theorem raiseEvt_jtag (ev en : Field) (i v : Nat) : (d.raiseEvt ev en i v).jtag = d.jtag := by unfold raiseEvt; dsimp only; split <;> simp
@[simp] theorem raiseEvt_boundary (ev en : Field) (i v : Nat) : (d.raiseEvt ev en i v).boundary = d.boundary := by unfold raiseEvt; dsimp only; split <;> simp

/-! ### evt -/
@[simp] theorem evt_latches (ev en : Field) (v : Nat) : (d.evt ev en v).latches = d.latches := by unfold evt; dsimp only; split <;> simp
@[simp] theorem evt_free (ev en : Field) (v : Nat) : (d.evt ev en v).free = d.free := by unfold evt; dsimp only; split <;> simp
@[simp] theorem evt_ox (ev en : Field) (v : Nat) : (d.evt ev en v).ox = d.ox := by unfold evt; dsimp only; split <;> simp
@[simp] theorem evt_vlog (ev en : Field) (v : Nat) : (d.evt ev en v).vlog = d.vlog := by unfold evt; dsimp only; split <;> simp
@[simp] theorem evt_elog (ev en : Field) (v : Nat) : (d.evt ev en v).elog = d.elog := by unfold evt; dsimp only; split <;> simp
@[simp] theorem evt_health (ev en : Field) (v : Nat) : (d.evt ev en v).health = d.health := by unfold evt; dsimp only; split <;> simp
@[simp] theorem evt_pest (ev en : Field) (v : Nat) : (d.evt ev en v).pest = d.pest := by unfold evt; dsimp only; split <;> simp
@[simp] theorem evt_feats (ev en : Field) (v : Nat) : (d.evt ev en v).feats = d.feats := by unfold evt; dsimp only; split <;> simp
@[simp] theorem evt_parts (ev en : Field) (v : Nat) : (d.evt ev en v).parts = d.parts := by unfold evt; dsimp only; split <;> simp
@[simp] theorem evt_img (ev en : Field) (v : Nat) : (d.evt ev en v).img = d.img := by unfold evt; dsimp only; split <;> simp
@[simp] theorem evt_mech (ev en : Field) (v : Nat) : (d.evt ev en v).mech = d.mech := by unfold evt; dsimp only; split <;> simp
@[simp] theorem evt_slots (ev en : Field) (v : Nat) : (d.evt ev en v).slots = d.slots := by unfold evt; dsimp only; split <;> simp
@[simp] theorem evt_bufx (ev en : Field) (v : Nat) : (d.evt ev en v).bufx = d.bufx := by unfold evt; dsimp only; split <;> simp
@[simp] theorem evt_arc (ev en : Field) (v : Nat) : (d.evt ev en v).arc = d.arc := by unfold evt; dsimp only; split <;> simp
@[simp] theorem evt_dma (ev en : Field) (v : Nat) : (d.evt ev en v).dma = d.dma := by unfold evt; dsimp only; split <;> simp
@[simp] theorem evt_mdc (ev en : Field) (v : Nat) : (d.evt ev en v).mdc = d.mdc := by unfold evt; dsimp only; split <;> simp
@[simp] theorem evt_sec (ev en : Field) (v : Nat) : (d.evt ev en v).sec = d.sec := by unfold evt; dsimp only; split <;> simp
@[simp] theorem evt_fw (ev en : Field) (v : Nat) : (d.evt ev en v).fw = d.fw := by unfold evt; dsimp only; split <;> simp
@[simp] theorem evt_qe (ev en : Field) (v : Nat) : (d.evt ev en v).qe = d.qe := by unfold evt; dsimp only; split <;> simp
@[simp] theorem evt_jtag (ev en : Field) (v : Nat) : (d.evt ev en v).jtag = d.jtag := by unfold evt; dsimp only; split <;> simp
@[simp] theorem evt_boundary (ev en : Field) (v : Nat) : (d.evt ev en v).boundary = d.boundary := by unfold evt; dsimp only; split <;> simp

/-! ### Registers -/
/-- A field reads the value written to it, cut to its width. -/
@[simp] theorem get_set_self (f : Field) (v : Nat) : (d.set f v).get f = v % 2 ^ f.width := by simp [get, Sparse.get_put]

/-- Writing a field leaves every field at another place as it was. -/
theorem get_set_ne {f g : Field} (v : Nat) (h : f.key ≠ g.key) : (d.set f v).get g = d.get g := Sparse.get_put_ne _ _ _ _ h

@[simp] theorem modOx_get (g : Field) (f : Ox → Ox) : (d.modOx f).get g = d.get g := by simp [get]
@[simp] theorem useFree_get (g : Field) : (d.useFree).get g = d.get g := by simp [get]
@[simp] theorem emit_get (g : Field) (o : Out) : (d.emit o).get g = d.get g := by simp [get]
@[simp] theorem modMech_get (g : Field) (m : Mech) (f : MechX → MechX) : (d.modMech m f).get g = d.get g := by simp [get]
@[simp] theorem modPort_get (g : Field) (p : Port) (f : PortX → PortX) : (d.modPort p f).get g = d.get g := by simp [get]
@[simp] theorem modBufx_get (g : Field) (f : BufX → BufX) : (d.modBufx f).get g = d.get g := by simp [get]
@[simp] theorem modArc_get (g : Field) (f : ArcX → ArcX) : (d.modArc f).get g = d.get g := by simp [get]
@[simp] theorem modQe_get (g : Field) (f : QeX → QeX) : (d.modQe f).get g = d.get g := by simp [get]
@[simp] theorem modFw_get (g : Field) (f : FwX → FwX) : (d.modFw f).get g = d.get g := by simp [get]
@[simp] theorem modSec_get (g : Field) (f : SecX → SecX) : (d.modSec f).get g = d.get g := by simp [get]
@[simp] theorem modMdc_get (g : Field) (f : MdcX → MdcX) : (d.modMdc f).get g = d.get g := by simp [get]
@[simp] theorem modDma_get (g : Field) (n : DmaCh) (f : DmaX → DmaX) : (d.modDma n f).get g = d.get g := by simp [get]
@[simp] theorem setSlot_get (g : Field) (i : Nat) (x : Slot) : (d.setSlot i x).get g = d.get g := by simp [get]
@[simp] theorem vlogAdd_get (g : Field) (s c a : Nat) (l : List (Nat × Nat × Nat)) : (d.vlogAdd s c a l).get g = d.get g := by simp [get]
@[simp] theorem fire_get (g : Field) (p : Port) (v : Nat) : (d.fire p v).get g = d.get g := by simp [get]
@[simp] theorem elogAdd_get (g : Field) (s k c : Nat) (l : List (Nat × Nat × Nat)) : (d.elogAdd s k c l).get g = d.get g := by simp [get]

/-! ### Mechanisms -/

@[simp] theorem mx_modMech_self (m : Mech) (f : MechX → MechX) : (d.modMech m f).mx m = f (d.mx m) := by simp [mx, modMech]

theorem mx_modMech_ne {m k : Mech} (f : MechX → MechX) (h : k ≠ m) : (d.modMech m f).mx k = d.mx k := by
  have : m.val ≠ k.val := fun e => h (Fin.ext e.symm)
  simp [mx, modMech, this]

end Dev
end Sys2Proof.Machine
end

