-- ==== Sys2Proof/Laws/Exec.lean ====
section
/-! SUPPORT. What each shared form of a meaning answers, said once: the lemmas that turn a statement about `exec` into one about the
function that the meaning applies to the device. -/
namespace Sys2Proof.Machine

variable {s : State} {m : Mech} {i : Instr}

theorem gives_liftDev {f : Dev → Dev} (h : exec i s = liftDev f s) : Gives i s (f s.dev) := h

theorem makes_liftDev {f : Dev → Dev} {P : Dev → Prop} (h : exec i s = liftDev f s) (hp : P (f s.dev)) : Makes i s P := ⟨_, h, hp⟩

theorem makesBuf_liftDev {f : Dev → Dev} {P : Memory → Dev → Prop} (h : exec i s = liftDev f s) (hp : P s.buf (f s.dev)) :
    MakesBuf i s P := ⟨_, _, h, hp⟩

theorem makesBuf_liftBuf {f : Dev → Memory → Dev × Memory} {P : Memory → Dev → Prop} (h : exec i s = liftBuf f s)
    (hp : P (f s.dev s.buf).2 (f s.dev s.buf).1) : MakesBuf i s P := ⟨_, _, h, hp⟩

theorem onMech_live {d : Dev} (f : Dev → Dev) (h : d.live m) : d.onMech m f = (f d).settle m := by
  unfold Dev.onMech; rw [if_pos ⟨h.1, by simp [h.2]⟩]

theorem onMech_not_up {d : Dev} (f : Dev → Dev) (h : d.up = false) : d.onMech m f = d := by
  unfold Dev.onMech; rw [if_neg (by simp [h])]

theorem onMech_inReset {d : Dev} (f : Dev → Dev) (h : d.mechInReset m = true) : d.onMech m f = d := by
  unfold Dev.onMech; rw [if_neg (by simp [h])]

theorem mechWrite_live {d : Dev} (off : Nat) (f : Dev → Dev) (h : d.live m) : d.mechWrite m off f = (f d).settle m := by
  unfold Dev.mechWrite; rw [if_neg (by simp [h.1]), if_neg (by simp [h.2])]

theorem mchWrite_live {d : Dev} (arc : Bool) (f : Dev → Dev) (h : d.live m) : d.mchWrite m arc f = (f d).settle m := by
  unfold Dev.mchWrite; rw [if_neg (by simp [h.1]), if_neg (by simp [h.2])]

theorem actsOn_liftMech {f : Dev → Dev} {P : Dev → Prop} (h : exec i s = liftMech m f s) (hl : s.dev.live m) (hp : P (f s.dev)) :
    ActsOn m i s P := ⟨_, by rw [h, liftMech, liftDev, onMech_live f hl], hp⟩

theorem actsOn_mechWrite {off : Nat} {f : Dev → Dev} {P : Dev → Prop} (h : exec i s = liftDev (fun d => d.mechWrite m off f) s)
    (hl : s.dev.live m) (hp : P (f s.dev)) : ActsOn m i s P := ⟨_, by rw [h, liftDev, mechWrite_live off f hl], hp⟩

theorem actsOn_mchWrite {arc : Bool} {f : Dev → Dev} {P : Dev → Prop} (h : exec i s = liftDev (fun d => d.mchWrite m arc f) s)
    (hl : s.dev.live m) (hp : P (f s.dev)) : ActsOn m i s P := ⟨_, by rw [h, liftDev, mchWrite_live arc f hl], hp⟩

theorem onQueues_up {d : Dev} (f : Dev → Dev) (h : d.up = true) : d.onQueues f = (f d).settleQueues := by
  unfold Dev.onQueues; rw [if_pos h]

theorem viaPort_serves {d : Dev} {p : Port} (f : Dev → Dev) (h : d.portServes p = true) : d.viaPort p f = (f (d.wakePort p)).settleQueues := by
  unfold Dev.viaPort; rw [if_pos h]

theorem actsOnQueues_liftQueue {f : Dev → Memory → Dev} {P : Memory → Dev → Prop} (h : exec i s = liftQueue s f) (hu : s.dev.up = true)
    (hp : P s.buf (f s.dev s.buf)) : ActsOnQueues i s P := ⟨_, _, by rw [h, liftQueue, liftDev, onQueues_up _ hu], hp⟩

theorem onArc_serves {d : Dev} (f : Dev → Dev) (hu : d.up = true) (hs : d.arcServes = true) :
    d.onArc f = (f d.wakeService.arcSync).arcUpkeep := by
  unfold Dev.onArc; rw [if_pos ⟨hu, hs⟩]

theorem actsOnArc_onArc {f : Dev → Dev} {P : Dev → Prop} (h : exec i s = liftDev (fun d => d.onArc f) s) (hu : s.dev.up = true)
    (hs : s.dev.arcServes = true) (hp : P (f s.dev.wakeService.arcSync)) : ActsOnArc i s P := ⟨_, by rw [h, liftDev, onArc_serves f hu hs], hp⟩

theorem actsOnMailbox_mboxWrite {f : Dev → Dev} {P : Dev → Prop} (h : exec i s = liftDev (fun d => d.mboxWrite f) s)
    (hu : s.dev.up = true) (hr : s.dev.inReset 26 = false) (hp : P (f s.dev.wakeService)) : ActsOnMailbox i s P := by
  refine ⟨f s.dev.wakeService, ?_, hp⟩
  rw [h, liftDev]; unfold Dev.mboxWrite
  rw [if_neg (by simp [hu]), if_neg (by simp [hr])]

/-- A register that is not written keeps its value. -/
theorem keepsRegs_set {d : Dev} (f : Field) (v : Nat) (fs : List Field) (h : f.key ∈ fs.map Field.key) : KeepsRegs fs d (d.set f v) := by
  intro g hg
  have : f.key ≠ g.key := fun e => hg (e ▸ h)
  simp only [Dev.get, Dev.set]
  exact Sparse.get_put_ne _ _ _ _ this

theorem keepsRegs_trans {a b c : Dev} {fs : List Field} (h : KeepsRegs fs a b) (k : KeepsRegs fs b c) : KeepsRegs fs a c :=
  fun f hf => (k f hf).trans (h f hf)

theorem keepsRegs_refl (d : Dev) (fs : List Field) : KeepsRegs fs d d := fun _ _ => rfl

theorem keepsRegs_of_regs {a b : Dev} (h : b.regs = a.regs) (fs : List Field) : KeepsRegs fs a b := fun f _ => by simp [Dev.get, h]

/-- What other mechanisms hold is as it was, after a change of one. -/
theorem keepsOthers_modMech (d : Dev) (m : Mech) (f : MechX → MechX) : KeepsOthers m d (d.modMech m f) := by
  intro k hk
  have : m.val ≠ k.val := fun e => hk (Fin.ext e.symm)
  simp [Dev.mx, Dev.modMech, this]

theorem keepsOthers_trans {a b c : Dev} (h : KeepsOthers m a b) (k : KeepsOthers m b c) : KeepsOthers m a c :=
  fun j hj => (k j hj).trans (h j hj)

theorem keepsOthers_of_mech {a b : Dev} (h : b.mech = a.mech) : KeepsOthers m a b := fun k _ => by simp [Dev.mx, h]

end Sys2Proof.Machine
end

