-- ==== Sys2Proof/WellFormed.lean ====
section
/-! DEFINITION. Well-formed commands: the lengths and ranges that the spec gives the data a command carries, where its type alone
does not say so. The machine does not check them; each command's meaning is total without. -/
namespace Sys2Proof

/-- R469: PUBKEY is 1,793 bytes, SIG 1,280; TYPE is a byte and ROLLBACK 16 bits. -/
def SignedImage.wf (i : SignedImage) : Bool :=
  i.pubkey.length == 1793 && i.sig.length == 1280 && decide (i.type < 256 ∧ i.rollback < 65536)

/-- R462: ROLLBACK is 16 bits, and so is the count of words. -/
def UcodeImage.wf (u : UcodeImage) : Bool := u.trailer.wf && decide (u.rollback < 65536 ∧ u.words.length < 65536)

/-- R65: a byte count fits a byte, and at most that many bytes of data came. -/
def SmbFrame.wf (f : SmbFrame) : Bool := decide (f.count < 256 ∧ f.data.length ≤ f.count)

/-- R161 to R163, R271: one value per beam; the pairs of a layer are 0 to 64. -/
def CalResult.wf : CalResult → Bool
  | .runout _ => true
  | .seekDone => true
  | .layerDone _ _ _ _ pair a b => decide (pair ≤ 64) && a.length == 16 && b.length == 16
  | .finish => true

/-- R347: there are 4,096 command slots. -/
def HostErr.wf : HostErr → Bool
  | .data slot => decide (slot < 4096)
  | .fetch _ _ => true
  | .cqWrite _ _ => true
  | .ecrc _ => true

/-- R350: configuration space is 4 KiB. -/
def CfgReq.wf : CfgReq → Bool
  | .read off => decide (off < 4096)
  | .write off _ => decide (off < 4096)
  | .d0 => true
  | .d3hot => true

/-- Whether the data of a command has the lengths and ranges of the spec. -/
def Instr.wf : Instr → Bool
  | .powerUp trims => trims.length == 80
  | .mainPgAssert => true
  | .mainPgTimeout => true
  | .mainPgLoss => true
  | .vaonLoss => true
  | .systemPllLock => true
  | .pllLockLossTimeout => true
  | .heartbeatTimeout => true
  | .unpartitionedUe => true
  | .bootRomVerify _ slot0 slot1 => slot0.all SignedImage.wf && slot1.all SignedImage.wf
  | .bootFwLoad svc ucode legacy ownerKey => 
    svc.all SignedImage.wf && ucode.all UcodeImage.wf && legacy.all (fun c => c.trailer.wf) && ownerKey.all (fun k => k.length == 1793)
  | .calibrationDone _ sensorOfs _ phy heads => sensorOfs.length == 8 && phy.length == 24 && heads.length == 16
  | .startImageLoad _ _ => true
  | .startComplete _ => true
  | .oxFrame _ _ => true
  | .comparatorTrimRecheck _ _ _ => true
  | .temperatureReading _ _ => true
  | .smbStatus f => f.wf
  | .smbTime f => f.wf
  | .smbTemps f => f.wf
  | .smbLogRead f => f.wf
  | .smbHealth f => f.wf
  | .smbEnterOxOnly f => f.wf
  | .smbRecover f => f.wf
  | .smbWake f => f.wf
  | .smbUnknownCommand _ => true
  | .smbClockTimeout _ => true
  | .deepIdleEntry => true
  | .wakeEvent _ _ => true
  | .oxaTimerMatch => true
  | .bufferSelfRefreshEntry _ => true
  | .perstAssert _ => true
  | .perstDeassert _ => true
  | .portReset _ _ => true
  | .portLinkUp _ => true
  | .partitionResetGo _ => true
  | .orderlyStepDone _ => true
  | .partitionReady _ => true
  | .crossPartitionReply _ _ _ => true
  | .crossPartitionRequest _ _ => true
  | .bar0BadAccess _ _ _ _ _ => true
  | .registerWrite _ off _ => decide (off < 0x8000000)
  | .bar2Access addr _ => decide (addr < 2 ^ 37)
  | .firmwareActivate slot => decide (slot < 4096)
  | .fwImportDone _ _ => true
  | .activateTimeout => true
  | .ucodeActivateTimeout => true
  | .structureReload slot => decide (slot < 4096)
  | .loaderCheckDone _ => true
  | .reloadRestReached _ => true
  | .reloadRestTimeout _ => true
  | .mchInit _ _ _ => true
  | .mchOff _ _ _ => true
  | .spinUp _ _ _ => true
  | .focus _ _ _ => true
  | .track _ _ _ => true
  | .seek _ _ _ => true
  | .park _ _ _ => true
  | .exchange _ _ _ => true
  | .exchangeEnd _ _ _ => true
  | .clearFault _ _ _ => true
  | .safe _ _ _ => true
  | .retireBeam _ _ _ => true
  | .restoreBeam _ _ _ => true
  | .setSpeed _ _ _ => true
  | .mchUnknownOp _ _ _ => true
  | .mediaRequest _ r => r.slot.all (fun k => decide (k < 4096))
  | .speedReached _ => true
  | .spinupTimeout _ => true
  | .focusTimeout _ => true
  | .trackTimeout _ => true
  | .seekTimeout _ => true
  | .calTimeout _ => true
  | .holdTimeout _ slot => decide (slot < 4096)
  | .idlePark _ => true
  | .restReached _ => true
  | .discOut _ => true
  | .discIn _ => true
  | .exchangeComplete _ => true
  | .exchangeTimeout _ => true
  | .discChange _ _ => true
  | .motionChange _ => true
  | .pstageFaultInput _ => true
  | .faultEscalation _ => true
  | .servoFrame _ _ _ _ ue cb => decide (ue.Nodup) && cb.length == 16
  | .lostFrame _ _ ue cb => decide (ue.Nodup) && cb.length == 16
  | .regionEvaluation _ => true
  | .bankPrefetchDone _ _ => true
  | .srvModeWrite _ _ _ => true
  | .focusCapture _ => true
  | .focusAcquired _ => true
  | .focusSweepFail _ => true
  | .layerJump _ _ => true
  | .jumpCapture _ => true
  | .jumpTimeout _ => true
  | .focusLoss _ => true
  | .slip _ _ => true
  | .trackingLoss _ => true
  | .defectOnset _ _ => true
  | .defectEnd _ _ => true
  | .defectHoldExpiry _ _ => true
  | .sledMoveDone _ => true
  | .shortSeekDone _ => true
  | .addressCheck _ swath _ => decide (swath < 16384)
  | .indexMark _ => true
  | .calibrationStepDone _ r => r.wf
  | .quickCalibration _ _ _ _ => true
  | .catchEnd _ => true
  | .fluxBuildDone _ => true
  | .dtcStep _ _ => true
  | .commutation _ _ => true
  | .handover _ => true
  | .handback _ _ => true
  | .brakeStop _ => true
  | .shortBrakeOnEnd _ => true
  | .shortBrakeReleaseEnd _ => true
  | .chopperSwitch _ _ => true
  | .chopperFault _ => true
  | .regenEvent _ => true
  | .shortVReached _ => true
  | .gatesoffVReached _ => true
  | .busHoldRelease _ => true
  | .undervoltage _ => true
  | .undervoltageTimeout _ => true
  | .overcurrentTrip _ _ => true
  | .commutationFailure _ => true
  | .dsmStreamFault _ _ => true
  | .keMeasurement _ => true
  | .keClear _ => true
  | .chopClear _ => true
  | .dsmCfgWrite _ _ => true
  | .sledPwmPeriod _ => true
  | .limitSwitchAssert _ _ => true
  | .limitSwitchDeassert _ _ => true
  | .bothLimitsAsserted _ => true
  | .limitChatter _ _ => true
  | .homing _ => true
  | .homingFail _ _ => true
  | .sledStop _ => true
  | .sledResume _ => true
  | .sldUnknownOp _ _ => true
  | .sledHoldExpiry _ => true
  | .uvResume _ => true
  | .upstreamBlock _ _ l => l.length == 1024
  | .regData _ _ _ _ => true
  | .regErr _ _ _ _ => true
  | .dnErr _ _ _ => true
  | .wlate _ _ _ => true
  | .headStatus _ _ => true
  | .blockLockLoss _ _ => true
  | .errorRateExceeded _ _ => true
  | .hlkRegTimeout _ _ => true
  | .fullTraining _ => true
  | .fastRetrain _ => true
  | .trainingDone _ r => r.eq.length == 4
  | .hlkRetrain _ => true
  | .hlkFull _ => true
  | .hlkRegGo _ _ => true
  | .revolutionMark _ => true
  | .ganderClassify _ _ => true
  | .groupTimeout _ _ => true
  | .partialBlockTimeout _ => true
  | .slotUnderrun _ _ => true
  | .codewordDecoded _ => true
  | .blockDecoded _ _ => true
  | .goatContextOpen _ _ => true
  | .goatRungDone _ _ => true
  | .goatTimeout _ _ => true
  | .groupDecodeDone _ _ => true
  | .recoveryEnd _ _ => true
  | .refreshIdleTimeout _ => true
  | .bucketLeak _ => true
  | .drtLookup _ _ => true
  | .drtSliceLoad _ l => decide (l.length ≤ 2048)
  | .bufferRead _ _ => true
  | .mr4Poll _ _ _ => true
  | .scrubRead _ _ => true
  | .channelRetireCause _ _ _ => true
  | .bufRetireGo _ => true
  | .retirementCopyDone _ => true
  | .rateUpdate _ _ _ => true
  | .writeAdmission slot => decide (slot < 4096)
  | .holdLimitRefusal slot => decide (slot < 4096)
  | .sqTailDoorbell _ _ _ => true
  | .cqHeadDoorbell _ _ _ => true
  | .restartDoorbell _ _ _ => true
  | .queueEnable _ _ => true
  | .queueDisable _ _ => true
  | .submissionFetch _ entry dlist => entry.length == 64 && dlist.length % 16 == 0
  | .completionCommit slot => decide (slot < 4096)
  | .flush slot => decide (slot < 4096)
  | .write slot data => decide (slot < 4096) && data.length % 4096 == 0
  | .read slot => decide (slot < 4096)
  | .verify slot => decide (slot < 4096)
  | .abort slot => decide (slot < 4096)
  | .streamOpen slot => decide (slot < 4096)
  | .streamClose slot => decide (slot < 4096)
  | .objectPut slot _ => decide (slot < 4096)
  | .objectGet slot => decide (slot < 4096)
  | .catalogueQuery slot => decide (slot < 4096)
  | .identify slot => decide (slot < 4096)
  | .getLog slot => decide (slot < 4096)
  | .selfTest slot => decide (slot < 4096)
  | .selftestResume => true
  | .selftestEnd _ _ _ _ _ => true
  | .setFeature slot => decide (slot < 4096)
  | .createVolume slot => decide (slot < 4096)
  | .deleteVolume slot => decide (slot < 4096)
  | .firmwareStage slot img ucode _ => decide (slot < 4096) && img.wf && ucode.all UcodeImage.wf
  | .attestation slot sig => decide (slot < 4096) && sig.length == 1280
  | .hostMemoryError e => e.wf
  | .blockPlacement _ => true
  | .placeHoldTimeout slot => decide (slot < 4096)
  | .mechanismJoin _ => true
  | .checkpointInterval _ => true
  | .checkpointWritten _ _ => true
  | .discLoad _ d => decide (1 ≤ d.layers ∧ d.layers ≤ 4 ∧ d.drt.length ≤ 2048)
  | .discFull _ => true
  | .withdrawTimeout _ => true
  | .exchDone _ => true
  | .mboxCheckpoint _ => true
  | .mboxHold _ => true
  | .mboxRelease _ => true
  | .mboxExchange _ => true
  | .dmaStart _ => true
  | .dmaStop _ => true
  | .dmaClear _ => true
  | .dmaPcWrite _ _ _ => true
  | .dmaCfgWrite _ _ => true
  | .dmaEnd _ => true
  | .dmaMove _ _ => true
  | .dmaLoop _ => true
  | .dmaWait _ => true
  | .dmaSignal _ => true
  | .waitSatisfied _ => true
  | .waitTimeout _ => true
  | .dmaAccessFail _ _ _ _ => true
  | .dmaEpochReissue _ _ _ _ => true
  | .dmaSemWrite _ _ => true
  | .metadataRequest _ wr => wr.all (fun l => !l.isEmpty)
  | .cacheFillDone line _ => line % 128 == 0
  | .maintZero => true
  | .maintClean => true
  | .maintInvalidate => true
  | .maintCleanInv => true
  | .maintLockLoad => true
  | .maintInvAll => true
  | .maintDone => true
  | .mdcDisable => true
  | .mdcEnable => true
  | .routineDispatch _ => true
  | .microWord _ _ => true
  | .gatePosition _ _ _ => true
  | .routineAbandon _ => true
  | .routineRestart _ => true
  | .fsqWatchdog _ => true
  | .fsqResume _ => true
  | .userGo _ _ => true
  | .ownerEnrol => true
  | .ownerRestore => true
  | .ownerOpDone _ => true
  | .flashFault _ => true
  | .registerRead _ off => decide (off < 0x8000000)
  | .configurationRequest _ r => r.wf
  | .l1SubstateEntry _ _ => true
  | .crystalValid => true
  | .crystalStop => true
  | .zqCalibration _ _ => true
  | .dqsOscillatorTracking _ _ => true
  | .allBankRefresh _ => true
  | .healthPageUpdate => true
  | .powerEstimateUpdate _ => true
  | .interruptAggregationTimeout _ _ => true
  | .boundaryScanInstruction _ _ => true
  | .serviceProcessorWatchdog => true
  | .internalParityError _ => true
  | .wchLoadDone _ => true
  | .spindlePwmPeriod _ _ => true

end Sys2Proof
end

