-- ==== Sys2Proof/Tests/Slice0.lean ====
section
/-! SUPPORT. Small checks of the model: well-formed and ill-formed commands, worked examples of the spec, and for each statement of
Certificates/Slice0/Obligations.lean states and operands that meet its hypotheses. -/
namespace Sys2Proof.Tests

set_option Elab.async false
open Sys2Proof.Machine
open Sys2Proof.Machine.Dev (opcode dataLen isAdmin nsect volOf slba cdw objId pairKey lineOf portPart)

/-! ### States -/


/-- A device in which power-up has reached step 9. -/
def up0 : State := { State.reset with dev := { State.reset.dev with ox := { State.reset.dev.ox with step := .up, pllOn := true, mainEn := true, mainPg := true, devTime := 5 } } }
/-- `s` with registers set. -/
def R (s : State) (l : List (Field × Nat)) : State := { s with dev := s.dev.setAll l }
/-- `s` with a change of the device. -/
def D (s : State) (f : Dev → Dev) : State := { s with dev := f s.dev }
/-- `s` with a change of mechanism 0. -/
def M (s : State) (f : MechX → MechX) : State := { s with dev := s.dev.modMech 0 f }
/-- Mechanism 0 in a state. -/
def st (x : MState) : State := R up0 [(Reg.MCH_STATE_STATE 0, x.code)]
/-- A slot that holds a command: `e` is its submission entry. -/
def slot (ph : SlotPhase) (e : List Byte) : Slot :=
  { port := .A, pair := 1, cid := 3, index := 0, order := 0, entry := e, dlist := [], phase := ph, locks := true, cls := .unreserved,
    grantedAt := 0, status := 0, outcome := .served, reason := 0, delay := 0, result := 0, arrived := 0, wants := [], covers := [],
    earlier := [], held := none, reissues := 0, restarted := false, orphan := false, lostXfer := false, target := none, lost := 0, moved := false }
/-- A submission entry of 64 bytes with fields (offset, bytes, value). -/
def entry (l : List (Nat × Nat × Nat)) : List Byte := fieldBytes 64 l
def S (s : State) (x : Slot) : State := D s fun d => { d with slots := [(1, x)] }
def smb (l : List Byte) : SmbFrame := ⟨0, 0, l.length, l⟩
/-- An image record. -/
def rc (ty : Nat) (ws : List Nat) : Rec := ⟨0, ty, 0, ws⟩
/-- `s` with an image in force: global records, and records of the section of mechanism 0. -/
def I (s : State) (globals secs : List Rec) : State :=
  D s fun d => { d with img := { d.img with globals := globals, sections := d.img.sections.set 0 (some ⟨secs, 0, 0, false⟩) } }
/-- The main domains with the Archive Service running. -/
def arc0 : State := R up0 [(Reg.ARC_STAT_STATE, 1)]
def disc0 : Disc :=
  { ident := 7, p := 5, q := 2, layers := 1, layer := 0, swath := 208, dslot := 0, placed := 0, full := false, blank := false, mech := some 0,
    ckptSeq := 4, ckptAt := 0, catNext := 0, parityUsed := [], swaths := [] }
def blk0 : Blk :=
  { key := ⟨1, none, 0⟩, addr := 65536, pool := .retained, phase := .staged, kind := 0, valid := 1, lost := 0, first := 0, reserved := [], strm := none,
    p := 5, q := 2, mech := none, pba := 0, orig := 0, copies := 0, copyFlag := false, replaced := false, group := 0, member := 0, planned := 0,
    use := 0, refresh := false, order := 1 }
def vol0 : Vol :=
  { kind := 0, mechMask := 1, stripe := 1, capacity := 100, p := 5, q := 2, disc := 7, lastMech := 0, unitLeft := 0, skipped := 0, starved := false }
def strm0 : Stream :=
  { gen := 0, opened := true, draining := false, vol := 1, port := .A, rsv := 0, p := 5, q := 2, credit := 0, creditAt := 0, seq := 3 }
def A (s : State) (f : ArcX → ArcX) : State := D s fun d => d.modArc f
def B (s : State) (f : BufX → BufX) : State := D s fun d => d.modBufx f
def img0 : SignedImage := ⟨true, 1, false, false, 0, [], 0, [], 5⟩
def ox0 : OxInputs := ⟨true, true, false, false, false, true, false, true, false, true⟩
def train0 : TrainResult := ⟨true, 0, 0, 1, 5, 0, 0, [1, 2, 3, 4]⟩
def motor0 : MotorSample := ⟨10, -5, -5, 1000, 0, -1000, 24000, 0⟩
def ctx0 : GoatCtx := ⟨9, 9, 1, 0, [], none, [], [], 0xFFFE, 0, false, false, false, 0, 0, 0, 0, false⟩
def bank0 (ws : List (BitVec 128)) : Bank := ⟨ws, 1, 0, 1, 0, 0, true⟩
def group0 : Group :=
  { ident := 3, disc := 7, mech := 0, layer := 0, res := 0, dslot := 0, q := 0, planned := 2, members := [(0, 55)], parityPba := [], written := 1, missing := 0,
    closed := false, opened := some 1, lastSwath := 208, strm := none, parity := [] }
def info0 : DiscInfo := ⟨false, false, 7, 5, 2, 1, 0, 0, [], 4, [], [], [], []⟩
def line0 : Line := ⟨1024, 3, List.replicate 128 1, false, false, false⟩
/-- Bytes of a little-endian word. -/
def prog (d0 d1 d2 : Nat) : List Byte := leBytes 8 d0 ++ leBytes 8 d1 ++ leBytes 8 d2 ++ leBytes 8 0
/-- DMA channel 60 with an instruction held at its program counter. -/
def dma (state : Nat) (l : List Byte) : State :=
  D (R up0 [(Reg.DMA_CH_STAT_STATE 60, state), (Reg.DMA_HOST_SIZE_SIZE, 4096), (Reg.BUF_STAT_ACTIVE, 24)])
    fun d => d.modDma 60 fun x => { x with line := some (0, l), pc := 64 }
/-- A micro-word from its fields: SEQ, COND, ALU, DST, SRCA, SRCB, IMM. -/
def uword (seq cond alu dst sa sb imm : Nat) : BitVec 128 :=
  BitVec.ofNat 128 (seq * 2 ^ 12 + cond * 2 ^ 16 + alu * 2 ^ 24 + dst * 2 ^ 28 + sa * 2 ^ 32 + sb * 2 ^ 36 + imm * 2 ^ 80)
/-- A zone map: one zone with a generous swath. -/
def zoneWs : List Nat := [1, 0, 3000000]
/-- Every buffer channel in service. -/
def allCh : State := R up0 ((Reg.BUF_STAT_ACTIVE, 24) :: (Reg.BUF_CTL_SCRUB_EN, 1) :: (List.finRange 24).map fun c => (Reg.BUF_CH_STAT_STATE c, 2))
/-- Pair 0 of port A with one entry to fetch. -/
def fetch0 : State := D (R up0 [(Reg.QE_QCFG_SIZE .A 0, 7), (Reg.QE_QCTL_STATE .A 0, 1), (Reg.QE_QCTL_EN .A 0, 1)])
  fun d => { d with qe := { d.qe with sqTail := [(Dev.pairKey .A 0, 1)] } }
/-- An admin command's slot. -/
def adm (ph : SlotPhase) (e : List Byte) : Slot := { slot ph e with pair := 0 }
/-- A buffer with room to stage. -/
def wr0 : State := B (R (I up0 [rc 0x90 [0, 4000, 4000, 0]] []) [(Reg.BUF_STAT_ACTIVE, 24), (Reg.BUF_RATE_U_U_RATE, 1000), (Reg.BUF_SZ_MIB 0, 3840), (Reg.BUF_SZ_MIB 1, 3840)]) fun x => { x with meter := 10000000 }
/-- A mechanism that may take a block of a region volume. -/
def place0 : State :=
  B (A (R (I arc0 [] [rc 0x60 zoneWs]) [(Reg.MCH_STATE_STATE 0, 5), (Reg.MCH_STATE_DISC 0, 1), (Reg.MCH_BEAM_ENABLE 0, 0xFFFF),
    (Reg.DRT_STAT_LOADED 0, 1), (Reg.BUF_STAT_ACTIVE, 24), (Reg.BUF_SZ_MIB 0, 3840), (Reg.BUF_SZ_MIB 1, 3840), (Reg.BUF_SZ_MIB 3, 3840)]) fun a => { a with discs := [disc0], vols := [(1, vol0)] }) fun x => { x with blocks := [(4, blk0)] }
def join0 : State := A place0 fun a => { a with joinAt := a.joinAt.set 0 (some 7) }
/-- The metadata cache with lines and fills held. -/
def mdc0 (ls : List Line) (ms : List Miss) : State := D (R up0 [(Reg.MDC_STAT_ENABLED, 1)]) fun d => d.modMdc fun c => { c with lines := ls, misses := ms }
/-- The ports answering. -/
def up1s : State := D up0 fun d => (d.modPort .A fun x => { x with crs := false }).modPort .B fun x => { x with crs := false }
/-- `s` with a change of the optical control of mechanism 0. -/
def O (s : State) (f : OptX → OptX) : State := M s fun x => { x with opt := f x.opt }
/-- `s` with a change of what the Mule follows in mechanism 0. -/
def Dt (s : State) (f : DetX → DetX) : State := O s fun o => { o with det := f o.det }
/-- `s` with a change of the spindle drive of mechanism 0. -/
def P (s : State) (f : SpnX → SpnX) : State := M s fun x => { x with spn := f x.spn }
/-- `s` with a change of the sled of mechanism 0. -/
def L (s : State) (f : SldX → SldX) : State := M s fun x => { x with sld := f x.sld }
/-- A back-EMF window that shows a speed in 0.5 rpm with one pole pair. -/
def emf0 (n : Int) : EmfX := ⟨120000000000, 1, 0, n * 4294967296, 100000, true⟩
/-- The limit switches of mechanism 0 have long shown a value. -/
def lim (s : State) (v : Nat) : State := D (R s [(Reg.OXA_MECH_LIMIT 0, v)]) fun d => d.modOx fun o => { o with tox := 1000000000000 }
/-- A block that has been read. -/
def read0 (f : ReadFate) (good : Nat) : ReadBlk := ⟨9, f, 4, 0xFFFF, [], [], [], [], [], none, [], [], [], 0, good, [], 0⟩
def Rd (s : State) (r : ReadBlk) : State := M s fun x => { x with rch := { x.rch with reads := [r] } }
/-- Two commands in slots. -/
def S2 (s : State) (x y : Slot) : State := D s fun d => { d with slots := [(1, x), (2, y)] }
/-- An upstream block of a stream, position 100, as the lane carries it from a receiver in its reset state. -/
def up1 (k : Nat) : List (BitVec 2) := (Link.send ⟨100, 0, k, false, 0, 0⟩ 0 0).1

/-! ### Well-formed commands -/

/-- A signed image of the lengths of R469. -/
def goodImage : SignedImage := ⟨true, 0, false, false, 0, List.replicate 1793 0, 0, List.replicate 1280 0, 5⟩
def goodUcode (words : List (BitVec 128)) : UcodeImage := ⟨goodImage, true, 1, 0, words, 0xFFFF, true, 0⟩

theorem test_wf_accepts :
    [Instr.powerUp (List.replicate 80 0), .bootRomVerify true (some goodImage) none,
      .bootFwLoad none (some (goodUcode [0])) [⟨goodImage, true, 0, [], 0, 0⟩] (some (List.replicate 1793 0)),
      .calibrationDone 0 (List.replicate 8 0) [] (List.replicate 24 (0, 0)) (List.replicate 16 train0), .smbLogRead (smb [1, 255, 0]), .registerWrite .A 0x7FFFFFF 0, .bar2Access (2 ^ 37 - 1) (.read 4),
      .firmwareActivate 4095, .servoFrame 0 0 0 0 [0, 1] (List.replicate 16 0), .lostFrame 0 0 [] (List.replicate 16 0), .upstreamBlock 0 0 (List.replicate 1024 0), .addressCheck 0 16383 0,
      .calibrationStepDone 0 (.layerDone 0 0 0 0 64 (List.replicate 16 0) (List.replicate 16 0)), .trainingDone 0 train0,
      .drtSliceLoad 0 [], .submissionFetch .A (entry []) (List.replicate 16 0),
      .write 0 (List.replicate 4096 0), .discLoad 0 info0, .metadataRequest 0 (some [1]), .cacheFillDone 128 false, .registerRead .A 0x7FFFFFC,
      .configurationRequest .A (.read 4095)].all Instr.wf = true := by decide +kernel

theorem test_wf_refuses_images :
    [Instr.bootRomVerify true (some { goodImage with pubkey := [] }) none, .bootRomVerify true none (some { goodImage with sig := [] }),
      .bootFwLoad (some { goodImage with type := 256 }) none [] none, .bootFwLoad none (some { goodUcode [] with trailer := img0 }) [] none,
      .bootFwLoad none (some { goodUcode [] with rollback := 65536 }) [] none, .bootFwLoad none none [⟨img0, true, 0, [], 0, 0⟩] none,
      .bootFwLoad none none [] (some []), .firmwareStage 4096 goodImage none true, .firmwareStage 0 img0 none true,
      .firmwareStage 0 goodImage (some { goodUcode [] with rollback := 65536 }) true, .attestation 4096 (List.replicate 1280 0),
      .attestation 0 []].all (fun i => !i.wf) = true := by decide +kernel

theorem test_wf_refuses_lengths :
    [Instr.powerUp [], .calibrationDone 0 [] [] (List.replicate 24 (0, 0)) (List.replicate 16 train0),
      .calibrationDone 0 (List.replicate 8 0) [] [] (List.replicate 16 train0), .calibrationDone 0 (List.replicate 8 0) [] (List.replicate 24 (0, 0)) [], .smbStatus ⟨0, 0, 256, []⟩, .smbTime ⟨0, 0, 0, [1]⟩, .smbTemps ⟨0, 0, 0, [1]⟩,
      .smbLogRead ⟨0, 0, 256, []⟩, .smbHealth ⟨0, 0, 0, [1]⟩, .smbEnterOxOnly ⟨0, 0, 0, [1]⟩, .smbRecover ⟨0, 0, 0, [1]⟩,
      .smbWake ⟨0, 0, 0, [1]⟩, .servoFrame 0 0 0 0 [] [], .servoFrame 0 0 0 0 [1, 1] (List.replicate 16 0),
      .lostFrame 0 0 [] [], .lostFrame 0 0 [1, 1] (List.replicate 16 0), .upstreamBlock 0 0 [], .calibrationStepDone 0 (.layerDone 0 0 0 0 0 [] []),
      .calibrationStepDone 0 (.layerDone 0 0 0 0 65 (List.replicate 16 0) (List.replicate 16 0)), .trainingDone 0 { train0 with eq := [] },
      .drtSliceLoad 0 (List.replicate 2049 (0, 0, 0)), .submissionFetch .A [] [], .submissionFetch .A (entry []) [1], .write 0 [1],
      .metadataRequest 0 (some [])].all (fun i => !i.wf) = true := by decide +kernel

theorem test_wf_refuses_numbers :
    [Instr.registerWrite .A 0x8000000 0, .registerRead .A 0x8000000, .bar2Access (2 ^ 37) (.read 4), .configurationRequest .A (.read 4096),
      .configurationRequest .A (.write 4096 0), .addressCheck 0 16384 0, .cacheFillDone 127 false, .discLoad 0 { info0 with layers := 0 },
      .discLoad 0 { info0 with layers := 5 }, .discLoad 0 { info0 with drt := List.replicate 2049 (0, 0, 0) }, .mediaRequest 0 ⟨some 4096, .read, 0⟩,
      .holdTimeout 0 4096, .firmwareActivate 4096, .structureReload 4096, .writeAdmission 4096, .holdLimitRefusal 4096, .completionCommit 4096,
      .flush 4096, .write 4096 [], .read 4096, .verify 4096, .abort 4096, .streamOpen 4096, .streamClose 4096, .objectPut 4096 [], .objectGet 4096,
      .catalogueQuery 4096, .identify 4096, .getLog 4096, .selfTest 4096, .setFeature 4096, .createVolume 4096, .deleteVolume 4096,
      .placeHoldTimeout 4096, .hostMemoryError (.data 4096)].all (fun i => !i.wf) = true := by decide +kernel

/-- spec/opcode_table.json gives no row bits. -/
theorem test_no_word_spells_a_command : decodeTableWord 32 0x12345678 = none := by decide

/-! ### Worked examples of the spec -/

/-- 00_scope: the read channel of beam 5 of mechanism 11 begins at 0x0138_5000. -/
theorem test_read_channel_address : (Reg.RCH_CTL_EQ_ADAPT 11 5).off = 0x1385000 := by decide
/-- 06_optical_loops: the tracking offset of beam 7 on layer 2 of mechanism 9 is at 0x0111_249C. -/
theorem test_tracking_offset_address : (Reg.SRV_CAL_TOFS_TE_OFS 9 2 7).off = 0x111249C := by decide

/-- 05_servo_engines: b0 = 0.75, s1 = 0.1 and e = 0.25 give 9,421; with CLAMP_HI 0x2000 the output is 0x2000, and CLAMPED is set. -/
theorem test_compensator :
    (compensate false [0x180000] 214748365 0 0 (-32768) 32767 0x2000).out = 9421 ∧
    (compensate false [0x180000] 214748365 0 0 (-32768) 32767 0x2000).clamped = false ∧
    (compensate false [0x180000] 214748365 0 0 (-32768) 0x2000 0x2000).out = 0x2000 ∧
    (compensate false [0x180000] 214748365 0 0 (-32768) 0x2000 0x2000).clamped = true := by decide +kernel
/-- 05_servo_engines: the vibration governor y[n] = y[n−1] + 0.05 e[n]: from y = 0.5, e = 0.5 leads to 0.525, which is round15 17,203. -/
theorem test_integrator :
    (compensate false [0x1999A, 0, 0, 0xFFE00000, 0] 1073741824 0 0 0x0CCD 0x7FFF 0x4000).out = 17203 := by decide +kernel

/-- 10_recording_format_write: data slot 250 and parity slot 5 of layer 2, swath 6,700 with q = 2. -/
theorem test_pba :
    Codec.pba 2 6700 0 250 = 0x9A2C00FA ∧ Codec.physSlot 2 0x9A2C00FA = 264 ∧ Codec.pba 2 6700 1 5 = 0x9A2C8005 ∧
    Codec.physSlot 2 0x9A2C8005 = 101 ∧ Codec.pbaOfPhys 2 6700 2 264 = 0x9A2C00FA ∧ Codec.pbaOfPhys 2 6700 2 101 = 0x9A2C8005 := by decide +kernel
/-- 10_recording_format_write: zone 23 has 320 data slots of 39,008 channel bits and 7 reserve slots at 2 %; zone 0 has 138 and 3; with
fifteen beams M is 39,424 and L is 41,648. -/
theorem test_slots :
    Codec.reserveSlots 320 2 = 7 ∧ Codec.reserveSlots 138 2 = 3 ∧ Codec.slotLen 16 8 = 39008 ∧ Codec.payloadBits 15 8 = 39424 ∧
    Codec.slotLen 15 8 = 41648 := by decide +kernel

/-- 09_head_link: RTT 262.4 ns gives HF_SDLY 860. -/
theorem test_sample_delay : Dev.sdlyOf 2624 = 860 := by decide

/-- SHAKE256 of the empty string, as FIPS 202 gives it. -/
theorem test_shake256 : Crypto.shake256 [] = BitVec.ofNat 512 0xbec4b7b3ac2e294086b49a47491c82fcf692b5679d0105cb00f2c0d8ddc45dd72f76d56e64270cb5821bb862ea52cd3f24eb3e74eb3f3b23138da80b2bddb946 := by
  decide +kernel

/-- The AES-256 example of FIPS 197, appendix C.3. -/
theorem test_aes : Crypto.aes (Crypto.roundKeys ((List.range 32).map (BitVec.ofNat 8))) ((List.range 16).map (fun i => 17 * i)) =
    [0x8e, 0xa2, 0xb7, 0xca, 0x51, 0x67, 0x45, 0xbf, 0xea, 0xfc, 0x49, 0x90, 0x4b, 0x49, 0x60, 0x89] := by decide +kernel

/-- R226 to R230: what one end of a lane sends, the other receives. -/
theorem test_link :
    (Link.receive (Link.send ⟨4294967000, 9, 21, true, 3, 77⟩ 12345678901234567890 5).1 5).1 = ⟨true, true, ⟨4294967000, 9, 21, true, 3, 77⟩, 12345678901234567890⟩ := by
  decide +kernel

/-- R55: 384 clock domains. -/
theorem test_clock_domains : ClockDomain.all.length = 384 := by decide +kernel

/-- 14_archive_service: with sixteen mechanisms and an exchange of 40 s, GAP is 10.8 s (the example rounds the fill to 133 s; R19 gives
4 × 6,667 revolutions of 5 ms, 133.34 s). -/
theorem test_gap : (I up0 [rc 0x10 [0, 0xFFFF, 0, 0], rc 0xA0 [0, 40 * 256, 0, 0]] []).dev.gap = 10833 := by decide +kernel

/-- 08_sled: swaths 500 and 6,000 of the reference record (6 mm of travel, 200 steps) lie 20,480 and 245,760 microsteps out, at 37,547
and 262,827. -/
theorem test_sled_targets :
    (R (I up0 [] [rc 0x51 [0, 0, 6000 + 200 * 65536]]) [(Reg.SLD_SWATH0_SWATH0_POS 0, 17067)]).dev.sledTarget 0 500 = 37547 ∧
    (R (I up0 [] [rc 0x51 [0, 0, 6000 + 200 * 65536]]) [(Reg.SLD_SWATH0_SWATH0_POS 0, 17067)]).dev.sledTarget 0 6000 = 262827 := by
  decide +kernel

/-- 15_dma_metadata_cache: the three instructions and the END of the copy program. -/
theorem test_dma_words :
    decodeDma (prog 0xFFFF0321 0x240000000 0x4000000000) = some (.move 2 0 true true false false 65536 0x240000000 0x4000000000) ∧
    decodeDma (prog 0x1002 0x1000 0x1000000010000) = some (.loop 0 16 0x1000 0x10000 0x10000) ∧
    decodeDma (prog 0x100000014 0x4000100000 0) = some (.signal 1 0 0 1 0x4000100000) ∧
    decodeDma (prog 0 0 0) = some .done ∧ decodeDma (prog 5 0 0) = none := by decide +kernel

/-- 03_power_clocks_startup: a reply of partition 7 at its old epoch 0x0041, received by DMA channels, is dropped and counted. -/
theorem test_stale_reply :
    (Makes (.crossPartitionReply 7 0x41 27) (R up0 [(Reg.GCTL_EPOCH_EPOCH 7, 0x42)]) fun t => t.get (Reg.GCTL_STALE_STALE 27) = 1) := by
  exact ⟨_, rfl, by decide +kernel⟩

/-! ### What meets the hypotheses of the statements -/

theorem groupDown_clear (d : Dev) (a : Nat) (h : ∀ k : Fin 6, d.inReset ⟨20 + k.val, by omega⟩ = false) : d.groupDown a = false :=
  h ⟨d.groupOf a % 6, Nat.mod_lt _ (by decide)⟩

theorem chanServes_all (d : Dev) (h : ∀ c : Chan, d.chanServes c = true) (c : Chan) : d.chanServes c = true := h c

theorem accessStop_open (d : Dev) (n : DmaCh) (wr : Bool) (a len : Nat) (h : ∀ k : Fin 6, d.inReset ⟨20 + k.val, by omega⟩ = false)
    (hw : (wr && d.hostOwned n && !d.inWindow a len) = false) (hu : a + len ≤ d.usable) : d.accessStop n 2 false wr a len = none := by
  have hs : d.spaceDown 2 false wr a len = false := by
    simp only [Dev.spaceDown, Bool.false_eq_true, if_false, List.any_eq_false, groupDown_clear d _ h, not_false_eq_true, implies_true]
  unfold Dev.accessStop
  rw [if_neg (by omega), if_neg (by intro ⟨h1, _, h3, _, h5⟩; simp [h1, h3, h5] at hw), if_neg (by simp [hs]), if_neg (by omega)]

/-- The hypotheses of `Obligations.StepTakesTheFrontCommand` are met: one state and operands for each of its clauses that has any. -/
theorem witness_StepTakesTheFrontCommand :
    (let s : State := State.reset; s.pending = [] ∧ s.dev.ox.step = .off) ∧
    (let s : State := up0; s.pending = [] ∧ s.dev.ox.step ≠ .off ∧ ((∀ n : Part, (s.dev.parts[n.val]).waiting = none))) := by
  refine ⟨?_, ?_⟩ <;> (dsimp only; decide +kernel)

/-- The hypotheses of `Obligations.EveryStepKeepsMemoryForm` are met: one state and operands for each of its clauses that has any. -/
theorem witness_EveryStepKeepsMemoryForm :
    (let s : State := up0; let t : State := D up0 fun d => d.tick; s.Inv ∧ step s = .next t) := by
  dsimp only; and_intros <;> exact rfl

/-- The hypotheses of `Obligations.UpkeepAfterCommands` are met: one state and operands for each of its clauses that has any. -/
theorem witness_UpkeepAfterCommands :
    (let m : Mech := 0; let s := up0; let d : Dev := s.dev; (d.running m = true ∨ d.bufx.blocks.any (fun b => Dev.copyPending m b.2 || Dev.placedOn m b.2) = false) ∧ (d.cmdBusy m = true ∨ d.get (Reg.MCH_CTL_AUTO m) = 0 ∨ (d.wantedPba m = none ∧ d.mstate m ≠ .tracking)) ∧ ((d.loopsOf m [5]).any (fun n => d.loopOn m n) = decide (d.get (Reg.SLD_STATE_MODE m) = 3)) ∧ (d.mx m).mch.deferred = .none ∧ (d.mstate m ≠ .tracking ∨ (∀ l : Layer, d.tempFar m l = false))) ∧
    (let s := up0; let d : Dev := s.dev; d.qe.lost = [] ∧ ((d.poolSize .staging = 0 ∨ (d.get Reg.BUF_STAT_PRESSURE = 0 ∧ 100 * d.poolCount .staging < d.get Reg.BUF_WM_HIGH_WM * d.poolSize .staging) ∨ (d.get Reg.BUF_STAT_PRESSURE ≠ 0 ∧ d.get Reg.BUF_WM_LOW_WM * d.poolSize .staging ≤ 100 * d.poolCount .staging)))) ∧
    (let d : Dev := up0.dev; ((∀ m : Mech, d.mstate m ≠ .writing))) ∧
    (let d : Dev := up0.dev; d.get Reg.OXA_STATE_DEPTH ≠ 2) ∧
    (let p : Port := .A; let d : Dev := (R up0 [(Reg.OXA_STATE_DEPTH, 2)]).dev; d.up = true ∧ d.get Reg.OXA_STATE_DEPTH = 2) ∧
    (let p : Port := .A; let d : Dev := (R up0 [(Reg.OXA_STATE_DEPTH, 2), (Reg.OXA_WAKE_EN_EN, 63)]).dev; d.up = true ∧ d.get Reg.OXA_STATE_DEPTH = 2 ∧ d.bit Reg.OXA_WAKE_EN_EN p.idx = true) := by
  refine ⟨?_, ?_, ?_, ?_, ?_, ?_⟩ <;> (dsimp only; decide +kernel)

/-- The hypotheses of `Obligations.RailsAndClocks` are met: one state and operands for each of its clauses that has any. -/
theorem witness_RailsAndClocks :
    (let s : State := State.reset; s.dev.ox.step = .off) ∧
    (let s : State := D up0 fun d => { d with ox := { d.ox with step := .mainEn, mainPg := false } }; s.dev.ox.step = .mainEn ∧ s.dev.get Reg.OXA_STATE_MODE ≠ 2) ∧
    (let s : State := R (D up0 fun d => { d with ox := { d.ox with step := .mainEn, mainPg := false } }) [(Reg.OXA_STATE_MODE, 2)]; s.dev.ox.step = .mainEn ∧ s.dev.get Reg.OXA_STATE_MODE = 2) ∧
    (let s : State := D up0 fun d => { d with ox := { d.ox with step := .mainPg, pllOn := false } }; s.dev.ox.step = .mainPg ∧ s.dev.ox.mainEn = true ∧ s.dev.ox.mainPg = true ∧ s.dev.ox.pllOn = false ∧ s.dev.get Reg.OXA_STATE_DEPTH ≠ 2) := by
  refine ⟨?_, ?_, ?_, ?_⟩ <;> (dsimp only; decide +kernel)

/-- The hypotheses of `Obligations.SmbusCommands` are met: one state and operands for each of its clauses that has any. -/
theorem witness_SmbusCommands :
    (let s : State := up0; let f : SmbFrame := smb []; s.dev.ox.step ≠ .off ∧ f.pecRx = f.pecExp) ∧
    (let s : State := up0; let f : SmbFrame := smb []; s.dev.ox.step ≠ .off ∧ f.pecRx = f.pecExp) ∧
    (let s : State := up0; let f : SmbFrame := smb []; s.dev.ox.step ≠ .off ∧ f.pecRx = f.pecExp) ∧
    (let s : State := up0; let f : SmbFrame := smb []; s.dev.ox.step ≠ .off ∧ f.pecRx = f.pecExp) ∧
    (let s : State := up0; let log : Byte := 1; let chunk : Byte := 0; let pos : Byte := 255; let f : SmbFrame := smb [1, 255, 0]; s.dev.ox.step ≠ .off ∧ f.pecRx = f.pecExp ∧ f.count = 3 ∧ f.data = [log, pos, chunk] ∧ log.toNat ≤ 1 ∧ chunk.toNat + log.toNat ≤ 1) ∧
    (let s : State := R (D up0 fun d => { d with ox := { d.ox with step := .oxOnly, mainEn := false, mainPg := false, pllOn := false } }) [(Reg.OXA_STATE_MODE, 1), (Reg.OXA_TEMP_TEMP 0, 135 * 16)]; let f : SmbFrame := smb [0x5A]; s.dev.ox.step = .oxOnly ∧ f.pecRx = f.pecExp ∧ f.count = 1 ∧ f.data = [0x5A] ∧ s.dev.recoverCool = true) ∧
    (let s : State := R up0 [(Reg.OXA_STATE_DEPTH, 2)]; let f : SmbFrame := smb [1]; s.dev.up = true ∧ f.pecRx = f.pecExp ∧ f.count = 1 ∧ f.data = [1]) ∧
    (let s : State := R up0 [(Reg.OXA_STATE_DEPTH, 2)]; s.dev.up = true) ∧
    (let s : State := R up0 [(Reg.OXA_TIMER_LO_TIMER, 5)]; s.dev.up = true ∧ s.dev.get Reg.OXA_TIMER_LO_TIMER ≠ 0 ∧ s.dev.get Reg.OXA_TIMER_LO_TIMER + 2 ^ 32 * s.dev.get Reg.OXA_TIMER_HI_TIMER ≤ s.dev.now) ∧
    (let s : State := up0; let c : Byte := 6; s.dev.ox.step ≠ .off ∧ c.toNat ∉ [1, 2, 3, 4, 5, 0x10, 0x11, 0x12]) ∧
    (let s : State := up0; s.dev.ox.step ≠ .off) ∧
    (let s : State := up0; s.dev.ox.step ≠ .off) := by
  refine ⟨?_, ?_, ?_, ?_, ?_, ?_, ?_, ?_, ?_, ?_, ?_, ?_⟩ <;> (dsimp only; decide +kernel)

/-- The hypotheses of `Obligations.OxOnlyAndSleep` are met: one state and operands for each of its clauses that has any. -/
theorem witness_OxOnlyAndSleep :
    (let s : State := D up0 fun d => { d with ox := { d.ox with step := .mainEn, mainPg := false } }; s.dev.get Reg.OXA_STATE_MODE ≠ 1 ∧ s.dev.ox.step = .mainEn) ∧
    (let s : State := up0; s.dev.get Reg.OXA_STATE_MODE ≠ 1 ∧ s.dev.ox.step ≠ .off ∧ s.dev.ox.step ≠ .oxOnly ∧ s.dev.ox.mainEn = true ∧ s.dev.ox.mainPg = true) ∧
    (let s : State := up0; s.dev.get Reg.OXA_STATE_MODE ≠ 1 ∧ s.dev.ox.step ≠ .off ∧ s.dev.ox.step ≠ .oxOnly ∧ s.dev.ox.mainEn = true ∧ s.dev.ox.mainPg = true ∧ s.dev.get Reg.OXA_STATE_DEPTH ≠ 2) ∧
    (let s : State := up0; let f : SmbFrame := smb [0xA5]; s.dev.get Reg.OXA_STATE_MODE ≠ 1 ∧ s.dev.ox.step ≠ .off ∧ s.dev.ox.step ≠ .oxOnly ∧ f.pecRx = f.pecExp ∧ f.count = 1 ∧ f.data = [0xA5]) ∧
    (let s : State := R up0 [(Reg.OXA_TEMP_TEMP 1, 145 * 16 - 1)]; let t : BitVec 16 := 2320; let k : Fin 8 := 0; s.dev.get Reg.OXA_STATE_MODE ≠ 1 ∧ s.dev.ox.step ≠ .off ∧ s.dev.ox.step ≠ .oxOnly ∧ ((∀ j : Fin 8, s.dev.get (Reg.OXA_TEMP_BAD j) = 0)) ∧ ((∀ j : Fin 8, s.dev.getS (Reg.OXA_TEMP_TEMP j) < 16 * (s.dev.get Reg.OXA_TEMP_CFG_TRIP : Int))) ∧ 16 * (s.dev.get Reg.OXA_TEMP_CFG_TRIP : Int) ≤ s.dev.tempValue k t) ∧
    (let s : State := up0; s.dev.ox.step ≠ .off) ∧
    (let s : State := up0; s.dev.ox.step ≠ .off ∧ s.dev.up = true ∧ s.dev.ox.pllOn = true ∧ s.dev.get Reg.OXA_STATE_DEPTH ≠ 2 ∧ s.dev.deepIdleOk = true) := by
  refine ⟨?_, ?_, ?_, ?_, ?_, ?_, ?_⟩ <;> (dsimp only; decide +kernel)

/-- The hypotheses of `Obligations.PowerUpAndStart` are met: one state and operands for each of its clauses that has any. -/
theorem witness_PowerUpAndStart :
    (let s : State := D up0 fun d => { d with ox := { d.ox with step := .pll } }; s.dev.ox.step = .pll) ∧
    (let s : State := D up0 fun d => { d with ox := { d.ox with step := .pll } }; s.dev.ox.step = .pll ∧ s.dev.get Reg.OXA_STATE_MODE ≠ 1) ∧
    (let s : State := D up0 fun d => { d with ox := { d.ox with step := .boot } }; s.dev.ox.step = .boot) ∧
    (let s : State := D up0 fun d => { d with ox := { d.ox with step := .fw } }; s.dev.ox.step = .fw) ∧
    (let s : State := R (D up0 fun d => { d with ox := { d.ox with step := .cal } }) [(Reg.BUF_STAT_ACTIVE, 19)]; s.dev.ox.step = .cal ∧ s.dev.get Reg.GCTL_IMG_STAT_STATE ≠ 1 ∧ s.dev.get Reg.BUF_STAT_ACTIVE < 20) ∧
    (let s : State := R (D up0 fun d => { d with ox := { d.ox with step := .cal } }) [(Reg.BUF_STAT_ACTIVE, 20)]; s.dev.ox.step = .cal ∧ s.dev.get Reg.GCTL_IMG_STAT_STATE ≠ 1 ∧ 20 ≤ s.dev.get Reg.BUF_STAT_ACTIVE) ∧
    (let s : State := D up0 fun d => { d with ox := { d.ox with step := .image } }; s.dev.ox.step = .image) := by
  refine ⟨?_, ?_, ?_, ?_, ?_, ?_, ?_⟩ <;> (dsimp only; decide +kernel)

/-- The hypotheses of `Obligations.PartitionResets` are met: one state and operands for each of its clauses that has any. -/
theorem witness_PartitionResets :
    (let s : State := R up0 [(Reg.DMA_CH_STAT_STATE 3, 1)]; let i := Instr.partitionResetGo 0x80000012; s.dev.up = true ∧ s.dev.slots = [] ∧ s.dev.goReject 18 = none ∧ (s.dev.parts[18]).lastEnd = none ∧ (i = Instr.partitionResetGo 0x80000012 ∨ i = .partitionResetGo 0x80000032 ∨ i = .internalParityError true)) ∧
    (let n : Part := 18; let s : State := up0; let w : Word := 0x80000012; let d : Dev := (s.dev.set Reg.GCTL_PRST_CTL_PART n.val).set Reg.GCTL_PRST_CTL_MODE (bits w.toNat 5 1); s.dev.up = true ∧ w.toNat.testBit 31 = true ∧ bits w.toNat 0 5 = n.val ∧ s.dev.goReject n.val = none ∧ (s.dev.parts[n.val]).lastEnd = none ∧ d = (s.dev.set Reg.GCTL_PRST_CTL_PART n.val).set Reg.GCTL_PRST_CTL_MODE (bits w.toNat 5 1) ∧ (bits w.toNat 5 1 = 1 ∨ (16 ≤ n.val ∧ n.val < 19) ∨ n.val = 26)) ∧
    (let n : Part := 20; let s : State := up0; let w : Word := 0x80000014; let d : Dev := (s.dev.set Reg.GCTL_PRST_CTL_PART n.val).set Reg.GCTL_PRST_CTL_MODE (bits w.toNat 5 1); s.dev.up = true ∧ w.toNat.testBit 31 = true ∧ bits w.toNat 0 5 = n.val ∧ s.dev.goReject n.val = none ∧ (s.dev.parts[n.val]).lastEnd = none ∧ d = (s.dev.set Reg.GCTL_PRST_CTL_PART n.val).set Reg.GCTL_PRST_CTL_MODE (bits w.toNat 5 1) ∧ bits w.toNat 5 1 = 0 ∧ 20 ≤ n.val ∧ n.val < 26) ∧
    (let n : Part := 19; let s : State := up0; let w : Word := 0x80000013; let d : Dev := (s.dev.set Reg.GCTL_PRST_CTL_PART n.val).set Reg.GCTL_PRST_CTL_MODE (bits w.toNat 5 1); s.dev.up = true ∧ w.toNat.testBit 31 = true ∧ bits w.toNat 0 5 = n.val ∧ s.dev.goReject n.val = none ∧ (s.dev.parts[n.val]).lastEnd = none ∧ d = (s.dev.set Reg.GCTL_PRST_CTL_PART n.val).set Reg.GCTL_PRST_CTL_MODE (bits w.toNat 5 1) ∧ bits w.toNat 5 1 = 0 ∧ n.val = 19) ∧
    (let n : Part := 0; let s : State := up0; let w : Word := 0x80000000; let d : Dev := (s.dev.set Reg.GCTL_PRST_CTL_PART n.val).set Reg.GCTL_PRST_CTL_MODE (bits w.toNat 5 1); s.dev.up = true ∧ w.toNat.testBit 31 = true ∧ bits w.toNat 0 5 = n.val ∧ s.dev.goReject n.val = none ∧ (s.dev.parts[n.val]).lastEnd = none ∧ d = (s.dev.set Reg.GCTL_PRST_CTL_PART n.val).set Reg.GCTL_PRST_CTL_MODE (bits w.toNat 5 1) ∧ bits w.toNat 5 1 = 0) ∧
    (let s : State := up0; let w : Word := 0x8000001B; let r : Nat := 4; s.dev.up = true ∧ w.toNat.testBit 31 = true ∧ s.dev.goReject (bits w.toNat 0 5) = some r) := by
  refine ⟨?_, ?_, ?_, ?_, ?_, ?_⟩ <;> (dsimp only; decide +kernel)

/-- The hypotheses of `Obligations.PortsAndTraffic` are met: one state and operands for each of its clauses that has any. -/
theorem witness_PortsAndTraffic :
    (let s : State := State.reset; s.dev.up = false) ∧
    (let p : Port := .A; let s : State := D up0 fun d => (d.modPort .A fun x => { x with linkUp := true }).modPort .B fun x => { x with linkUp := true }; s.dev.up = true ∧ s.dev.inReset (Dev.portPart p) = false ∧ (s.dev.parts[(Dev.portPart p).val]).lastEnd = none) ∧
    (let p : Port := .A; let s : State := D up0 fun d => (d.modPort .A fun x => { x with linkUp := true }).modPort .B fun x => { x with linkUp := true }; s.dev.up = true ∧ s.dev.inReset (Dev.portPart p) = false ∧ (s.dev.parts[(Dev.portPart p).val]).lastEnd = none) ∧
    (let p : Port := .A; let s : State := up0; s.dev.up = true ∧ (s.dev.px p).perst = false ∧ s.dev.inReset (Dev.portPart p) = false) ∧
    (let s : State := D up0 fun d => { d with parts := d.parts.set 26 { d.parts[26] with orderly := true } }; s.dev.up = true ∧ (s.dev.parts[26]).orderly = true ∧ s.dev.inReset 26 = false ∧ (s.dev.parts[26]).lastEnd = none) ∧
    (let s : State := R up0 [(Reg.GCTL_EPOCH_IN_RESET 19, 1)]; s.dev.up = true ∧ s.dev.inReset 19 = true) ∧
    (let s : State := D up0 fun d => { d with sec := { d.sec with svc := some img0 } }; s.dev.up = true ∧ s.dev.inReset 26 = false ∧ s.dev.sec.svc.isSome = true ∧ s.dev.fw.svcAct = none ∧ (s.dev.parts[26]).lastEnd = none) ∧
    (let s : State := up0; let src : Part := 26; let e : BitVec 16 := 0xFFFF; s.dev.up = true ∧ e.toNat ≠ s.dev.epoch src) ∧
    (let s : State := up0; let src : Part := 26; let e : BitVec 16 := 0; e.toNat = s.dev.epoch src) ∧
    (let s : State := up0; s.dev.up = true) := by
  refine ⟨?_, ?_, ?_, ?_, ?_, ?_, ?_, ?_, ?_, ?_⟩ <;> (dsimp only; decide +kernel)

/-- The hypotheses of `Obligations.OwnerOperations` are met: one state and operands for each of its clauses that has any. -/
theorem witness_OwnerOperations :
    (let s : State := up0; s.dev.up = true ∧ s.dev.get Reg.SEC_OWNER_STAT_RESULT ≠ 1 ∧ s.dev.fw.reload = none) ∧
    (let s : State := up0; s.dev.up = true ∧ s.dev.get Reg.SEC_OWNER_STAT_RESULT ≠ 1 ∧ s.dev.fw.reload = none) ∧
    (let s : State := R up0 [(Reg.SEC_OWNER_STAT_RESULT, 1)]; s.dev.up = true ∧ s.dev.get Reg.SEC_OWNER_STAT_RESULT = 1) ∧
    (let s : State := R up0 [(Reg.SEC_OWNER_STAT_RESULT, 1)]; s.dev.up = true ∧ s.dev.get Reg.SEC_OWNER_STAT_RESULT = 1) ∧
    (let s : State := D up0 fun d => { d with sec := { d.sec with ownerOp := 1 } }; s.dev.sec.ownerOp = 1) ∧
    (let s : State := up0; s.dev.mainsUp = true ∧ s.dev.sec.ownerOp = 0) := by
  refine ⟨?_, ?_, ?_, ?_, ?_, ?_⟩ <;> (dsimp only; decide +kernel)

/-- The hypotheses of `Obligations.MchCommandsTowardsMedia` are met: one state and operands for each of its clauses that has any. -/
theorem witness_MchCommandsTowardsMedia :
    (let m : Mech := 0; let s : State := M (R up0 [(Reg.OXA_MECH_MOTION 0, 1)]) fun x => { x with fsq := { x.fsq with banks := x.fsq.banks.set 0 (bank0 []) } }; Ready s.dev m ∧ s.dev.mstate m = .off ∧ s.dev.hasUcode m = true ∧ s.dev.rotationSeen m = true) ∧
    (let m : Mech := 0; let s : State := up0; Ready s.dev m ∧ s.dev.mstate m = .off ∧ s.dev.hasUcode m = false) ∧
    (let m : Mech := 0; let s : State := R (st .parked) [(Reg.MCH_STATE_DISC 0, 1), (Reg.SPN_LIM0_MAX_RPM 0, 1000)]; let arg : BitVec 24 := 1000; Ready s.dev m ∧ s.dev.mstate m = .parked ∧ s.dev.get (Reg.MCH_STATE_DISC m) = 1 ∧ s.dev.rpmOk m arg = true) ∧
    (let m : Mech := 0; let s : State := st .spun; Ready s.dev m ∧ s.dev.mstate m = .spun ∧ (s.dev.mx m).opt.focus = .none) ∧
    (let m : Mech := 0; let s : State := R (st .focused) [(Reg.MCH_STATE_CAL_VALID 0, 1)]; Ready s.dev m ∧ s.dev.mstate m = .focused ∧ s.dev.get (Reg.MCH_STATE_CAL_VALID m) = 1) ∧
    (let m : Mech := 0; let s : State := st .tracking; let arg : BitVec 24 := 0x31ADA; Ready s.dev m ∧ s.dev.mstate m = .tracking ∧ arg.toNat % 16384 ≤ 6874 ∧ s.dev.layerAbsent m (bits arg.toNat 16 2) = false) ∧
    (let m : Mech := 0; let s : State := R (st .tracking) [(Reg.SPN_LIM0_MAX_RPM 0, 2000)]; let arg : BitVec 24 := 2000; Ready s.dev m ∧ s.dev.running m = true ∧ s.dev.rpmOk m arg = true) := by
  refine ⟨?_, ?_, ?_, ?_, ?_, ?_, ?_⟩ <;> (dsimp only; decide +kernel)

/-- The hypotheses of `Obligations.MchCommandsTowardsRest` are met: one state and operands for each of its clauses that has any. -/
theorem witness_MchCommandsTowardsRest :
    (let m : Mech := 0; let s : State := st .parked; Ready s.dev m ∧ s.dev.mstate m = .parked) ∧
    (let m : Mech := 0; let s : State := st .parked; Ready s.dev m ∧ s.dev.mstate m = .parked) ∧
    (let m : Mech := 0; let s : State := st .tracking; Ready s.dev m ∧ s.dev.running m = true ∧ s.dev.inBlock m = false) ∧
    (let m : Mech := 0; let s : State := M (st .reading) fun x => { x with gate := { x.gate with inBlock := true } }; Ready s.dev m ∧ s.dev.running m = true ∧ s.dev.inBlock m = true) ∧
    (let m : Mech := 0; let s : State := D (st .exchange) fun d => { d with ox := { d.ox with tox := 200000000 } }; Ready s.dev m ∧ s.dev.mstate m = .exchange ∧ s.dev.discStable m = true) ∧
    (let m : Mech := 0; let s : State := R (st .fault) [(Reg.MCH_STATE_AT_REST 0, 1), (Reg.MCH_FAULT_FAULT 0, 2), (Reg.MCH_FAULT_FIRST_CODE 0, 2)]; Ready s.dev m ∧ s.dev.mstate m = .fault ∧ s.dev.get (Reg.MCH_STATE_AT_REST m) = 1) ∧
    (let m : Mech := 0; let s : State := st .tracking; Ready s.dev m ∧ s.dev.mstate m ≠ .off) ∧
    (let m : Mech := 0; let s : State := M (R (st .writing) [(Reg.MCH_BEAM_ENABLE 0, 0xFFFF), (Reg.MCH_CFG_MIN_BEAMS 0, 8)]) fun x => { x with gate := { x.gate with inBlock := true } }; let arg : BitVec 24 := 15; Ready s.dev m ∧ s.dev.mstate m ≠ .off ∧ s.dev.argOk m 12 arg = true ∧ s.dev.inBlock m = true ∧ s.dev.get (Reg.MCH_CFG_MIN_BEAMS m) < popcount 16 (s.dev.beamsInUse m)) ∧
    (let m : Mech := 0; let s : State := R (st .parked) [(Reg.MCH_BEAM_ENABLE 0, 0xFFFF), (Reg.MCH_BEAM_RETIRED 0, 0x8000)]; let arg : BitVec 24 := 15; Ready s.dev m ∧ s.dev.mstate m = .parked ∧ s.dev.argOk m 13 arg = true) := by
  refine ⟨?_, ?_, ?_, ?_, ?_, ?_, ?_, ?_, ?_⟩ <;> (dsimp only; decide +kernel)

/-- The hypotheses of `Obligations.MchRefusalsAndFaults` are met: one state and operands for each of its clauses that has any. -/
theorem witness_MchRefusalsAndFaults :
    (let m : Mech := 0; let s : State := st .parked; s.dev.live m ∧ s.dev.get (Reg.MCH_CMDSTAT_RESULT m) ≠ 1 ∧ s.dev.accepts m 4 = false) ∧
    (let m : Mech := 0; let s : State := R (st .focused) [(Reg.MCH_CMDSTAT_RESULT 0, 1)]; s.dev.live m ∧ s.dev.get (Reg.MCH_CMDSTAT_RESULT m) = 1) ∧
    (let m : Mech := 0; let s : State := st .tracking; let arg : BitVec 24 := 6875; s.dev.live m ∧ Ready s.dev m ∧ s.dev.mstate m = .tracking ∧ 6874 < arg.toNat % 16384) ∧
    (let m : Mech := 0; let s : State := up0; let op : Byte := 15; s.dev.live m ∧ s.dev.get (Reg.MCH_CMDSTAT_RESULT m) ≠ 1 ∧ Dev.knownOp op.toNat = false) ∧
    (let m : Mech := 0; let s : State := st .spinningUp; s.dev.live m ∧ s.dev.mstate m = .spinningUp) ∧
    (let m : Mech := 0; let s : State := M (st .spun) fun x => { x with opt := { x.opt with focus := .sweep } }; s.dev.live m ∧ s.dev.mstate m = .spun ∧ (s.dev.mx m).opt.focus ≠ .none) ∧
    (let m : Mech := 0; let s : State := M (st .focused) fun x => { x with opt := { x.opt with seek := .settle } }; s.dev.live m ∧ s.dev.locking m = true) ∧
    (let m : Mech := 0; let s : State := st .seeking; s.dev.live m ∧ s.dev.mstate m = .seeking) ∧
    (let m : Mech := 0; let s : State := M (st .focused) fun x => { x with opt := { x.opt with cal := .runout } }; s.dev.live m ∧ s.dev.mstate m = .focused ∧ (s.dev.mx m).opt.cal = .runout) ∧
    (let m : Mech := 0; let s : State := st .tracking; s.dev.live m ∧ s.dev.mstate m = .tracking) ∧
    (let m : Mech := 0; let s : State := st .parked; s.dev.live m ∧ s.dev.mstate m = .parked) ∧
    (let m : Mech := 0; let s : State := st .exchange; s.dev.live m ∧ s.dev.mstate m = .exchange) := by
  refine ⟨?_, ?_, ?_, ?_, ?_, ?_, ?_, ?_, ?_, ?_, ?_, ?_⟩ <;> (dsimp only; decide +kernel)

/-- The hypotheses of `Obligations.MchStateEvents` are met: one state and operands for each of its clauses that has any. -/
theorem witness_MchStateEvents :
    (let m : Mech := 0; let s : State := R (st .spinningUp) [(Reg.MCH_CMDSTAT_RESULT 0, 1), (Reg.MCH_CMDSTAT_OP 0, 3)]; s.dev.live m ∧ s.dev.mstate m = .spinningUp) ∧
    (let m : Mech := 0; let s : State := M (R (st .spinningDown) [(Reg.SLD_STATE_AT_PARK 0, 1), (Reg.MCH_CMDSTAT_RESULT 0, 1), (Reg.MCH_CMDSTAT_OP 0, 7)]) fun x => { x with mch := { x.mch with goal := .park } }; s.dev.live m ∧ s.dev.mstate m = .spinningDown ∧ s.dev.get (Reg.OXA_MECH_MOTION m) = 0 ∧ (s.dev.mx m).mch.init = .none ∧ (s.dev.mx m).mch.goal = .park ∧ s.dev.get (Reg.SLD_STATE_AT_PARK m) = 1) ∧
    (let m : Mech := 0; let s : State := st .safe; s.dev.live m ∧ s.dev.mstate m = .safe ∧ s.dev.get (Reg.OXA_MECH_MOTION m) = 0 ∧ s.dev.reloadHolds m = false) ∧
    (let m : Mech := 0; let s : State := R (st .tracking) [(Reg.MCH_CFG_IDLE_S 0, 1)]; s.dev.live m ∧ s.dev.mstate m = .tracking ∧ ((∀ h ∈ (s.dev.mx m).mch.held, s.dev.reqLive h.req = false)) ∧ s.dev.get (Reg.MCH_CFG_IDLE_S m) ≠ 0 ∧ s.dev.cmdBusy m = false ∧ s.dev.inBlock m = false) ∧
    (let m : Mech := 0; let s : State := st .exchange; s.dev.live m ∧ s.dev.mstate m = .exchange ∧ (s.dev.mx m).mch.discLevel = false) ∧
    (let m : Mech := 0; let s : State := M (st .exchange) fun x => { x with mch := { x.mch with discLevel := true } }; s.dev.live m ∧ s.dev.mstate m = .exchange ∧ (s.dev.mx m).mch.discLevel = true) ∧
    (let m : Mech := 0; let s : State := M (R (st .exchange) [(Reg.MCH_CMDSTAT_RESULT 0, 1), (Reg.MCH_CMDSTAT_OP 0, 9)]) fun x => { x with mch := { x.mch with exchEnding := true, savedAuto := some true } }; s.dev.live m ∧ s.dev.mstate m = .exchange ∧ (s.dev.mx m).mch.exchEnding = true ∧ (s.dev.mx m).pins.xpermit = false ∧ (s.dev.mx m).mch.exchFault = false ∧ (s.dev.mx m).mch.savedAuto = some true) ∧
    (let m : Mech := 0; let s : State := st .exchange; s.dev.live m ∧ s.dev.mstate m = .exchange ∧ (s.dev.mx m).mch.exchEnding = false) := by
  refine ⟨?_, ?_, ?_, ?_, ?_, ?_, ?_, ?_⟩ <;> (dsimp only; decide +kernel)

/-- The hypotheses of `Obligations.DiscChangesAndRequests` are met: one state and operands for each of its clauses that has any. -/
theorem witness_DiscChangesAndRequests :
    (let m : Mech := 0; let s : State := st .parked; s.dev.live m ∧ s.dev.mstate m = .parked) ∧
    (let m : Mech := 0; let s : State := R (st .tracking) [(Reg.MCH_STATE_DISC 0, 1), (Reg.MCH_STATE_CAL_VALID 0, 1)]; s.dev.live m ∧ s.dev.mstate m = .tracking) ∧
    (let m : Mech := 0; let s : State := st .parked; let r : MediaReq := ⟨none, .write, 9⟩; s.dev.live m ∧ s.dev.reqLive r = true ∧ r.kind = .write ∧ s.dev.mstate m = .parked ∧ s.dev.fw.test = none) ∧
    (let m : Mech := 0; let x : Slot := slot .running (entry [(0, 1, 2)]); let s : State := S (st .fault) x; let i : Nat := 1; let r : MediaReq := ⟨some 1, .read, 9⟩; s.dev.live m ∧ s.dev.slot i = some x ∧ x.phase = .running ∧ r.slot = some i ∧ s.dev.mstate m = .fault ∧ s.dev.reloadHolds m = false) ∧
    (let m : Mech := 0; let x : Slot := slot .running (entry [(0, 1, 2)]); let h : HeldReq := ⟨⟨some 1, .read, 9⟩, 0, false⟩; let s : State := R (S (M (st .parked) fun x => { x with mch := { x.mch with held := [h] } }) x) [(Reg.MCH_CTL_AUTO 0, 0)]; let i : Nat := 1; s.dev.live m ∧ s.dev.slot i = some x ∧ x.phase = .running ∧ h ∈ (s.dev.mx m).mch.held ∧ h.req.slot = some i ∧ s.dev.get (Reg.MCH_CTL_AUTO m) = 0 ∧ s.dev.reloadHolds m = false) ∧
    (let m : Mech := 1; let k : Mech := 0; let i : Nat := 1; let x : Slot := { slot .running (entry [(0, 1, 1)]) with reissues := 0 }; let r : MediaReq := ⟨some 1, .flushWait, 9⟩; let s : State := S (R up0 [(Reg.GCTL_EPOCH_IN_RESET 0, 1)]) x; s.dev.live m ∧ s.dev.mechInReset k = true ∧ s.dev.reloadHolds k = false ∧ s.dev.slot i = some x ∧ x.phase = .running ∧ r.slot = some i ∧ r.kind = .flushWait ∧ s.dev.fw.test = none ∧ (s.dev.mx k).mch.held = [] ∧ x.reissues < 3) ∧
    (let m : Mech := 1; let k : Mech := 0; let i : Nat := 1; let x : Slot := { slot .running (entry [(0, 1, 1)]) with reissues := 3 }; let r : MediaReq := ⟨some 1, .flushWait, 9⟩; let s : State := S (R up0 [(Reg.GCTL_EPOCH_IN_RESET 0, 1)]) x; s.dev.live m ∧ s.dev.mechInReset k = true ∧ s.dev.reloadHolds k = false ∧ s.dev.slot i = some x ∧ x.phase = .running ∧ r.slot = some i ∧ r.kind = .flushWait ∧ s.dev.fw.test = none ∧ (s.dev.mx k).mch.held = [] ∧ 3 ≤ x.reissues) ∧
    (let m : Mech := 0; let s : State := M up0 fun x => { x with mch := { x.mch with escalate := true } }; s.dev.live m ∧ (s.dev.mx m).mch.escalate = true ∧ s.dev.mstate m = .off ∧ (s.dev.parts[m.val]).lastEnd = none) := by
  refine ⟨?_, ?_, ?_, ?_, ?_, ?_, ?_, ?_⟩ <;> (dsimp only; decide +kernel)

/-- The hypotheses of `Obligations.CompensatorsAndFrames` are met: one state and operands for each of its clauses that has any. -/
theorem witness_CompensatorsAndFrames :
    (let lo : Int := -7; let hi : Int := -7; lo ≤ hi) ∧
    (let lo : Int := -7; let hi : Int := -7; let three : Bool := false; lo ≤ hi ∧ three = false) ∧
    (let m : Mech := 0; let s := R (I up0 [] []) [(Reg.SRV_LCLAMP_CLAMP_LO 0 0, 63536), (Reg.SRV_LCLAMP_CLAMP_HI 0 0, 2000)]; let c : Dev.Run := (⟨s.dev, 0, 0, 0, [], []⟩ : Dev.Run); let r : Rec := rc 0x40 [0]; let n : LoopId := 0; Img.loopKind r = 0 ∧ c.d.get (Reg.SRV_LCTL_MODE m n) ≠ 3 ∧ c.d.getS (Reg.SRV_LCLAMP_CLAMP_LO m n) ≤ c.d.getS (Reg.SRV_LCLAMP_CLAMP_HI m n)) ∧
    (let m : Mech := 0; let s : State := R up0 [(Reg.HLK_STATE_LINK 0, 3)]; let arrival : Int := -100; s.dev.live m ∧ s.dev.get (Reg.HLK_STATE_LINK m) = 3 ∧ -100 ≤ arrival ∧ arrival ≤ 40) ∧
    (let m : Mech := 0; let s : State := R up0 [(Reg.HLK_STATE_LINK 0, 1)]; s.dev.live m ∧ s.dev.get (Reg.HLK_STATE_LINK m) ≠ 0) ∧
    (let m : Mech := 0; let s : State := up0; let w : Word := 0x77; s.dev.live m ∧ w.toNat.testBit 3 = false) ∧
    (let m : Mech := 0; let s : State := M (R up0 [(Reg.SRV_STAT_RUNNING 0, 1), (Reg.SRV_STAT_FRAME_INDEX 0, 160)]) fun x => { x with spn := { x.spn with speed := -12 } }; s.dev.live m ∧ s.dev.get (Reg.SRV_STAT_RUNNING m) = 1 ∧ s.dev.get (Reg.SRV_STAT_FRAME_INDEX m) % 80 = 0) := by
  refine ⟨?_, ?_, ?_, ?_, ?_, ?_, ?_⟩ <;> (dsimp only; decide +kernel)

/-- The hypotheses of `Obligations.FocusEvents` are met: one state and operands for each of its clauses that has any. -/
theorem witness_FocusEvents :
    (let m : Mech := 0; let s : State := Dt (O (st .spun) fun o => { o with focus := .sweep, target := 3 }) fun x => { x with cross := true, curves := 4 }; s.dev.live m ∧ s.dev.mstate m = .spun ∧ (s.dev.mx m).opt.focus = .sweep ∧ (s.dev.mx m).opt.det.cross = true ∧ (s.dev.mx m).opt.det.failed = false ∧ (s.dev.mx m).opt.det.curves = (s.dev.mx m).opt.target.val + 1) ∧
    (let m : Mech := 0; let s : State := Dt (O (R (st .spun) [(Reg.MCH_STATE_CAL_VALID 0, 1), (Reg.MCH_CMDSTAT_RESULT 0, 1), (Reg.MCH_CMDSTAT_OP 0, 4)]) fun o => { o with focus := .settle }) fun x => { x with frames := 1600, good := 800 }; s.dev.live m ∧ s.dev.mstate m = .spun ∧ (s.dev.mx m).opt.focus = .settle ∧ 1600 ≤ (s.dev.mx m).opt.det.frames ∧ 800 ≤ (s.dev.mx m).opt.det.good ∧ s.dev.get (Reg.MCH_STATE_CAL_VALID m) = 1) ∧
    (let m : Mech := 0; let s : State := Dt (O (R (st .spun) [(Reg.MCH_CFG_REACQ 0, 1)]) fun o => { o with focus := .sweep }) fun x => { x with failed := true }; s.dev.live m ∧ s.dev.mstate m = .spun ∧ (s.dev.mx m).opt.focus = .sweep ∧ ((s.dev.mx m).opt.det.failed = true ∨ s.dev.sweepDone m = true) ∧ s.dev.get (Reg.MCH_CFG_REACQ m) ≤ (s.dev.mx m).opt.sweeps + 1) ∧
    (let m : Mech := 0; let s : State := Dt (O (R (st .spun) [(Reg.MCH_CFG_REACQ 0, 2)]) fun o => { o with focus := .sweep }) fun x => { x with failed := true }; s.dev.live m ∧ s.dev.mstate m = .spun ∧ (s.dev.mx m).opt.focus = .sweep ∧ ((s.dev.mx m).opt.det.failed = true ∨ s.dev.sweepDone m = true) ∧ (s.dev.mx m).opt.sweeps + 1 < s.dev.get (Reg.MCH_CFG_REACQ m)) ∧
    (let m : Mech := 0; let s : State := M (R (st .seeking) [(Reg.SRV_SEEK_STAT_TLAYER 0, 3), (Reg.SRV_OPT_STAT_LAYER 0, 2)]) fun x => { x with opt := { x.opt with seek := .jump } }; let deeper : Bool := true; s.dev.live m ∧ s.dev.jumpWanted m deeper = true) ∧
    (let m : Mech := 0; let s : State := Dt (O (st .seeking) fun o => { o with jump := .kick, target := 3 }) fun x => { x with cross := true }; s.dev.live m ∧ (s.dev.mx m).opt.jump = .kick ∧ (s.dev.mx m).opt.det.cross = true) ∧
    (let m : Mech := 0; let s : State := Dt (O (st .seeking) fun o => { o with jump := .settle }) fun x => { x with frames := 100000 }; s.dev.live m ∧ (s.dev.mx m).opt.jump = .settle ∧ (s.dev.mx m).opt.focus ≠ .settle ∧ (s.dev.mx m).opt.det.bad = false ∧ 10 * s.dev.get (Reg.SRV_JUMP_CFG_SETTLE m) ≤ (s.dev.mx m).opt.det.frames ∧ (s.dev.mx m).opt.cal = .none) ∧
    (let m : Mech := 0; let s : State := Dt (O (st .seeking) fun o => { o with jump := .kick, target := 3 }) fun x => { x with frames := 1600 }; s.dev.live m ∧ (s.dev.mx m).opt.jump = .kick ∧ 1600 ≤ (s.dev.mx m).opt.det.frames ∧ (s.dev.mx m).opt.cal = .none) ∧
    (let m : Mech := 0; let s : State := Dt (st .focused) fun x => { x with low := 100000 }; s.dev.live m ∧ s.dev.running m = true ∧ s.dev.mstate m ≠ .spun ∧ s.dev.focusGone m = true) := by
  refine ⟨?_, ?_, ?_, ?_, ?_, ?_, ?_, ?_, ?_⟩ <;> (dsimp only; decide +kernel)

/-- The hypotheses of `Obligations.TrackingAndDefects` are met: one state and operands for each of its clauses that has any. -/
theorem witness_TrackingAndDefects :
    (let m : Mech := 0; let b : Beam := 0; let s : State := R (I (st .tracking) [] [rc 0x40 [0x100]]) [(Reg.SRV_ENABLE_EN 0, 1), (Reg.MCH_BEAM_ENABLE 0, 1)]; let n : LoopId := 0; let s : State := Dt s fun x => { x with slips := x.slips.set 0 100000 }; s.dev.live m ∧ s.dev.fineLoop m b.val = some n ∧ tbit (s.dev.beamsInUse m) b.val = true ∧ s.dev.bit (Reg.SRV_DEF_ACTIVE_BEAM m) b.val = false ∧ s.dev.get (Reg.SRV_DEF_ACTIVE_FOCUS m) = 0 ∧ s.dev.loopOn m n = true ∧ 0 < (s.dev.mx m).opt.det.slips[b.val] ∧ s.dev.get (Reg.SRV_TRK_CFG_SLIP_N m) ≤ (s.dev.mx m).opt.det.slips[b.val]) ∧
    (let m : Mech := 0; let s : State := O (R (st .writing) [(Reg.SRV_OPT_STAT_TRACK_ON 0, 1)]) fun o => { o with slips := (List.range 16).map fun b => (0, b) }; s.dev.live m ∧ s.dev.following m = true ∧ s.dev.get (Reg.SRV_OPT_STAT_TRACK_ON m) = 1 ∧ s.dev.trackGone m = true) ∧
    (let m : Mech := 0; let s : State := M (st .seeking) fun x => { x with opt := { x.opt with seek := .short } }; s.dev.live m ∧ (s.dev.mx m).opt.seek = .short ∧ (s.dev.mx m).opt.tracks.natAbs ≤ s.dev.crossings m) ∧
    (let m : Mech := 0; let k : Beam := 0; let s : State := M (R (st .seeking) [(Reg.SRV_SEEK_STAT_TARGET 0, 6874), (Reg.SRV_CAL_STAT_QUICK 0 0, 1)]) fun x => { x with opt := { x.opt with seek := .settle } }; let swath : Nat := 6874; s.dev.live m ∧ (s.dev.mx m).opt.seek = .settle ∧ swath ≤ 6874 ∧ s.dev.cmdOp m ≠ 5 ∧ (s.dev.mstate m ≠ .seeking ∨ s.dev.get (Reg.SRV_SEEK_STAT_TLAYER m) = (s.dev.layer m).val) ∧ swath = s.dev.get (Reg.SRV_SEEK_STAT_TARGET m) ∧ k.val = s.dev.lowBeam m ∧ s.dev.get (Reg.SRV_CAL_STAT_QUICK m (s.dev.layer m)) = 1) ∧
    (let m : Mech := 0; let s : State := M (R (st .seeking) [(Reg.SRV_SEEK_CFG_RETRY 0, 1), (Reg.SRV_SEEK_STAT_TARGET 0, 5)]) fun x => { x with opt := { x.opt with seek := .settle } }; let swath : Nat := 6874; s.dev.live m ∧ (s.dev.mx m).opt.seek = .settle ∧ swath ≤ 6874 ∧ s.dev.cmdOp m ≠ 5 ∧ (s.dev.mstate m ≠ .seeking ∨ s.dev.get (Reg.SRV_SEEK_STAT_TLAYER m) = (s.dev.layer m).val) ∧ swath ≠ s.dev.get (Reg.SRV_SEEK_STAT_TARGET m) ∧ s.dev.get (Reg.SRV_SEEK_STAT_TRIES m) < s.dev.get (Reg.SRV_SEEK_CFG_RETRY m)) ∧
    (let m : Mech := 0; let s : State := R (I (st .tracking) [] [rc 0x40 [0]]) [(Reg.SRV_ENABLE_EN 0, 1), (Reg.MCH_BEAM_ENABLE 0, 1)]; let x : Defect := .focus; s.dev.live m ∧ s.dev.defectWatched m x = true ∧ ((∀ y ∈ (s.dev.mx m).opt.defects, y.1 ≠ x)) ∧ (s.dev.mx m).srv.lostRun = 0 ∧ s.dev.defectBegins m (s.dev.mx m).opt.det.sv x = true) ∧
    (let m : Mech := 0; let y : Defect × DefX := (.focus, ⟨0, 0, 2, [], true⟩); let s : State := O (R (st .tracking) [(Reg.SRV_DEF_ACTIVE_FOCUS 0, 1)]) fun o => { o with defects := [y] }; let x : Defect := .focus; s.dev.live m ∧ ((s.dev.mx m).opt.defects.find? (fun y => decide (y.1 = x)) = some y) ∧ 2 ≤ y.2.clear) ∧
    (let m : Mech := 0; let s : State := O (st .tracking) fun o => { o with defects := [(.focus, ⟨0, 0, 0, [], true⟩)] }; s.dev.live m) := by
  refine ⟨?_, ?_, ?_, ?_, ?_, ?_, ?_, ?_⟩ <;> (dsimp only; decide +kernel)

/-- The hypotheses of `Obligations.CalibrationSteps` are met: one state and operands for each of its clauses that has any. -/
theorem witness_CalibrationSteps :
    (let m : Mech := 0; let s : State := M (R (st .focused) [(Reg.MCH_BEAM_ENABLE 0, 0x8001)]) fun x => { x with opt := { x.opt with cal := .runout } }; let l : Layer := 0; let s : State := O s fun o => { o with meas := { MeasX.empty true with revs := 4, beams := Vector.replicate 16 ⟨8, -5, 5, 0, 80000⟩ } }; s.dev.live m ∧ s.dev.mstate m = .focused ∧ (s.dev.mx m).opt.jump = .none ∧ (s.dev.mx m).opt.cal = .runout ∧ l = s.dev.layer m ∧ (s.dev.mx m).opt.calLayer = l ∧ 4 ≤ (s.dev.mx m).opt.meas.revs ∧ ((s.dev.mx m).opt.meas.again = true ∨ (∀ b : Beam, (s.dev.mx m).opt.meas.total ≤ 2 * ((s.dev.mx m).opt.meas.beams[b.val]).n))) ∧
    (let m : Mech := 0; let s : State := M (st .focused) fun x => { x with opt := { x.opt with cal := .seekCal } }; let s : State := R s [(Reg.SLD_STATE_MODE 0, 1), (Reg.SLD_STATE_HOMED 0, 1)]; s.dev.live m ∧ s.dev.mstate m = .focused ∧ (s.dev.mx m).opt.jump = .none ∧ (s.dev.mx m).opt.cal = .seekCal ∧ s.dev.get (Reg.SLD_STATE_MODE m) = 1 ∧ s.dev.get (Reg.SLD_STATE_HOMED m) = 1) ∧
    (let m : Mech := 0; let s : State := M (R (st .focused) [(Reg.SPN_STATE_CLASS 0, 3)]) fun x => { x with opt := { x.opt with cal := .layer } }; let l : Layer := 0; let _opt : List (BitVec 16) := List.replicate 16 1; s.dev.live m ∧ s.dev.mstate m = .focused ∧ (s.dev.mx m).opt.jump = .none ∧ (s.dev.mx m).opt.cal = .layer ∧ l = s.dev.layer m ∧ (s.dev.mx m).opt.calLayer = l ∧ s.dev.spnClass m = 3) ∧
    (let m : Mech := 0; let s : State := M (R (st .focused) [(Reg.SRV_OPT_STAT_LAYERS 0, 4), (Reg.MCH_CMDSTAT_RESULT 0, 1), (Reg.MCH_CMDSTAT_OP 0, 4)]) fun x => { x with opt := { x.opt with cal := .finish } }; s.dev.live m ∧ s.dev.mstate m = .focused ∧ (s.dev.mx m).opt.jump = .none ∧ (s.dev.mx m).opt.cal = .finish) ∧
    (let m : Mech := 0; let s : State := M (R (st .focused) [(Reg.SRV_OPT_STAT_LAYER 0, 3)]) fun x => { x with opt := { x.opt with cal := .quick } }; let l : Layer := 3; s.dev.live m ∧ (s.dev.mx m).opt.cal = .quick ∧ l = s.dev.layer m) := by
  refine ⟨?_, ?_, ?_, ?_, ?_⟩ <;> (dsimp only; decide +kernel)

/-- The hypotheses of `Obligations.CatchAndBrake` are met: one state and operands for each of its clauses that has any. -/
theorem witness_CatchAndBrake :
    (let m : Mech := 0; let s : State := R (st .spinningUp) [(Reg.SPN_STATE_CLASS 0, 1)]; let n : Int := -59; let s : State := P s fun x => { x with emf := emf0 n }; s.dev.live m ∧ n = s.dev.emfSpeed m ∧ s.dev.spnClass m = 1 ∧ s.dev.mstate m = .spinningUp ∧ n.natAbs < 60) ∧
    (let m : Mech := 0; let s : State := R (I (st .spinningUp) [] [rc 0x50 [5000, 30]]) [(Reg.SPN_STATE_CLASS 0, 1)]; let n : Int := 60; let s : State := P s fun x => { x with emf := emf0 n }; s.dev.live m ∧ n = s.dev.emfSpeed m ∧ s.dev.spnClass m = 1 ∧ s.dev.mstate m = .spinningUp ∧ 60 ≤ n ∧ n ≤ 2 * (s.dev.profileRpm m : Int)) ∧
    (let m : Mech := 0; let s : State := R (I (st .spinningUp) [] [rc 0x50 [5000, 30]]) [(Reg.SPN_STATE_CLASS 0, 1)]; let n : Int := 61; let s : State := P s fun x => { x with emf := emf0 n }; s.dev.live m ∧ n = s.dev.emfSpeed m ∧ s.dev.spnClass m = 1 ∧ s.dev.mstate m = .spinningUp ∧ 60 ≤ n ∧ 2 * (s.dev.profileRpm m : Int) < n) ∧
    (let m : Mech := 0; let s : State := R (st .spinningUp) [(Reg.SPN_STATE_CLASS 0, 1), (Reg.SPN_LIM0_BACK_THR 0, 31)]; let n : Int := -61; let s : State := P s fun x => { x with emf := emf0 n }; s.dev.live m ∧ n = s.dev.emfSpeed m ∧ s.dev.spnClass m = 1 ∧ s.dev.mstate m = .spinningUp ∧ n ≤ -60 ∧ -(2 * (s.dev.get (Reg.SPN_LIM0_BACK_THR m) : Int)) < n) ∧
    (let m : Mech := 0; let s : State := R (st .spinningUp) [(Reg.SPN_STATE_CLASS 0, 1), (Reg.SPN_LIM0_BACK_THR 0, 31)]; let n : Int := -62; let s : State := P s fun x => { x with emf := emf0 n }; s.dev.live m ∧ n = s.dev.emfSpeed m ∧ s.dev.spnClass m = 1 ∧ s.dev.mstate m = .spinningUp ∧ n ≤ -60 ∧ n ≤ -(2 * (s.dev.get (Reg.SPN_LIM0_BACK_THR m) : Int))) ∧
    (let m : Mech := 0; let s : State := M (R (st .spinningUp) [(Reg.SPN_STATE_CLASS 0, 1)]) fun x => { x with spn := { x.spn with fluxBuild := true } }; let s : State := R s [(Reg.SPN_STATE_CLASS 0, 2)]; s.dev.live m ∧ s.dev.spnClass m = 2 ∧ (s.dev.mx m).spn.fluxBuild = true) ∧
    (let m : Mech := 0; let s : State := R (st .spinningDown) [(Reg.SPN_STATE_CLASS 0, 4)]; s.dev.live m ∧ s.dev.spnClass m = 4 ∧ (s.dev.mx m).spn.speed.natAbs < 60 ∧ s.dev.mstate m = .spinningDown) ∧
    (let m : Mech := 0; let s : State := R (st .spinningDown) [(Reg.SPN_STATE_CLASS 0, 5), (Reg.SPN_STATE_SHORT 0, 1)]; s.dev.live m ∧ s.dev.spnClass m = 5 ∧ (s.dev.mx m).spn.releasing = false) ∧
    (let m : Mech := 0; let s : State := M (R (st .spinningDown) [(Reg.SPN_STATE_CLASS 0, 5), (Reg.SPN_LIM0_BACK_THR 0, 31)]) fun x => { x with spn := { x.spn with releasing := true } }; let n : Int := -62; let s : State := P s fun x => { x with emf := emf0 n }; s.dev.live m ∧ n = s.dev.emfSpeed m ∧ s.dev.spnClass m = 5 ∧ (s.dev.mx m).spn.releasing = true ∧ (s.dev.mx m).spn.comFail = false ∧ 2 * s.dev.get (Reg.SPN_LIM0_BACK_THR m) ≤ n.natAbs) ∧
    (let m : Mech := 0; let s : State := M (R (st .spinningDown) [(Reg.SPN_STATE_CLASS 0, 5), (Reg.SPN_LIM0_BACK_THR 0, 31)]) fun x => { x with spn := { x.spn with releasing := true } }; let n : Int := 59; let s : State := P s fun x => { x with emf := emf0 n }; s.dev.live m ∧ n = s.dev.emfSpeed m ∧ s.dev.spnClass m = 5 ∧ (s.dev.mx m).spn.releasing = true ∧ (s.dev.mx m).spn.comFail = false ∧ n.natAbs < 60 ∧ 60 < 2 * s.dev.get (Reg.SPN_LIM0_BACK_THR m) ∧ s.dev.mstate m = .spinningDown) := by
  refine ⟨?_, ?_, ?_, ?_, ?_, ?_, ?_, ?_, ?_, ?_⟩ <;> (dsimp only; decide +kernel)

/-- The hypotheses of `Obligations.BusThresholds` are met: one state and operands for each of its clauses that has any. -/
theorem witness_BusThresholds :
    (let m : Mech := 0; let s : State := R up0 [(Reg.SPN_THR0_CHOP_ON_V 0, 30000), (Reg.SPN_THR0_CHOP_OFF_V 0, 29000)]; let v : Nat := 30000; s.dev.live m ∧ s.dev.spnClass m ≠ 7 ∧ s.dev.get (Reg.SPN_STATE_CHOP_BAD m) = 0 ∧ (s.dev.mx m).spn.busBad = false ∧ s.dev.get (Reg.SPN_THR0_CHOP_ON_V m) ≤ min 65535 v) ∧
    (let m : Mech := 0; let s : State := M (R up0 [(Reg.SPN_THR0_CHOP_ON_V 0, 30000), (Reg.SPN_THR0_CHOP_OFF_V 0, 29000)]) fun x => { x with pins := { x.pins with chop := true } }; let v : Nat := 28999; s.dev.live m ∧ s.dev.spnClass m ≠ 7 ∧ s.dev.get (Reg.SPN_STATE_CHOP_BAD m) = 0 ∧ (s.dev.mx m).spn.busBad = false ∧ min 65535 v < s.dev.get (Reg.SPN_THR0_CHOP_ON_V m) ∧ min 65535 v < s.dev.get (Reg.SPN_THR0_CHOP_OFF_V m)) ∧
    (let m : Mech := 0; let s : State := M up0 fun x => { x with pins := { x.pins with chop := true } }; let s : State := P s fun x => { x with chopLow := 1000000000 }; s.dev.live m ∧ (s.dev.mx m).pins.chop = true ∧ s.dev.get (Reg.SPN_STATE_CHOP_BAD m) = 0 ∧ 1000 * s.dev.get (Reg.SPN_CHOP_CFG_CHOP_DET m) ≤ (s.dev.mx m).spn.chopLow) ∧
    (let m : Mech := 0; let s : State := R (st .spinningDown) [(Reg.SPN_STATE_CLASS 0, 4)]; s.dev.live m ∧ (s.dev.segment m).filter s.dev.spnLive = [m] ∧ s.dev.generating m = true) ∧
    (let m : Mech := 0; let s : State := R (st .tracking) [(Reg.SPN_STATE_CLASS 0, 6)]; s.dev.live m ∧ s.dev.spnClass m = 6) ∧
    (let m : Mech := 0; let s : State := st .tracking; s.dev.live m ∧ s.dev.mstate m = .tracking) ∧
    (let m : Mech := 0; let s : State := M (R (st .tracking) [(Reg.SPN_STATE_CLASS 0, 6)]) fun x => { x with spn := { x.spn with wasBraking := true } }; s.dev.live m ∧ (s.dev.segment m).filter s.dev.spnLive = [m] ∧ s.dev.spnClass m = 6) ∧
    (let m : Mech := 0; let s : State := R (st .tracking) [(Reg.SPN_STATE_CLASS 0, 3)]; s.dev.live m) := by
  refine ⟨?_, ?_, ?_, ?_, ?_, ?_, ?_, ?_⟩ <;> (dsimp only; decide +kernel)

/-- The hypotheses of `Obligations.SpindleFaults` are met: one state and operands for each of its clauses that has any. -/
theorem witness_SpindleFaults :
    (let m : Mech := 0; let s : State := R (st .tracking) [(Reg.SPN_STATE_CLASS 0, 2)]; let s : State := P s fun x => { x with fluxBad := 10000000 }; s.dev.live m ∧ s.dev.mstate m = .tracking ∧ s.dev.spnClass m = 2 ∧ s.dev.commBad m = true) ∧
    (let m : Mech := 0; let s : State := R (st .tracking) [(Reg.SPN_STATE_CLASS 0, 2), (Reg.SPN_STATE_UV 0, 1)]; s.dev.live m ∧ s.dev.mstate m = .tracking ∧ s.dev.spnClass m = 2 ∧ s.dev.get (Reg.SPN_STATE_UV m) = 1) ∧
    (let m : Mech := 0; let s : State := R (st .tracking) [(Reg.SPN_STATE_CLASS 0, 2)]; let cur : Nat := 1; s.dev.live m ∧ s.dev.spnClass m = 2 ∧ (s.dev.srec m 0x50).f 4 16 16 < cur) ∧
    (let m : Mech := 0; let s : State := st .tracking; let k : Fin 8 := 2; s.dev.live m ∧ k.val ≤ 2) ∧
    (let m : Mech := 0; let s : State := st .tracking; let k : Fin 8 := 6; s.dev.live m ∧ 3 ≤ k.val ∧ k.val ≤ 6 ∧ s.dev.mstate m = .tracking) ∧
    (let m : Mech := 0; let s : State := P (R (st .spinningUp) [(Reg.SPN_STATE_CLASS 0, 1), (Reg.SPN_LIM1_KE 0, 100)]) fun x => { x with emf := emf0 10000 }; let ke : Nat := 200; s.dev.live m ∧ s.dev.keOf m = some ke ∧ (s.dev.spnClass m = 1 ∨ (s.dev.mx m).spn.window ≠ .none) ∧ 0 < s.dev.get (Reg.SPN_LIM1_KE m)) ∧
    (let m : Mech := 0; let s : State := R (st .tracking) [(Reg.SPN_STATE_KE_BAD 0, 1), (Reg.SPN_STATE_CHOP_BAD 0, 1)]; s.dev.live m) ∧
    (let m : Mech := 0; let s : State := up0; let w : Word := 0x05804032; s.dev.live m ∧ s.dev.spnClass m = 0 ∧ 8 ≤ bits w.toNat 0 8 ∧ bits w.toNat 0 8 ≤ 50 ∧ 8 ≤ bits w.toNat 8 8 ∧ bits w.toNat 8 8 ≤ 64 ∧ 8 ≤ bits w.toNat 16 8 ∧ bits w.toNat 16 8 ≤ 128) ∧
    (let m : Mech := 0; let s : State := R up0 [(Reg.SPN_STATE_CLASS 0, 1)]; let w : Word := 0x080808; let bad : Bool := false; s.dev.live m ∧ (bad = decide (bits w.toNat 0 8 < 8 ∨ 50 < bits w.toNat 0 8 ∨ bits w.toNat 8 8 < 8 ∨ 64 < bits w.toNat 8 8 ∨ bits w.toNat 16 8 < 8 ∨ 128 < bits w.toNat 16 8)) ∧ s.dev.spnClass m ≠ 0 ∧ bad = false) ∧
    (let m : Mech := 0; let s : State := R up0 [(Reg.SPN_STATE_CLASS 0, 0)]; let w : Word := 0; let bad : Bool := true; s.dev.live m ∧ (bad = decide (bits w.toNat 0 8 < 8 ∨ 50 < bits w.toNat 0 8 ∨ bits w.toNat 8 8 < 8 ∨ 64 < bits w.toNat 8 8 ∨ bits w.toNat 16 8 < 8 ∨ 128 < bits w.toNat 16 8)) ∧ s.dev.spnClass m = 0 ∧ bad = true) ∧
    (let m : Mech := 0; let s : State := R up0 [(Reg.SPN_STATE_CLASS 0, 1)]; let w : Word := 0; let bad : Bool := true; s.dev.live m ∧ (bad = decide (bits w.toNat 0 8 < 8 ∨ 50 < bits w.toNat 0 8 ∨ bits w.toNat 8 8 < 8 ∨ 64 < bits w.toNat 8 8 ∨ bits w.toNat 16 8 < 8 ∨ 128 < bits w.toNat 16 8)) ∧ s.dev.spnClass m ≠ 0 ∧ bad = true) := by
  refine ⟨?_, ?_, ?_, ?_, ?_, ?_, ?_, ?_, ?_, ?_, ?_⟩ <;> (dsimp only; decide +kernel)

/-- The hypotheses of `Obligations.SpindleDrive` are met: one state and operands for each of its clauses that has any. -/
theorem witness_SpindleDrive :
    (let m : Mech := 0; let s : State := R (st .spinningUp) [(Reg.SPN_STATE_CLASS 0, 2)]; s.dev.live m ∧ (s.dev.spnClass m = 2 ∨ s.dev.spnClass m = 4) ∧ (s.dev.mx m).spn.fluxBuild = false ∧ (s.dev.mx m).spn.window = .none) ∧
    (let m : Mech := 0; let s : State := up0; s.dev.live m ∧ (s.dev.spnClass m = 0 ∨ s.dev.spnClass m = 3 ∨ s.dev.spnClass m = 7)) ∧
    (let m : Mech := 0; let s : State := M (R (st .tracking) [(Reg.SPN_STATE_CLASS 0, 3)]) fun x => { x with spn := { x.spn with conduct := 5 } }; s.dev.live m ∧ s.dev.spnClass m = 3) ∧
    (let m : Mech := 0; let s : State := P (R (st .spun) [(Reg.SPN_STATE_CLASS 0, 2)]) fun x => { x with sectorEdge := true, bandRun := 1000000000 }; s.dev.live m ∧ s.dev.handoverDue m = true) ∧
    (let m : Mech := 0; let s : State := R (st .tracking) [(Reg.SPN_STATE_CLASS 0, 3)]; let c : Fin 7 := 5; s.dev.live m ∧ s.dev.spnClass m = 3 ∧ s.dev.handbackHolds m c.val = true ∧ s.dev.get (Reg.FSQ_STAT_RUN m) = 0) ∧
    (let m : Mech := 0; let s : State := P (R (st .writing) [(Reg.SPN_STATE_CLASS 0, 3), (Reg.FSQ_STAT_RUN 0, 1), (Reg.FSQ_STAT_WRITE 0, 1)]) fun x => { x with speed := 12 }; let c : Fin 7 := 1; s.dev.live m ∧ (c = 1 ∨ c = 2 ∨ c = 4) ∧ s.dev.spnClass m = 3 ∧ s.dev.handbackHolds m c.val = true ∧ s.dev.get (Reg.FSQ_STAT_RUN m) = 1 ∧ s.dev.get (Reg.FSQ_STAT_WRITE m) = 1 ∧ (s.dev.mx m).spn.handbackDue = none) ∧
    (let m : Mech := 0; let s : State := M (R (st .reading) [(Reg.SPN_STATE_CLASS 0, 3)]) fun x => { x with opt := { x.opt with swath := 6873 } }; let s : State := P s fun x => { x with indexDue := true }; s.dev.live m ∧ s.dev.spnClass m = 3 ∧ 0 ≤ (s.dev.mx m).spn.speed ∧ (s.dev.mx m).fsq.items = [] ∧ (s.dev.mstate m = .reading ∨ s.dev.mstate m = .writing) ∧ s.dev.spnClass m ≠ 0 ∧ s.dev.spnClass m ≠ 7 ∧ (s.dev.mx m).spn.indexDue = true ∧ ((∀ w ∈ (s.dev.mx m).fsq.items, w.entry ≠ 6))) ∧
    (let m : Mech := 0; let s : State := R (st .tracking) [(Reg.SPN_STATE_CLASS 0, 3)]; let s : State := P s fun x => { x with indexDue := true }; s.dev.live m ∧ s.dev.spnClass m = 3 ∧ 0 ≤ (s.dev.mx m).spn.speed ∧ (s.dev.mx m).fsq.items = [] ∧ s.dev.mstate m = .tracking ∧ s.dev.get (Reg.FSQ_STAT_RUN m) = 0 ∧ s.dev.spnClass m ≠ 0 ∧ s.dev.spnClass m ≠ 7 ∧ (s.dev.mx m).spn.indexDue = true) := by
  refine ⟨?_, ?_, ?_, ?_, ?_, ?_, ?_, ?_⟩ <;> (dsimp only; decide +kernel)

/-- The hypotheses of `Obligations.SledMovesAndCommands` are met: one state and operands for each of its clauses that has any. -/
theorem witness_SledMovesAndCommands :
    (let m : Mech := 0; let s : State := up0; s.dev.live m ∧ s.dev.get (Reg.SLD_STATE_MODE m) = 0) ∧
    (let m : Mech := 0; let s : State := M (R (st .seeking) [(Reg.SLD_STATE_MODE 0, 2)]) fun x => { x with sld := { x.sld with stopping := true } }; s.dev.live m ∧ s.dev.get (Reg.SLD_STATE_MODE m) = 2 ∧ (s.dev.mx m).sld.stopping = true ∧ (s.dev.mx m).sld.limStop = false ∧ (s.dev.mx m).sld.vel = 0 ∧ s.dev.get (Reg.SLD_STATE_LIM m) = 0) ∧
    (let m : Mech := 0; let s : State := M (R (st .seeking) [(Reg.SLD_STATE_MODE 0, 2)]) fun x => { x with sld := { x.sld with seekMove := true, target := 77 }, opt := { x.opt with seek := .sledMove } }; let s : State := L s fun x => { x with pos := 77 * Dev.ustep }; s.dev.live m ∧ s.dev.get (Reg.SLD_STATE_MODE m) = 2 ∧ (s.dev.mx m).sld.stopping = false ∧ (s.dev.mx m).sld.limStop = false ∧ (s.dev.mx m).sld.pos = (s.dev.mx m).sld.target * Dev.ustep ∧ (s.dev.mx m).sld.vel = 0 ∧ (s.dev.mx m).sld.after = none ∧ (s.dev.mx m).sld.seekMove = true ∧ (s.dev.mx m).opt.seek = .sledMove) ∧
    (let m : Mech := 0; let s : State := R (st .parked) [(Reg.SLD_STATE_MODE 0, 1), (Reg.SLD_STATE_AT_PARK 0, 1)]; s.dev.live m ∧ s.dev.get (Reg.SLD_STATE_MODE m) = 1 ∧ s.dev.get (Reg.SLD_STATE_AT_PARK m) = 1 ∧ s.dev.mstate m = .parked) ∧
    (let m : Mech := 0; let s : State := R (st .seeking) [(Reg.SLD_STATE_MODE 0, 4), (Reg.SLD_STATE_UV_WAIT 0, 1), (Reg.SLD_STATE_KEPT 0, 1)]; let s : State := R s [(Reg.SLD_STATE_HOMED 0, 1)]; s.dev.live m ∧ s.dev.get (Reg.SLD_STATE_UV_WAIT m) = 1 ∧ s.dev.get (Reg.SLD_STATE_KEPT m) = 1 ∧ s.dev.get (Reg.SPN_STATE_UV m) = 0 ∧ s.dev.get (Reg.SLD_STATE_MODE m) = 4 ∧ s.dev.get (Reg.SLD_STATE_HOMED m) = 1) ∧
    (let m : Mech := 0; let s : State := R (st .seeking) [(Reg.SLD_STATE_MODE 0, 2)]; s.dev.live m ∧ s.dev.get (Reg.SLD_STATE_MODE m) = 2) ∧
    (let m : Mech := 0; let s : State := R (st .seeking) [(Reg.SLD_STATE_MODE 0, 1)]; s.dev.live m ∧ s.dev.get (Reg.SLD_STATE_MODE m) ≠ 2) ∧
    (let m : Mech := 0; let s : State := M (R (st .seeking) [(Reg.SLD_STATE_MODE 0, 4), (Reg.SLD_STATE_KEPT 0, 1), (Reg.SLD_STATE_HOMED 0, 1)]) fun x => { x with sld := { x.sld with keptState := 6, target := 9 } }; s.dev.live m ∧ s.dev.get (Reg.SLD_STATE_MODE m) = 4 ∧ s.dev.get (Reg.SLD_STATE_KEPT m) = 1 ∧ s.dev.get (Reg.SLD_STATE_HOMED m) = 1 ∧ s.dev.get (Reg.SLD_STATE_LIM m) = 0 ∧ (s.dev.mx m).sld.keptState = s.dev.get (Reg.MCH_STATE_STATE m)) ∧
    (let m : Mech := 0; let s : State := R (st .seeking) [(Reg.SLD_STATE_MODE 0, 2)]; s.dev.live m ∧ s.dev.get (Reg.SLD_STATE_MODE m) ≠ 4) ∧
    (let m : Mech := 0; let s : State := up0; let op : BitVec 4 := 3; s.dev.live m ∧ op.toNat ≠ 1 ∧ op.toNat ≠ 2) := by
  refine ⟨?_, ?_, ?_, ?_, ?_, ?_, ?_, ?_, ?_, ?_⟩ <;> (dsimp only; decide +kernel)

/-- The hypotheses of `Obligations.LimitsAndHoming` are met: one state and operands for each of its clauses that has any. -/
theorem witness_LimitsAndHoming :
    (let m : Mech := 0; let s : State := lim (R (st .tracking) [(Reg.SLD_STATE_MODE 0, 3)]) 2; let outer : Bool := true; s.dev.live m ∧ s.dev.bit (Reg.SLD_STATE_LIM m) (b2n outer) = false ∧ s.dev.get (Reg.SLD_STATE_MODE m) ≠ 5 ∧ s.dev.mstate m = .tracking ∧ s.dev.limStable m outer true (s.dev.get (Reg.SLD_CFG2_DEBOUNCE m)) = true) ∧
    (let m : Mech := 0; let s : State := D (R (st .tracking) [(Reg.SLD_STATE_MODE 0, 3)]) fun d => d.modOx fun o => { o with limEdges := o.limEdges.set 0 ([], List.replicate 17 0) }; let outer : Bool := true; s.dev.live m ∧ s.dev.bit (Reg.SLD_STATE_LIM m) (b2n outer) = false ∧ s.dev.get (Reg.SLD_STATE_MODE m) ≠ 5 ∧ s.dev.mstate m = .tracking ∧ 17 ≤ (s.dev.limEdgesOf m outer).length ∧ (s.dev.limEdgesOf m outer).headD 0 ≤ (s.dev.limEdgesOf m outer).getD 16 0 + 1000000) ∧
    (let m : Mech := 0; let s : State := M (R (st .parked) [(Reg.SLD_STATE_MODE 0, 5)]) fun x => { x with sld := { x.sld with homeStep := 1, vel := -5 } }; let s : State := lim s 1; s.dev.live m ∧ s.dev.get (Reg.SLD_STATE_MODE m) = 5 ∧ (s.dev.mx m).sld.homeStep = 1 ∧ (s.dev.mx m).sld.stopping = false ∧ s.dev.get (Reg.SLD_STATE_LIM m) = 0 ∧ s.dev.limStable m false true (s.dev.get (Reg.SLD_CFG2_DEBOUNCE m)) = true ∧ (s.dev.mx m).sld.vel ≠ 0) ∧
    (let m : Mech := 0; let s : State := lim (M (R (st .parked) [(Reg.SLD_STATE_MODE 0, 5)]) fun x => { x with sld := { x.sld with homeStep := 1, vel := -5 } }) 2; s.dev.live m ∧ s.dev.get (Reg.SLD_STATE_MODE m) = 5 ∧ (s.dev.mx m).sld.homeStep = 1 ∧ (s.dev.mx m).sld.stopping = false ∧ s.dev.get (Reg.SLD_STATE_LIM m) = 0 ∧ s.dev.limStable m true true (s.dev.get (Reg.SLD_CFG2_DEBOUNCE m)) = true) ∧
    (let m : Mech := 0; let s : State := M (R (st .parked) [(Reg.SLD_STATE_MODE 0, 5), (Reg.SLD_STATE_LIM 0, 1), (Reg.SLD_PARK_PARK_POS 0, 100)]) fun x => { x with sld := { x.sld with homeStep := 3, vel := 5 } }; let s : State := lim s 0; s.dev.live m ∧ s.dev.get (Reg.SLD_STATE_MODE m) = 5 ∧ (s.dev.mx m).sld.homeStep = 3 ∧ (s.dev.mx m).sld.stopping = false ∧ (s.dev.mx m).sld.chatter = Vector.replicate 2 false ∧ s.dev.limStable m false false (s.dev.get (Reg.SLD_CFG2_DEBOUNCE m)) = true) ∧
    (let m : Mech := 0; let s : State := lim (st .tracking) 3; s.dev.live m ∧ s.dev.mstate m = .tracking ∧ s.dev.get (Reg.SLD_STATE_LIM m) ≠ 3 ∧ s.dev.limStable m false true (s.dev.get (Reg.SLD_CFG2_DEBOUNCE m)) = true ∧ s.dev.limStable m true true (s.dev.get (Reg.SLD_CFG2_DEBOUNCE m)) = true) ∧
    (let m : Mech := 0; let s : State := R (st .off) [(Reg.SLD_STATE_LIM 0, 1)]; s.dev.live m ∧ s.dev.get (Reg.SLD_STATE_MODE m) = 0 ∧ s.dev.get (Reg.SLD_STATE_HOMED m) = 0) ∧
    (let m : Mech := 0; let s : State := L (R (I (st .off) [] [rc 0x51 [0, 0, 6000 + 200 * 65536]]) [(Reg.SLD_STATE_MODE 0, 5)]) fun x => { x with homeStep := 3, pos := 100000000 * Dev.ustep }; let c : Fin 4 := 3; s.dev.live m ∧ s.dev.homingBad m c.val = true ∧ s.dev.get (Reg.SLD_STATE_MODE m) = 5 ∧ (s.dev.mx m).sld.stopping = false) := by
  refine ⟨?_, ?_, ?_, ?_, ?_, ?_, ?_, ?_⟩ <;> (dsimp only; decide +kernel)

/-- The hypotheses of `Obligations.HeadLinkTraining` are met: one state and operands for each of its clauses that has any. -/
theorem witness_HeadLinkTraining :
    (let m : Mech := 0; let s : State := R (st .parked) [(Reg.HLK_STATE_LINK 0, 3), (Reg.HLK_STATE_UP_LOCK 0, 1), (Reg.HLK_RETRAIN_FULL 0, 65535)]; let i := Instr.hlkFull 0; s.dev.live m ∧ s.dev.get (Reg.HLK_STATE_LINK m) ≠ 1 ∧ s.dev.get (Reg.HLK_STATE_LINK m) ≠ 2 ∧ (i = Instr.fullTraining m ∨ i = .hlkFull m)) ∧
    (let m : Mech := 0; let s : State := M (R (st .parked) [(Reg.HLK_STATE_LINK 0, 3)]) fun x => { x with hlk := { x.hlk with taps := some [] } }; let i := Instr.fastRetrain 0; s.dev.live m ∧ s.dev.get (Reg.HLK_STATE_LINK m) ≠ 1 ∧ s.dev.get (Reg.HLK_STATE_LINK m) ≠ 2 ∧ (i = Instr.fastRetrain m ∨ i = .hlkRetrain m)) ∧
    (let m : Mech := 0; let s : State := M (R (st .tracking) [(Reg.HLK_STATE_LINK 0, 3), (Reg.HLK_CFG_ERR_LIMIT 0, 0)]) fun x => { x with hlk := { x.hlk with taps := some [], bad := x.hlk.bad.set 2 [5] } }; let lane : Fin 3 := 2; let i := Instr.errorRateExceeded 0 2; s.dev.live m ∧ s.dev.get (Reg.HLK_STATE_LINK m) = 3 ∧ (i = Instr.blockLockLoss m lane ∨ (i = .errorRateExceeded m lane ∧ s.dev.rateExceeded m lane = true))) ∧
    (let m : Mech := 0; let s : State := R (st .parked) [(Reg.HLK_STATE_LINK 0, 2)]; let r : TrainResult := train0; s.dev.live m ∧ (s.dev.get (Reg.HLK_STATE_LINK m) = 1 ∨ s.dev.get (Reg.HLK_STATE_LINK m) = 2) ∧ r.linkOk = true ∧ r.status.toNat % 8 = 0 ∧ r.id.toNat = (s.dev.srec m 0x20).f 0 16 16) ∧
    (let m : Mech := 0; let s : State := M (R (st .parked) [(Reg.HLK_STATE_LINK 0, 2), (Reg.HLK_CFG_RETRY 0, 2)]) fun x => { x with hlk := { x.hlk with taps := some [], fastFails := 1 } }; let r : TrainResult := { train0 with linkOk := false }; s.dev.live m ∧ (s.dev.get (Reg.HLK_STATE_LINK m) = 1 ∨ s.dev.get (Reg.HLK_STATE_LINK m) = 2) ∧ r.linkOk = false ∧ s.dev.get (Reg.HLK_STATE_LINK m) = 2 ∧ (s.dev.mx m).hlk.taps.isSome = true) ∧
    (let m : Mech := 0; let s : State := R (st .spun) [(Reg.HLK_STATE_LINK 0, 1)]; let r : TrainResult := { train0 with linkOk := false }; s.dev.live m ∧ (s.dev.get (Reg.HLK_STATE_LINK m) = 1 ∨ s.dev.get (Reg.HLK_STATE_LINK m) = 2) ∧ r.linkOk = false ∧ s.dev.get (Reg.HLK_STATE_LINK m) = 1 ∧ s.dev.mstate m = .spun) := by
  refine ⟨?_, ?_, ?_, ?_, ?_, ?_⟩ <;> (dsimp only; decide +kernel)

/-- The hypotheses of `Obligations.UpstreamBlocks` are met: one state and operands for each of its clauses that has any. -/
theorem witness_UpstreamBlocks :
    (let m : Mech := 0; let s : State := R up0 [(Reg.HLK_STATE_LINK 0, 3)]; let lane : Fin 3 := 0; let levels : List (BitVec 2) := []; let d : Dev := (s.dev.hear m lane levels).1; let b : Link.Block := (s.dev.hear m lane levels).2; s.dev.live m ∧ s.dev.get (Reg.HLK_STATE_LINK m) ≠ 0 ∧ s.dev.get (Reg.HLK_STATE_LINK m) ≠ 4 ∧ s.dev.hear m lane levels = (d, b)) ∧
    (let m : Mech := 0; let s : State := R up0 [(Reg.HLK_STATE_LINK 0, 3)]; let lane : Fin 3 := 0; let levels : List (BitVec 2) := List.replicate 988 0 ++ [1]; let d : Dev := (s.dev.hear m lane levels).1; let b : Link.Block := (s.dev.hear m lane levels).2; s.dev.live m ∧ s.dev.get (Reg.HLK_STATE_LINK m) ≠ 0 ∧ s.dev.get (Reg.HLK_STATE_LINK m) ≠ 4 ∧ s.dev.hear m lane levels = (d, b) ∧ b.hdrOk = false) ∧
    (let m : Mech := 0; let s : State := R up0 [(Reg.HLK_STATE_LINK 0, 3)]; let lane : Fin 3 := 0; let levels : List (BitVec 2) := up1 0; let d : Dev := (s.dev.hear m lane levels).1; let b : Link.Block := (s.dev.hear m lane levels).2; let k : Beam := 0; s.dev.live m ∧ s.dev.get (Reg.HLK_STATE_LINK m) ≠ 0 ∧ s.dev.get (Reg.HLK_STATE_LINK m) ≠ 4 ∧ s.dev.hear m lane levels = (d, b) ∧ b.hdrOk = true ∧ b.crcOk = true ∧ b.t.mtype = 0 ∧ b.t.sv = false ∧ b.t.stream = k.val ∧ s.dev.bit (Reg.MCH_BEAM_ENABLE m) k.val = false) ∧
    (let m : Mech := 0; let s : State := M (R up0 [(Reg.HLK_STATE_LINK 0, 3), (Reg.MCH_BEAM_ENABLE 0, 1)]) fun x => { x with hlk := { x.hlk with placed := x.hlk.placed.set 0 (some 100) } }; let lane : Fin 3 := 0; let levels : List (BitVec 2) := up1 0; let d : Dev := (s.dev.hear m lane levels).1; let b : Link.Block := (s.dev.hear m lane levels).2; let k : Beam := 0; let e : Nat := 100; s.dev.live m ∧ s.dev.get (Reg.HLK_STATE_LINK m) ≠ 0 ∧ s.dev.get (Reg.HLK_STATE_LINK m) ≠ 4 ∧ s.dev.hear m lane levels = (d, b) ∧ b.hdrOk = true ∧ b.crcOk = true ∧ b.t.mtype = 0 ∧ b.t.sv = false ∧ b.t.stream = k.val ∧ s.dev.bit (Reg.MCH_BEAM_ENABLE m) k.val = true ∧ (s.dev.mx m).hlk.placed[k.val] = some e ∧ (s.dev.mx m).hlk.part[k.val] = none ∧ (s.dev.mx m).rch.frames = [] ∧ 0 ≤ Link.cbcDiff b.t.pos e) := by
  refine ⟨?_, ?_, ?_, ?_⟩ <;> (dsimp only; decide +kernel)

/-- The hypotheses of `Obligations.HeadMessages` are met: one state and operands for each of its clauses that has any. -/
theorem witness_HeadMessages :
    (let m : Mech := 0; let e : HlkTag := ⟨3, false, 5, 0, true, 0⟩; let s : State := M (R up0 [(Reg.HLK_STATE_LINK 0, 3), (Reg.HLK_REG_STAT_RESULT 0, 1)]) fun x => { x with hlk := { x.hlk with tags := [e] } }; let tag : BitVec 4 := 3; s.dev.live m ∧ ((s.dev.mx m).hlk.tags.find? (fun e => decide (e.tag = tag.toNat)) = some e) ∧ e.host = true ∧ (s.dev.mx m).hlk.waiting = []) ∧
    (let m : Mech := 0; let e : HlkTag := ⟨3, false, 5, 0, true, 1⟩; let s : State := M (R up0 [(Reg.HLK_STATE_LINK 0, 3), (Reg.HLK_REG_STAT_RESULT 0, 1)]) fun x => { x with hlk := { x.hlk with tags := [e] } }; let tag : BitVec 4 := 3; s.dev.live m ∧ ((s.dev.mx m).hlk.tags.find? (fun e => decide (e.tag = tag.toNat)) = some e) ∧ e.host = true ∧ (s.dev.mx m).hlk.waiting = [] ∧ s.dev.get (Reg.HLK_STATE_LINK m) = 3 ∧ e.tries < 2) ∧
    (let m : Mech := 0; let e : HlkTag := ⟨3, false, 5, 0, true, 2⟩; let s : State := M (R up0 [(Reg.HLK_STATE_LINK 0, 3), (Reg.HLK_REG_STAT_RESULT 0, 1)]) fun x => { x with hlk := { x.hlk with tags := [e] } }; let tag : BitVec 4 := 3; s.dev.live m ∧ ((s.dev.mx m).hlk.tags.find? (fun e => decide (e.tag = tag.toNat)) = some e) ∧ e.host = true ∧ (s.dev.mx m).hlk.waiting = [] ∧ s.dev.get (Reg.HLK_STATE_LINK m) = 3 ∧ 2 ≤ e.tries) ∧
    (let m : Mech := 0; let s : State := M (st .writing) fun x => { x with gate := { x.gate with wopen := 3 } }; s.dev.live m) ∧
    (let m : Mech := 0; let s : State := R up0 [(Reg.HLK_REG_DATA_DATA 0, 7)]; let w : Word := 0x8001FFFF; s.dev.live m ∧ w.toNat.testBit 31 = true ∧ s.dev.get (Reg.HLK_REG_STAT_RESULT m) ≠ 1 ∧ s.dev.get (Reg.HLK_STATE_LINK m) ≠ 3) ∧
    (let m : Mech := 0; let s : State := R up0 [(Reg.HLK_STATE_LINK 0, 3)]; let w : Word := 0x80000000; s.dev.live m ∧ w.toNat.testBit 31 = true ∧ s.dev.get (Reg.HLK_REG_STAT_RESULT m) ≠ 1 ∧ s.dev.get (Reg.HLK_STATE_LINK m) = 3 ∧ (s.dev.mx m).hlk.waiting = [] ∧ (s.dev.mx m).hlk.tags = []) ∧
    (let m : Mech := 0; let s : State := R up0 [(Reg.HLK_REG_STAT_RESULT 0, 1)]; let w : Word := 0x8001FFFF; s.dev.live m ∧ w.toNat.testBit 31 = true ∧ s.dev.get (Reg.HLK_REG_STAT_RESULT m) = 1) := by
  refine ⟨?_, ?_, ?_, ?_, ?_, ?_, ?_⟩ <;> (dsimp only; decide +kernel)

/-- The hypotheses of `Obligations.SequencerRuns` are met: one state and operands for each of its clauses that has any. -/
theorem witness_SequencerRuns :
    (let m : Mech := 0; let s : State := R up0 [(Reg.FSQ_STAT_BUSY 0, 1)]; s.dev.live m ∧ s.dev.get (Reg.FSQ_STAT_BUSY m) ≠ 0) ∧
    (let m : Mech := 0; let s : State := M (R (st .tracking) [(Reg.HLK_STATE_LINK 0, 3)]) fun x => { x with fsq := { x.fsq with banks := x.fsq.banks.set 0 (bank0 [1, 2, 3, 4, 5, 6]), addrCheck := true } }; s.dev.live m ∧ s.dev.get (Reg.FSQ_STAT_BUSY m) = 0 ∧ s.dev.get (Reg.FSQ_UCODE_STAT_SWAP_ARMED m) = 0 ∧ s.dev.get (Reg.FSQ_STAT_HALTED m) = 0 ∧ (s.dev.activeBank m).loaded = true ∧ (s.dev.mx m).fsq.nextSwathMask = false ∧ s.dev.get (Reg.HLK_STATE_LINK m) = 3 ∧ ((s.dev.mstate m = .tracking → (s.dev.mx m).opt.cal = .none)) ∧ (s.dev.mstate m = .seeking ∨ s.dev.following m = true) ∧ (s.dev.mx m).fsq.addrCheck = true) ∧
    (let m : Mech := 0; let s : State := R (st .tracking) [(Reg.FSQ_STAT_BUSY 0, 1), (Reg.FSQ_CFG_RESTART_MAX 0, 0)]; s.dev.live m ∧ s.dev.get (Reg.FSQ_STAT_BUSY m) ≠ 0 ∧ (s.dev.mx m).fsq.abandoned = false ∧ s.dev.fsqLive m (s.dev.entryOf m) = false) ∧
    (let m : Mech := 0; let s : State := M (R (st .tracking) [(Reg.FSQ_STAT_BUSY 0, 1), (Reg.HLK_STATE_LINK 0, 3)]) fun x => { x with fsq := { x.fsq with abandoned := true, snap := { x.fsq.snap with point := 4095 } } }; s.dev.live m ∧ s.dev.get (Reg.FSQ_STAT_BUSY m) ≠ 0 ∧ (s.dev.mx m).fsq.abandoned = true ∧ s.dev.fsqLive m (s.dev.entryOf m) = true) ∧
    (let m : Mech := 0; let s : State := R (st .tracking) [(Reg.FSQ_STAT_BUSY 0, 1), (Reg.HLK_STATE_LINK 0, 3), (Reg.FSQ_STAT_PC 0, 4095)]; s.dev.live m ∧ s.dev.get (Reg.FSQ_STAT_BUSY m) ≠ 0 ∧ (s.dev.mx m).fsq.abandoned = false) ∧
    (let m : Mech := 0; let s : State := R (st .tracking) [(Reg.FSQ_STAT_HALTED 0, 1)]; s.dev.live m) := by
  refine ⟨?_, ?_, ?_, ?_, ?_, ?_⟩ <;> (dsimp only; decide +kernel)

/-- The hypotheses of `Obligations.UserRoutines` are met: one state and operands for each of its clauses that has any. -/
theorem witness_UserRoutines :
    (let m : Mech := 0; let s : State := M (st .tracking) fun x => { x with fsq := { x.fsq with banks := x.fsq.banks.set 0 (bank0 (List.replicate 16 0)) } }; let w : Word := 0x3E; let v : BitVec 128 := 0; s.dev.live m ∧ s.dev.mstate m = .tracking ∧ 10 ≤ bits w.toNat 2 4 ∧ (s.dev.activeBank m).words[bits w.toNat 2 4]? = some v ∧ Ucode.seq v ≠ 9) ∧
    (let m : Mech := 0; let s : State := st .tracking; let w : Word := 0x2A; s.dev.live m ∧ (s.dev.mstate m ≠ .tracking ∨ bits w.toNat 2 4 < 10 ∨ (s.dev.activeBank m).words[bits w.toNat 2 4]? = none ∨ ((s.dev.activeBank m).words[bits w.toNat 2 4]?.map Ucode.seq) = some 9)) := by
  refine ⟨?_, ?_⟩ <;> (dsimp only; decide +kernel)

/-- The hypotheses of `Obligations.MicroWords` are met: one state and operands for each of its clauses that has any. -/
theorem witness_MicroWords :
    (let m : Mech := 0; let s : State := R (st .tracking) [(Reg.FSQ_STAT_BUSY 0, 1), (Reg.HLK_STATE_LINK 0, 3), (Reg.FSQ_STAT_PC 0, 3)]; let i : FsqInputs := ⟨0, none, .double⟩; s.dev.live m ∧ s.dev.get (Reg.FSQ_STAT_BUSY m) ≠ 0 ∧ (s.dev.mx m).fsq.abandoned = false ∧ s.dev.fsqLive m (s.dev.entryOf m) = true ∧ i.ecc = .double) ∧
    (let m : Mech := 0; let s : State := R (st .tracking) [(Reg.FSQ_STAT_BUSY 0, 1), (Reg.HLK_STATE_LINK 0, 3), (Reg.FSQ_STAT_PC 0, 3)]; let i : FsqInputs := ⟨0, none, .clean⟩; s.dev.live m ∧ s.dev.get (Reg.FSQ_STAT_BUSY m) ≠ 0 ∧ (s.dev.mx m).fsq.abandoned = false ∧ s.dev.fsqLive m (s.dev.entryOf m) = true ∧ i.ecc = .clean ∧ (s.dev.activeBank m).words[s.dev.get (Reg.FSQ_STAT_PC m)]? = none) ∧
    (let m : Mech := 0; let w : BitVec 128 := uword 6 13 0 0 0 0 0; let s : State := M (R (st .tracking) [(Reg.FSQ_STAT_BUSY 0, 1), (Reg.HLK_STATE_LINK 0, 3)]) fun x => { x with fsq := { x.fsq with banks := x.fsq.banks.set 0 (bank0 [w]) } }; let i : FsqInputs := ⟨0, none, .clean⟩; s.dev.live m ∧ s.dev.get (Reg.FSQ_STAT_BUSY m) ≠ 0 ∧ (s.dev.mx m).fsq.abandoned = false ∧ s.dev.fsqLive m (s.dev.entryOf m) = true ∧ i.ecc = .clean ∧ (s.dev.activeBank m).words[s.dev.get (Reg.FSQ_STAT_PC m)]? = some w ∧ Ucode.seq w = 6 ∧ Ucode.cond w = 13 ∧ (s.dev.mx m).fsq.zero = false) ∧
    (let m : Mech := 0; let w : BitVec 128 := uword 0 0 2 1 2 3 0; let s : State := M (R (st .tracking) [(Reg.FSQ_STAT_BUSY 0, 1), (Reg.HLK_STATE_LINK 0, 3), (Reg.FSQ_WK_VALUE 0 2, 0xFFFFFFFF), (Reg.FSQ_WK_VALUE 0 3, 2)]) fun x => { x with fsq := { x.fsq with banks := x.fsq.banks.set 0 (bank0 [w]) } }; let i : FsqInputs := ⟨0, none, .clean⟩; s.dev.live m ∧ s.dev.get (Reg.FSQ_STAT_BUSY m) ≠ 0 ∧ (s.dev.mx m).fsq.abandoned = false ∧ s.dev.fsqLive m (s.dev.entryOf m) = true ∧ i.ecc = .clean ∧ (s.dev.activeBank m).words[s.dev.get (Reg.FSQ_STAT_PC m)]? = some w ∧ Ucode.gate w = 0 ∧ Ucode.req w = 0 ∧ Ucode.commit w = false ∧ (Ucode.seq w = 0 ∨ Ucode.seq w = 1)) := by
  refine ⟨?_, ?_, ?_, ?_⟩ <;> (dsimp only; decide +kernel)

/-- The hypotheses of `Obligations.GatesAndRevolutionMark` are met: one state and operands for each of its clauses that has any. -/
theorem witness_GatesAndRevolutionMark :
    (let m : Mech := 0; let s : State := st .tracking; let b : Beam := 15; s.dev.live m ∧ (s.dev.mx m).fsq.armedClose[b.val] = none ∧ (s.dev.mx m).fsq.armedOpen[b.val] = none ∧ (s.dev.mx m).gate.inBlock = false) ∧
    (let m : Mech := 0; let s : State := M (st .tracking) fun x => { x with fsq := { x.fsq with armedOpen := x.fsq.armedOpen.set 15 (some ⟨9, false⟩) } }; let b : Beam := 15; let cb : Nat := 9; s.dev.live m ∧ (s.dev.mx m).fsq.armedClose[b.val] = none ∧ (s.dev.mx m).fsq.armedOpen[b.val] = some ⟨cb, false⟩ ∧ s.dev.following m = true) ∧
    (let m : Mech := 0; let s : State := M (st .tracking) fun x => { x with fsq := { x.fsq with armedOpen := x.fsq.armedOpen.set 15 (some ⟨9, true⟩) }, srv := { x.srv with inhibit := 0x8000 } }; let b : Beam := 15; let cb : Nat := 9; s.dev.live m ∧ (s.dev.mx m).fsq.armedClose[b.val] = none ∧ (s.dev.mx m).fsq.armedOpen[b.val] = some ⟨cb, true⟩ ∧ s.dev.following m = true ∧ tbit (s.dev.mx m).srv.inhibit b.val = true) ∧
    (let m : Mech := 0; let s : State := M (st .reading) fun x => { x with fsq := { x.fsq with armedClose := x.fsq.armedClose.set 15 (some 9) }, gate := { x.gate with ropen := 0x8000, inBlock := true } }; let b : Beam := 15; let cb : Nat := 9; s.dev.live m ∧ (s.dev.mx m).fsq.armedClose[b.val] = some cb ∧ (s.dev.mx m).fsq.armedOpen[b.val] = none) ∧
    (let m : Mech := 0; let s : State := st .seeking; s.dev.live m ∧ s.dev.following m = false) ∧
    (let m : Mech := 0; let s : State := R (st .reading) [(Reg.FSQ_STAT_BUSY 0, 1)]; s.dev.live m ∧ s.dev.following m = true ∧ s.dev.get (Reg.FSQ_STAT_BUSY m) ≠ 0) := by
  refine ⟨?_, ?_, ?_, ?_, ?_, ?_⟩ <;> (dsimp only; decide +kernel)

/-- The hypotheses of `Obligations.RecordedBlocks` are met: one state and operands for each of its clauses that has any. -/
theorem witness_RecordedBlocks :
    (let m : Mech := 0; let b : Blk := { blk0 with phase := .placed, mech := some 0 }; let i : Nat := 4; let s : State := M (B (st .tracking) fun x => { x with blocks := [(4, b)] }) fun x => { x with wch := { x.wch with load := some 4 } }; s.dev.live m ∧ (s.dev.mx m).wch.load = some i ∧ (s.dev.mx m).wch.ready = false ∧ s.dev.blk i = some b ∧ b.mech = some m.val ∧ (b.phase = .placed ∨ b.phase = .copying)) ∧
    (let m : Mech := 0; let pba : Word := 9; let v : VerifyRec := ⟨9, true, [(0, 10)]⟩; let e : Nat × Blk := (4, { blk0 with phase := .written, mech := some 0, pba := 9 }); let s : State := M (B (st .tracking) fun x => { x with blocks := [e] }) fun x => { x with rch := { x.rch with verify := [v] } }; let cls : Nat := s.dev.ganderClass m v.found [] (s.dev.loads m v.w []); s.dev.live m ∧ (s.dev.bufx.blocks.find? (fun b => decide (b.2.mech = some m.val ∧ b.2.pba = pba.toNat ∧ b.2.phase = .written)) = some e) ∧ (s.dev.mx m).gate.ended = [] ∧ (v = ((s.dev.mx m).rch.verify.find? (fun v => decide (v.pba = pba.toNat))).getD ⟨pba.toNat, false, []⟩) ∧ cls = s.dev.ganderClass m v.found [] (s.dev.loads m v.w [])) ∧
    (let m : Mech := 0; let g : Group := group0; let gid : Nat := 3; let s : State := A (st .tracking) fun a => { a with groups := [g] }; s.dev.live m ∧ (s.dev.arc.groups.find? (fun g => decide (g.ident = gid)) = some g) ∧ g.mech = m.val ∧ g.closed = false ∧ g.opened ≠ none) ∧
    (let m : Mech := 0; let b : Blk := { blk0 with phase := .filling, pool := .staging }; let i : Nat := 4; let s : State := B up0 fun x => { x with blocks := [(4, b)] }; s.dev.live m ∧ s.dev.blk i = some b ∧ b.phase = .filling) ∧
    (let m : Mech := 0; let b : Blk := { blk0 with phase := .placed, mech := some 0 }; let i : Nat := 4; let s : State := B (st .tracking) fun x => { x with blocks := [(4, b)] }; s.dev.live m ∧ s.dev.blk i = some b ∧ b.mech = some m.val ∧ b.phase = .placed ∧ (s.dev.mx m).wch.load ≠ some i) := by
  refine ⟨?_, ⟨?_, ?_, ?_, ?_, rfl⟩, ?_, ?_, ?_⟩ <;> (dsimp only; decide +kernel)

/-- The hypotheses of `Obligations.DecodedBlocks` are met: one state and operands for each of its clauses that has any. -/
theorem witness_DecodedBlocks :
    (let m : Mech := 0; let s : State := up0; s.dev.live m ∧ (s.dev.mx m).rch.jobs = []) ∧
    (let m : Mech := 0; let j : CwJob := ⟨9, 0, 4, [], true⟩; let rest : List CwJob := []; let o : CwOutcome := .backlog; let bs : List Bool := []; let s : State := M up0 fun x => { x with rch := { x.rch with jobs := [j] } }; s.dev.live m ∧ (s.dev.mx m).rch.jobs = j :: rest ∧ s.dev.cwOutcome m j = (o, bs)) ∧
    (let m : Mech := 0; let pba : Word := 9; let r : ReadBlk := read0 .coded 0xFFFF; let s : State := Rd (st .tracking) r; s.dev.live m ∧ s.dev.readAt m (s.dev.remap m pba.toNat) = some r ∧ r.left = 0 ∧ r.fate = .coded ∧ r.good = 0xFFFF) ∧
    (let m : Mech := 0; let pba : Word := 9; let r : ReadBlk := read0 .blank 0; let s : State := Rd (st .tracking) r; s.dev.live m ∧ s.dev.readAt m (s.dev.remap m pba.toNat) = some r ∧ r.left = 0 ∧ r.fate = .blank) ∧
    (let m : Mech := 0; let pba : Word := 9; let r : ReadBlk := read0 .coded 0xFFFE; let s : State := Rd (M (st .tracking) fun x => { x with mch := { x.mch with held := [⟨⟨none, .read, 9⟩, 0, false⟩] } }) r; s.dev.live m ∧ s.dev.readAt m (s.dev.remap m pba.toNat) = some r ∧ r.left = 0 ∧ r.fate ≠ .blank ∧ (r.fate ≠ .coded ∨ r.good ≠ 0xFFFF) ∧ s.dev.wantedBlk m pba.toNat = true ∧ ((∀ x ∈ (s.dev.mx m).goat.ctxs, x.pba ≠ pba.toNat)) ∧ ((∀ x ∈ (s.dev.mx m).goat.waiting, x.1 ≠ pba.toNat)) ∧ (s.dev.mx m).goat.ctxs.length < 8) := by
  refine ⟨?_, ?_, ?_, ?_, ?_⟩ <;> (dsimp only; decide +kernel)

/-- The hypotheses of `Obligations.RecoveryLadder` are met: one state and operands for each of its clauses that has any. -/
theorem witness_RecoveryLadder :
    (let m : Mech := 0; let s : State := M (R (st .tracking) [(Reg.GOAT_CFG_REREAD_N 0, 2)]) fun x => { x with goat := { x.goat with waiting := [(9, 0xFFFE, 3)] } }; let pba : Word := 9; let conv : Nat := 0xFFFE; let t : Nat := 3; let rest : List (Nat × Nat × Nat) := []; let s : State := R s [(Reg.GOAT_CFG_SKIP_EN 0, 0)]; s.dev.live m ∧ (s.dev.mx m).goat.waiting = (pba.toNat, conv, t) :: rest ∧ (s.dev.mx m).goat.ctxs.length < 8 ∧ ((∀ c ∈ (s.dev.mx m).goat.ctxs, c.pba ≠ pba.toNat)) ∧ s.dev.get (Reg.GOAT_CFG_REREAD_N m) ≠ 0 ∧ s.dev.get (Reg.GOAT_CFG_SKIP_EN m) = 0) ∧
    (let m : Mech := 0; let c : GoatCtx := ctx0; let r : ReadBlk := read0 .coded 1; let s : State := Rd (M (R (st .tracking) [(Reg.GOAT_CFG_REREAD_N 0, 4)]) fun x => { x with goat := { x.goat with ctxs := [c] } }) r; let pba : Word := 9; s.dev.live m ∧ s.dev.ctx m pba.toNat = some c ∧ c.ended = false ∧ c.rung = 1 ∧ c.converged ≠ 0xFFFF ∧ s.dev.readAt m c.media = some r ∧ r.left = 0 ∧ c.converged ||| r.good = 0xFFFF) ∧
    (let m : Mech := 0; let c : GoatCtx := ctx0; let r : ReadBlk := read0 .coded 0; let s : State := Rd (M (R (st .tracking) [(Reg.GOAT_CFG_REREAD_N 0, 2)]) fun x => { x with goat := { x.goat with ctxs := [c] } }) r; let pba : Word := 9; s.dev.live m ∧ s.dev.ctx m pba.toNat = some c ∧ c.ended = false ∧ c.rung = 1 ∧ c.converged ≠ 0xFFFF ∧ s.dev.readAt m c.media = some r ∧ r.left = 0 ∧ c.converged ||| r.good ≠ 0xFFFF ∧ c.reads + 1 < s.dev.get (Reg.GOAT_CFG_REREAD_N m)) ∧
    (let m : Mech := 0; let c : GoatCtx := ctx0; let s : State := M (st .tracking) fun x => { x with goat := { x.goat with ctxs := [c] } }; let pba : Word := 9; s.dev.live m ∧ s.dev.ctx m pba.toNat = some c) ∧
    (let m : Mech := 0; let c : GoatCtx := { ctx0 with rung := 7 }; let s : State := M (st .tracking) fun x => { x with goat := { x.goat with ctxs := [c] } }; let pba : Word := 9; s.dev.live m ∧ s.dev.ctx m pba.toNat = some c ∧ c.ended = false ∧ c.rung = 7 ∧ c.converged ≠ 0xFFFF ∧ c.skipped = false ∧ ((∀ a ∈ s.dev.groupMates m pba.toNat, s.dev.mateWaits m a = false))) ∧
    (let m : Mech := 0; let c : GoatCtx := { ctx0 with converged := 0xFFFF }; let s : State := M (st .tracking) fun x => { x with goat := { x.goat with ctxs := [c] } }; let pba : Word := 9; s.dev.live m ∧ s.dev.ctx m pba.toNat = some c ∧ c.converged = 0xFFFF) ∧
    (let m : Mech := 0; let c : GoatCtx := { ctx0 with ended := true }; let s : State := M (st .tracking) fun x => { x with goat := { x.goat with ctxs := [c] } }; let pba : Word := 9; s.dev.live m ∧ s.dev.ctx m pba.toNat = some c ∧ c.converged ≠ 0xFFFF ∧ c.ended = true) := by
  refine ⟨?_, ?_, ?_, ?_, ?_, ?_, ?_⟩ <;> (dsimp only; decide +kernel)

/-- The hypotheses of `Obligations.BucketAndRemapTable` are met: one state and operands for each of its clauses that has any. -/
theorem witness_BucketAndRemapTable :
    (let m : Mech := 0; let s : State := R up0 [(Reg.GOAT_BKT_CFG_LEAK_MS 0, 0)]; s.dev.live m ∧ s.dev.get (Reg.GOAT_BKT_CFG_LEAK_MS m) = 0) ∧
    (let m : Mech := 0; let s : State := R up0 [(Reg.GOAT_BKT_CFG_LEAK_MS 0, 5), (Reg.GOAT_BKT_LVL_LEVEL 0, 3), (Reg.GOAT_BKT_CFG_DEPTH 0, 4)]; s.dev.live m ∧ s.dev.get (Reg.GOAT_BKT_CFG_LEAK_MS m) ≠ 0) ∧
    (let m : Mech := 0; let r : Refresh := ⟨9, 4, 2, 0⟩; let b : Blk := { blk0 with phase := .cached, pool := .cache, mech := some 0, pba := 9 }; let x : Disc := disc0; let s : State := A (B (M (R (I (st .tracking) [] [rc 0x60 zoneWs]) [(Reg.MCH_BEAM_ENABLE 0, 0xFFFF)]) fun x => { x with goat := { x.goat with refreshes := [r] } }) fun y => { y with blocks := [(4, b)] }) fun a => { a with discs := [x] }; let pba : Nat := (s.dev.spareSlot m (Dev.pbaLayer r.pba) x.parityUsed).getD 0; s.dev.live m ∧ s.dev.mstate m = .tracking ∧ (s.dev.mx m).goat.refreshes = [r] ∧ s.dev.blk r.blk = some b ∧ b.phase = .cached ∧ s.dev.discIn m = some x ∧ (s.dev.mx m).fsq.items = [] ∧ s.dev.drtNoRoom m r.pba = false ∧ s.dev.spareSlot m (Dev.pbaLayer r.pba) x.parityUsed = some pba) ∧
    (let m : Mech := 0; let s : State := up0; let pba : Word := 9; s.dev.live m ∧ s.dev.drtFind m pba.toNat = none) ∧
    (let m : Mech := 0; let e : DrtEntry × Nat := (⟨9, 77, 1, false, false, 0, 0⟩, 0); let s : State := M up0 fun x => { x with goat := { x.goat with drt := [e.1] } }; let pba : Word := 9; s.dev.live m ∧ s.dev.drtFind m pba.toNat = some e) ∧
    (let m : Mech := 0; let s : State := up0; let l : List (Word × Word × Word) := [(9, 77, 1), (0, 0, 0)]; s.dev.live m ∧ s.dev.get (Reg.DRT_STAT_LOADED m) = 0 ∧ l.length ≤ 2048) := by
  refine ⟨?_, ?_, ?_, ?_, ?_, ?_⟩ <;> (dsimp only; decide +kernel)

/-- The hypotheses of `Obligations.BufferChannels` are met: one state and operands for each of its clauses that has any. -/
theorem witness_BufferChannels :
    (let s : State := R up0 [(Reg.BUF_CTL_SR_EN, 1), (Reg.BUF_CH_STAT_STATE 20, 2), (Reg.BUF_CH_STAT_STATE 23, 2), (Reg.BUF_CH_STAT_STATE 19, 2)]; let k : Fin 6 := 5; s.dev.up = true ∧ s.dev.get Reg.BUF_CTL_SR_EN ≠ 0 ∧ s.dev.inReset ⟨20 + k.val, by omega⟩ = false) ∧
    (let s : State := R up0 [(Reg.BUF_CH_STAT_STATE 23, 2)]; let c : Chan := 23; s.dev.up = true ∧ s.dev.chanServes c = true) ∧
    (let s : State := R up0 [(Reg.BUF_CH_STAT_STATE 23, 3)]; let c : Chan := 23; s.dev.up = true ∧ s.dev.chanServes c = true) ∧
    (let s : State := R up0 [(Reg.BUF_CH_STAT_STATE 23, 3)]; let c : Chan := 23; s.dev.up = true ∧ s.dev.chanServes c = true) ∧
    (let s : State := B (R up0 [(Reg.BUF_CH_STAT_STATE 23, 3)]) fun x => { x with phy := x.phy.set 23 ⟨1, some 2, 3, none, some 7⟩ }; let c : Chan := 23; s.dev.up = true ∧ s.dev.chanServes c = true ∧ s.dev.get (Reg.BUF_CH_STAT_SR c) = 0) ∧
    (let s : State := allCh; let addr : Nat := 70; let r : EccResult := .clean; let i : Instr := Instr.bufferRead 70 .clean; s.dev.up = true ∧ s.dev.chanServes (s.dev.chanOf (addr / 32 * 32)) = true ∧ (i = .bufferRead addr r ∨ (i = .scrubRead addr r ∧ s.dev.get Reg.BUF_CTL_SCRUB_EN ≠ 0)) ∧ r = .clean ∧ addr / 32 * 32 ∉ s.dev.bufx.poison) ∧
    (let s : State := allCh; let addr : Nat := 70; let r : EccResult := .single; let i : Instr := Instr.bufferRead 70 .single; s.dev.up = true ∧ s.dev.chanServes (s.dev.chanOf (addr / 32 * 32)) = true ∧ (i = .bufferRead addr r ∨ (i = .scrubRead addr r ∧ s.dev.get Reg.BUF_CTL_SCRUB_EN ≠ 0)) ∧ r = .single ∧ addr / 32 * 32 ∉ s.dev.bufx.poison) ∧
    (let s : State := allCh; let addr : Nat := 70; let r : EccResult := .double; let i : Instr := Instr.scrubRead 70 .double; s.dev.up = true ∧ s.dev.chanServes (s.dev.chanOf (addr / 32 * 32)) = true ∧ (i = .bufferRead addr r ∨ (i = .scrubRead addr r ∧ s.dev.get Reg.BUF_CTL_SCRUB_EN ≠ 0)) ∧ r = .double) := by
  refine ⟨?_, ?_, ?_, ?_, ?_, ?_, ?_, ?_⟩
  · dsimp only; decide +kernel
  · dsimp only; decide +kernel
  · dsimp only; decide +kernel
  · dsimp only; decide +kernel
  · dsimp only; decide +kernel
  · dsimp only; and_intros <;> first | exact (chanServes_all _ (by decide +kernel) _) | decide +kernel
  · dsimp only; and_intros <;> first | exact (chanServes_all _ (by decide +kernel) _) | decide +kernel
  · dsimp only; and_intros <;> first | exact (chanServes_all _ (by decide +kernel) _) | decide +kernel

/-- The hypotheses of `Obligations.RetirementAndRates` are met: one state and operands for each of its clauses that has any. -/
theorem witness_RetirementAndRates :
    (let s : State := B (R allCh [(Reg.BUF_STAT_ACTIVE, 21)]) fun x => { x with ueTimes := x.ueTimes.set 23 [5, 5, 5] }; let c : Chan := 23; let cause : Fin 6 := 3; s.dev.up = true ∧ s.dev.get (Reg.BUF_CH_STAT_STATE c) = 2 ∧ 20 < s.dev.activeLeft ∧ cause ≠ 4 ∧ s.dev.causeHolds c cause.val = true) ∧
    (let s : State := R allCh [(Reg.BUF_STAT_ACTIVE, 21)]; let c : Chan := 23; let cause : Fin 6 := 3; let r : Bool := true; s.dev.up = true ∧ s.dev.get (Reg.BUF_CH_STAT_STATE c) = 2 ∧ 20 < s.dev.activeLeft ∧ s.dev.causeHolds c cause.val = false) ∧
    (let s : State := R allCh [(Reg.BUF_STAT_ACTIVE, 21)]; let c : Chan := 23; let n : Part := 25; s.dev.up = true ∧ s.dev.get (Reg.BUF_CH_STAT_STATE c) = 2 ∧ 20 < s.dev.activeLeft ∧ n.val = 20 + c.val / 4 ∧ s.dev.inReset n = false ∧ (s.dev.parts[n.val]).lastEnd = none) ∧
    (let s : State := R allCh [(Reg.BUF_STAT_ACTIVE, 21)]; let c : Chan := 23; let w : Word := 0x80000017; s.dev.up = true ∧ s.dev.get (Reg.BUF_CH_STAT_STATE c) = 2 ∧ 20 < s.dev.activeLeft ∧ w.toNat.testBit 31 = true ∧ w.toNat % 32 = c.val) ∧
    (let s : State := R allCh [(Reg.BUF_STAT_ACTIVE, 20)]; let c : Chan := 23; s.dev.up = true ∧ s.dev.get (Reg.BUF_CH_STAT_STATE c) = 2 ∧ s.dev.activeLeft ≤ 20 ∧ s.dev.get Reg.BUF_STAT_FAILED = 0) ∧
    (let s : State := allCh; let w : Word := 0x80000018; s.dev.up = true ∧ w.toNat.testBit 31 = true ∧ 24 ≤ w.toNat % 32) ∧
    (let s : State := B (R allCh [(Reg.BUF_CH_STAT_STATE 23, 3), (Reg.BUF_STAT_RETIRING, 1)]) fun x => { x with retiring := [(23, 4)] }; let c : Chan := 23; let cause : Nat := 4; s.dev.up = true ∧ s.dev.bufx.retiring = [(c.val, cause)]) ∧
    (let s : State := R allCh [(Reg.GCTL_IMG_BWEFF_BWEFF, 50000)]; s.dev.up = true ∧ s.dev.bufx.retiring = []) := by
  refine ⟨?_, ?_, ?_, ?_, ?_, ?_, ?_, ?_⟩ <;> (dsimp only; decide +kernel)

/-- The hypotheses of `Obligations.QueuePairs` are met: one state and operands for each of its clauses that has any. -/
theorem witness_QueuePairs :
    (let p : Port := .A; let s : State := R up0 [(Reg.QE_QCFG_SIZE .A 1, 7), (Reg.QE_QCTL_STATE .A 1, 1)]; let q : Pair := 1; let w : Word := 7; let d : Dev := s.dev.wakePort p; s.dev.portServes p = true ∧ d = s.dev.wakePort p ∧ w.toNat % 4096 ≤ d.get (Reg.QE_QCFG_SIZE p q) ∧ d.get (Reg.QE_QCTL_STATE p q) = 1) ∧
    (let p : Port := .A; let s : State := R up0 [(Reg.QE_QCFG_SIZE .A 1, 7), (Reg.QE_QCTL_STATE .A 1, 1)]; let q : Pair := 1; let w : Word := 8; let d : Dev := s.dev.wakePort p; s.dev.portServes p = true ∧ d = s.dev.wakePort p ∧ d.get (Reg.QE_QCFG_SIZE p q) < w.toNat % 4096) ∧
    (let p : Port := .A; let s : State := R up0 [(Reg.QE_QCFG_SIZE .A 1, 7), (Reg.QE_QCTL_STATE .A 1, 1), (Reg.QE_QPTR_CQ_TAIL .A 1, 3)]; let q : Pair := 1; let w : Word := 3; let d : Dev := s.dev.wakePort p; s.dev.portServes p = true ∧ d = s.dev.wakePort p ∧ w.toNat % 4096 < d.ringN p q ∧ (w.toNat % 4096 + d.ringN p q - d.cqHead p q) % d.ringN p q ≤ (d.get (Reg.QE_QPTR_CQ_TAIL p q) + d.ringN p q - d.cqHead p q) % d.ringN p q) ∧
    (let p : Port := .A; let s : State := R up0 [(Reg.QE_QCFG_SIZE .A 1, 7), (Reg.QE_QCTL_STATE .A 1, 1)]; let q : Pair := 1; let w : Word := 8; let d : Dev := s.dev.wakePort p; s.dev.portServes p = true ∧ d = s.dev.wakePort p ∧ d.ringN p q ≤ w.toNat % 4096) ∧
    (let p : Port := .A; let s : State := R up0 [(Reg.QE_QCFG_SIZE .A 1, 7), (Reg.QE_QCTL_STATE .A 1, 2), (Reg.QE_QPTR_SQ_HEAD .A 1, 7)]; let q : Pair := 1; let w : Word := 0x80000000; let d : Dev := s.dev.wakePort p; s.dev.portServes p = true ∧ d = s.dev.wakePort p ∧ d.get (Reg.QE_QCTL_STATE p q) = 2 ∧ d.get (Reg.QE_QPTR_SQ_HEAD p q) < d.ringN p q ∧ w.toNat.testBit 31 = true) ∧
    (let p : Port := .A; let s : State := R up0 [(Reg.QE_QCTL_STATE .A 1, 1)]; let q : Pair := 1; let d : Dev := s.dev.wakePort p; s.dev.portServes p = true ∧ d = s.dev.wakePort p ∧ d.get (Reg.QE_QCTL_STATE p q) ≠ 2) ∧
    (let p : Port := .A; let s : State := I (R up0 [(Reg.QE_QCFG_SIZE .A 1, 1023), (Reg.QE_SQB_LO_ADDR .A 1, 64), (Reg.QE_CQB_LO_ADDR .A 1, 16), (Reg.QE_QPTR_CQ_TAIL .A 1, 5)]) [rc 0x90 [0x04000202]] []; let q : Pair := 1; let d : Dev := s.dev.wakePort p; s.dev.portServes p = true ∧ d = s.dev.wakePort p ∧ d.get (Reg.QE_QCTL_STATE p q) = 0 ∧ d.get (Reg.QE_SQB_LO_ADDR p q) % 64 = 0 ∧ d.get (Reg.QE_CQB_LO_ADDR p q) % 16 = 0 ∧ d.get (Reg.QE_QCFG_SIZE p q) ≠ 0 ∧ d.ringN p q ≤ d.ringMax ∧ q.val < d.pairsOf p) ∧
    (let p : Port := .A; let s : State := up0; let q : Pair := 1; let d : Dev := s.dev.wakePort p; s.dev.portServes p = true ∧ d = s.dev.wakePort p ∧ d.get (Reg.QE_QCTL_STATE p q) = 0 ∧ d.get (Reg.QE_QCFG_SIZE p q) = 0) ∧
    (let p : Port := .A; let s : State := S (R up0 [(Reg.QE_QCTL_STATE .A 1, 1), (Reg.QE_QCTL_EN .A 1, 1)]) (slot .running (entry [(0, 1, 2)])); let q : Pair := 1; let d : Dev := s.dev.wakePort p; s.dev.portServes p = true ∧ d = s.dev.wakePort p ∧ d.get (Reg.QE_QCTL_STATE p q) = 1 ∧ d.qe.aborts = []) := by
  refine ⟨?_, ?_, ?_, ?_, ?_, ?_, ?_, ?_, ?_⟩ <;> (dsimp only; decide +kernel)

/-- The hypotheses of `Obligations.FetchAndCompletion` are met: one state and operands for each of its clauses that has any. -/
theorem witness_FetchAndCompletion :
    (let p : Port := .A; let s : State := up0; s.dev.up = true ∧ s.dev.due ≠ some p) ∧
    (let p : Port := .A; let s : State := fetch0; let q : Pair := 0; let a : ArbX := ⟨2, 0, [0, 0, 0], some 0, 0⟩; s.dev.up = true ∧ s.dev.due = some p ∧ s.dev.pick p = some (q.val, a)) ∧
    (let x : Slot := slot .finished (entry [(0, 1, 2)]); let s : State := S (R up0 [(Reg.QE_QCFG_SIZE .A 1, 7), (Reg.QE_QCTL_STATE .A 1, 1), (Reg.QE_QCTL_EN .A 1, 1), (Reg.QE_QPTR_CQ_TAIL .A 1, 7), (Reg.QE_QPTR_PHASE .A 1, 1)]) x; let i : Nat := 1; let q : Pair := 1; let s : State := D s fun d => { d with qe := { d.qe with cqHead := [(pairKey .A 1, 5)] } }; s.dev.up = true ∧ s.dev.slot i = some x ∧ x.phase = .finished ∧ x.target = none ∧ x.orphan = false ∧ x.pair = q.val ∧ x.status = 0 ∧ s.dev.get (Reg.QE_QCTL_STATE x.port q) = 1 ∧ s.dev.portServes x.port = true ∧ s.dev.cqFull x.port q = false) ∧
    (let x : Slot := slot .finished (entry [(0, 1, 2)]); let s : State := S (R up0 [(Reg.QE_QCFG_SIZE .A 1, 7), (Reg.QE_QCTL_STATE .A 1, 1), (Reg.QE_QPTR_CQ_TAIL .A 1, 7)]) x; let i : Nat := 1; let q : Pair := 1; s.dev.up = true ∧ s.dev.slot i = some x ∧ x.phase = .finished ∧ x.target = none ∧ x.orphan = false ∧ x.pair = q.val ∧ x.status = 0 ∧ s.dev.get (Reg.QE_QCTL_STATE x.port q) = 1 ∧ s.dev.portServes x.port = true ∧ s.dev.cqFull x.port q = true) ∧
    (let x : Slot := slot .running (entry [(0, 1, 2)]); let s : State := S up0 x; let i : Nat := 1; s.dev.up = true ∧ s.dev.slot i = some x ∧ x.phase = .running ∧ x.orphan = false) ∧
    (let p : Port := .A; let s : State := R up0 [(Reg.QE_QCTL_STATE .A 1, 1)]; let q : Pair := 1; s.dev.up = true ∧ s.dev.portServes p = true ∧ s.dev.get (Reg.QE_QCTL_STATE p q) ≠ 0) ∧
    (let s : State := up0; s.dev.up = true) ∧
    (let p : Port := .A; let s : State := D (R up0 [(Reg.QE_QCFG_AGG_T .A 1, 5)]) fun d => { d with qe := { d.qe with agg := [(pairKey .A 1, 2)] } }; let q : Pair := 1; let n : Nat := 2; s.dev.up = true ∧ s.dev.get (Reg.QE_QCFG_AGG_T p q) ≠ 0 ∧ Sparse.lookup s.dev.qe.agg (pairKey p q.val) = some n) := by
  refine ⟨?_, ?_, ?_, ?_, ?_, ?_, ?_, ?_⟩ <;> (dsimp only; decide +kernel)

/-- The hypotheses of `Obligations.WritesAndSectors` are met: one state and operands for each of its clauses that has any. -/
theorem witness_WritesAndSectors :
    (let x : Slot := slot .admitWait (entry [(0, 1, 1), (24, 4, 4096)]); let s : State := S wr0 x; let i : Nat := 1; s.dev.up = true ∧ s.dev.slot i = some x ∧ x.phase = .admitWait ∧ opcode x = 1 ∧ s.dev.canAdmit i x = true ∧ x.cls ≠ .reserved) ∧
    (let x : Slot := slot .admitWait (entry [(0, 1, 1), (24, 4, 4096)]); let s : State := S up0 x; let i : Nat := 1; s.dev.up = true ∧ s.dev.slot i = some x ∧ x.phase = .admitWait ∧ opcode x = 1 ∧ s.dev.canAdmit i x = false) ∧
    (let x : Slot := slot .admitWait (entry [(0, 1, 1), (24, 4, 4096)]); let s : State := S (R up0 [(Reg.BUF_STAT_PRESSURE, 1)]) x; let i : Nat := 1; s.dev.up = true ∧ s.dev.slot i = some x ∧ x.phase = .admitWait ∧ opcode x = 1 ∧ x.cls = .unreserved ∧ s.dev.get Reg.BUF_STAT_PRESSURE = 1) ∧
    (let x : Slot := { slot .running (entry [(0, 1, 0)]) with covers := [4] }; let s : State := S (B up0 fun x => { x with blocks := [(4, blk0)] }) x; let i : Nat := 1; let k : Nat := 4; let y : Blk := blk0; s.dev.up = true ∧ s.dev.slot i = some x ∧ x.phase = .running ∧ isAdmin x = false ∧ opcode x = 0 ∧ k ∈ x.covers ∧ s.dev.blk k = some y ∧ y.phase = .staged) ∧
    (let x : Slot := slot .running (entry [(0, 1, 1), (4, 4, 1), (24, 4, 4096), (32, 8, 17), (40, 4, 1)]); let s : State := S wr0 x; let i : Nat := 1; let data : List Byte := List.replicate 4096 7; s.dev.up = true ∧ s.dev.slot i = some x ∧ isAdmin x = false ∧ x.phase = .running ∧ opcode x = 1 ∧ nsect x = 1 ∧ dataLen x = 4096 ∧ data.length = 4096) ∧
    (let x : Slot := slot .fetched (entry [(0, 1, 2), (4, 4, 1), (24, 4, 4096), (32, 8, 17)]); let s : State := S wr0 x; let i : Nat := 1; s.dev.up = true ∧ s.dev.slot i = some x ∧ isAdmin x = false ∧ x.phase = .fetched ∧ opcode x = 2 ∧ s.dev.bufx.blocks = [] ∧ s.dev.arc.map = [] ∧ x.lostXfer = false ∧ s.dev.slots = [(i, x)]) ∧
    (let x : Slot := slot .fetched (entry [(0, 1, 4), (4, 4, 1), (32, 8, 17)]); let s : State := S wr0 x; let i : Nat := 1; s.dev.up = true ∧ s.dev.slot i = some x ∧ isAdmin x = false ∧ x.phase = .fetched ∧ opcode x = 4 ∧ s.dev.bufx.blocks = [] ∧ s.dev.arc.map = [] ∧ s.dev.slots = [(i, x)] ∧ x.earlier = [] ∧ x.wants = []) ∧
    (let x : Slot := slot .fetched (entry [(0, 1, 0), (4, 4, 1)]); let s : State := S wr0 x; let i : Nat := 1; s.dev.up = true ∧ s.dev.slot i = some x ∧ isAdmin x = false ∧ x.phase = .fetched ∧ opcode x = 0 ∧ s.dev.bufx.blocks = [] ∧ s.dev.bufx.losses = [] ∧ x.lost = 0 ∧ x.wants = [] ∧ s.dev.slots = [(i, x)]) ∧
    (let x : Slot := { slot .fetched (entry [(0, 1, 8), (32, 4, 1), (36, 4, 3)]) with index := 5 }; let t : Slot := slot .running (entry [(0, 1, 8)]); let s : State := S2 wr0 x t; let i : Nat := 1; let j : Nat := 2; let p : Port := .A; let q : Pair := 1; let at_ : Option (Nat × Slot) := some (2, t); s.dev.up = true ∧ s.dev.slot i = some x ∧ isAdmin x = false ∧ x.phase = .fetched ∧ opcode x = 8 ∧ p = (if tbit (cdw x 0) 7 then .B else .A) ∧ q.val = cdw x 0 % 128 ∧ (at_ = s.dev.slots.find? (fun t => decide (t.1 ≠ i ∧ t.2.port = p ∧ t.2.pair = q.val ∧ t.2.index = bits (cdw x 0) 16 12))) ∧ at_ = some (j, t) ∧ s.dev.slot j = some t ∧ (opcode t = 8 ∧ isAdmin t = false)) ∧
    (let x : Slot := { slot .fetched (entry [(0, 1, 8), (32, 4, 1), (36, 4, 3)]) with index := 5 }; let t : Slot := slot .fetched (entry [(0, 1, 2)]); let s : State := S2 wr0 x t; let i : Nat := 1; let j : Nat := 2; let p : Port := .A; let q : Pair := 1; let at_ : Option (Nat × Slot) := some (2, t); s.dev.up = true ∧ s.dev.slot i = some x ∧ isAdmin x = false ∧ x.phase = .fetched ∧ opcode x = 8 ∧ p = (if tbit (cdw x 0) 7 then .B else .A) ∧ q.val = cdw x 0 % 128 ∧ (at_ = s.dev.slots.find? (fun t => decide (t.1 ≠ i ∧ t.2.port = p ∧ t.2.pair = q.val ∧ t.2.index = bits (cdw x 0) 16 12))) ∧ at_ = some (j, t) ∧ s.dev.slot j = some t ∧ (opcode t ≠ 8 ∨ isAdmin t = true) ∧ t.cid = cdw x 1 % 65536 ∧ Dev.abortable t = true) ∧
    (let x : Slot := { slot .fetched (entry [(0, 1, 8), (32, 4, 1), (36, 4, 3)]) with index := 5 }; let t : Slot := slot .running (entry [(0, 1, 1)]); let s : State := S2 wr0 x t; let i : Nat := 1; let j : Nat := 2; let p : Port := .A; let q : Pair := 1; let at_ : Option (Nat × Slot) := some (2, t); s.dev.up = true ∧ s.dev.slot i = some x ∧ isAdmin x = false ∧ x.phase = .fetched ∧ opcode x = 8 ∧ p = (if tbit (cdw x 0) 7 then .B else .A) ∧ q.val = cdw x 0 % 128 ∧ (at_ = s.dev.slots.find? (fun t => decide (t.1 ≠ i ∧ t.2.port = p ∧ t.2.pair = q.val ∧ t.2.index = bits (cdw x 0) 16 12))) ∧ at_ = some (j, t) ∧ s.dev.slot j = some t ∧ (opcode t ≠ 8 ∨ isAdmin t = true) ∧ t.cid = cdw x 1 % 65536 ∧ Dev.abortable t = false) ∧
    (let x : Slot := { slot .fetched (entry [(0, 1, 8), (32, 4, 1), (36, 4, 3)]) with index := 5 }; let s : State := S (D (R wr0 [(Reg.QE_QCFG_SIZE .A 1, 7), (Reg.QE_QCTL_STATE .A 1, 1)]) fun d => { d with qe := { d.qe with sqTail := [(Dev.pairKey .A 1, 3)] } }) x; let i : Nat := 1; let p : Port := .A; let q : Pair := 1; let at_ : Option (Nat × Slot) := none; s.dev.up = true ∧ s.dev.slot i = some x ∧ isAdmin x = false ∧ x.phase = .fetched ∧ opcode x = 8 ∧ p = (if tbit (cdw x 0) 7 then .B else .A) ∧ q.val = cdw x 0 % 128 ∧ (at_ = s.dev.slots.find? (fun t => decide (t.1 ≠ i ∧ t.2.port = p ∧ t.2.pair = q.val ∧ t.2.index = bits (cdw x 0) 16 12))) ∧ at_ = none ∧ (s.dev.get (Reg.QE_QCTL_STATE p q) = 1 ∨ s.dev.get (Reg.QE_QCTL_STATE p q) = 2) ∧ bits (cdw x 0) 16 12 < s.dev.ringN p q ∧ (bits (cdw x 0) 16 12 + s.dev.ringN p q - s.dev.get (Reg.QE_QPTR_SQ_HEAD p q)) % s.dev.ringN p q < s.dev.unfetched p q) ∧
    (let x : Slot := { slot .fetched (entry [(0, 1, 8), (32, 4, 1), (36, 4, 3)]) with index := 5 }; let s : State := S (wr0) x; let i : Nat := 1; let p : Port := .A; let q : Pair := 1; let at_ : Option (Nat × Slot) := none; s.dev.up = true ∧ s.dev.slot i = some x ∧ isAdmin x = false ∧ x.phase = .fetched ∧ opcode x = 8 ∧ p = (if tbit (cdw x 0) 7 then .B else .A) ∧ q.val = cdw x 0 % 128 ∧ (at_ = s.dev.slots.find? (fun t => decide (t.1 ≠ i ∧ t.2.port = p ∧ t.2.pair = q.val ∧ t.2.index = bits (cdw x 0) 16 12))) ∧ (at_ = none ∧ s.dev.get (Reg.QE_QCTL_STATE p q) ≠ 1 ∧ s.dev.get (Reg.QE_QCTL_STATE p q) ≠ 2)) := by
  refine ⟨?_, ?_, ?_, ?_, ?_, ?_, ?_, ?_, ?_, ?_, ?_, ?_, ?_⟩ <;> (dsimp only; decide +kernel)

/-- The hypotheses of `Obligations.ArchiveCommands` are met: one state and operands for each of its clauses that has any. -/
theorem witness_ArchiveCommands :
    (let x : Slot := slot .fetched (entry [(0, 1, 0x10)]); let s : State := S up0 x; let i : Nat := 1; let c := Instr.streamOpen 1; s.dev.up = true ∧ s.dev.slot i = some x ∧ isAdmin x = false ∧ x.phase = .fetched ∧ s.dev.arcServes = false ∧ (c = Instr.streamOpen i ∨ c = .streamClose i ∨ c = .objectGet i ∨ c = .catalogueQuery i)) ∧
    (let x : Slot := slot .fetched (entry [(0, 1, 0x10), (4, 4, 1), (36, 4, 6)]); let v : Vol := { vol0 with kind := 1 }; let s : State := S (A (I arc0 [rc 0xA0 [16]] []) fun a => { a with vols := [(1, v)] }) x; let i : Nat := 1; let c : Nat := 0; let rsv : Nat := 0; let p : Nat := 6; let q : Nat := 0; s.dev.up = true ∧ s.dev.slot i = some x ∧ isAdmin x = false ∧ x.phase = .fetched ∧ s.dev.arcServes = true ∧ opcode x = 0x10 ∧ s.dev.vol (volOf x) = some v ∧ (v.kind ≠ 0 ∨ s.dev.discThere v = true) ∧ rsv = cdw x 0 ∧ p = cdw x 1 % 32 ∧ q = bits (cdw x 1) 8 4 ∧ (p = 0 ∨ (v.p ≤ p ∧ Dev.codeP p = true)) ∧ (q = 0 ∨ (v.q ≤ q ∧ q ≤ 8)) ∧ s.dev.freeCtx = some c ∧ (rsv = 0 ∨ s.dev.canReserve x.port rsv = true)) ∧
    (let x : Slot := slot .fetched (entry [(0, 1, 0x11)]); let s : State := S (A arc0 fun a => { a with streams := [(0, strm0)] }) x; let i : Nat := 1; let l : List Nat := []; s.dev.up = true ∧ s.dev.slot i = some x ∧ isAdmin x = false ∧ x.phase = .fetched ∧ s.dev.arcServes = true ∧ opcode x = 0x11 ∧ (l = (s.dev.slots.filter (fun t => decide (t.2.order < x.order ∧ t.1 ≠ i ∧ Dev.handleOf t.2 = some (cdw x 0)))).map Prod.fst)) ∧
    (let x : Slot := slot .fetched (entry [(0, 1, 0x21), (24, 4, 4096)]); let s : State := S arc0 x; let i : Nat := 1; s.dev.up = true ∧ s.dev.slot i = some x ∧ isAdmin x = false ∧ x.phase = .fetched ∧ s.dev.arcServes = true ∧ opcode x = 0x21 ∧ s.dev.newestSealed (volOf x) (objId x) = none) ∧
    (let o : Obj := ⟨0, 0, 1, 100, true, 1, [(0, 100)]⟩; let x : Slot := slot .fetched (entry [(0, 1, 0x21), (24, 4, 4096)]); let s : State := S (A arc0 fun a => { a with objs := [o] }) x; let i : Nat := 1; let ps : List Dev.Piece := s.dev.piecesOf x; s.dev.up = true ∧ s.dev.slot i = some x ∧ isAdmin x = false ∧ x.phase = .fetched ∧ s.dev.arcServes = true ∧ opcode x = 0x21 ∧ s.dev.newestSealed (volOf x) (objId x) = some o ∧ Dev.verifies x = false ∧ x.lostXfer = false ∧ ps = s.dev.piecesOf x ∧ s.dev.absentDisc false ps = none ∧ (s.dev.bufferBytes ps = 0 ∨ (0 < s.dev.meterNow ∧ s.dev.olderWaits i x = false))) ∧
    (let x : Slot := slot .fetched (entry [(0, 1, 0x22), (24, 4, 4096), (32, 4, 6)]); let s : State := S arc0 x; let i : Nat := 1; s.dev.up = true ∧ s.dev.slot i = some x ∧ isAdmin x = false ∧ x.phase = .fetched ∧ s.dev.arcServes = true ∧ opcode x = 0x22 ∧ x.lostXfer = false ∧ s.dev.queryEntries x = none) ∧
    (let x : Slot := slot .fetched (entry [(0, 1, 0x22), (24, 4, 4096), (32, 4, 3)]); let s : State := S arc0 x; let i : Nat := 1; let l : List (List Byte) := []; s.dev.up = true ∧ s.dev.slot i = some x ∧ isAdmin x = false ∧ x.phase = .fetched ∧ s.dev.arcServes = true ∧ opcode x = 0x22 ∧ x.lostXfer = false ∧ s.dev.queryEntries x = some l) ∧
    (let x : Slot := slot .running (entry [(0, 1, 0x20), (24, 4, 5000), (32, 4, 2)]); let st : Stream := strm0; let s : State := S (A (R arc0 [(Reg.BUF_STAT_ACTIVE, 24)]) fun a => { a with streams := [(2, st)] }) x; let i : Nat := 1; let data : List Byte := List.replicate 5000 3; s.dev.up = true ∧ s.dev.slot i = some x ∧ isAdmin x = false ∧ s.dev.arcServes = true ∧ x.phase = .running ∧ opcode x = 0x20 ∧ data.length = dataLen x ∧ Sparse.lookup s.dev.arc.streams (cdw x 0 % 16384) = some st) ∧
    (let x : Slot := { slot .finished (entry [(0, 1, 0x11), (32, 4, 2)]) with status := 0 }; let st : Stream := strm0; let q : Pair := 1; let s : State := S (A (R arc0 [(Reg.QE_QCTL_STATE .A 1, 1), (Reg.QE_QCFG_SIZE .A 1, 7)]) fun a => { a with streams := [(2, st)] }) x; let i : Nat := 1; s.dev.up = true ∧ s.dev.slot i = some x ∧ isAdmin x = false ∧ x.phase = .finished ∧ x.target = none ∧ x.orphan = false ∧ opcode x = 0x11 ∧ x.status = 0 ∧ x.pair = q.val ∧ s.dev.get (Reg.QE_QCTL_STATE x.port q) = 1 ∧ s.dev.portServes x.port = true ∧ s.dev.cqFull x.port q = false ∧ Sparse.lookup s.dev.arc.streams (cdw x 0 % 16384) = some st) := by
  refine ⟨?_, ?_, ?_, ?_, ?_, ?_, ?_, ?_, ?_⟩ <;> (dsimp only; decide +kernel)

/-- The hypotheses of `Obligations.AdminCommands` are met: one state and operands for each of its clauses that has any. -/
theorem witness_AdminCommands :
    (let x : Slot := adm .fetched (entry [(0, 1, 1), (24, 4, 4096)]); let s : State := S up0 x; let i : Nat := 1; s.dev.up = true ∧ s.dev.slot i = some x ∧ isAdmin x = true ∧ x.phase = .fetched ∧ x.lostXfer = false ∧ opcode x = 1 ∧ cdw x 0 % 4 = 0 ∧ tbit (Dev.ent x 1 1) 0 = false ∧ Dev.ent x 24 4 = 4096) ∧
    (let x : Slot := adm .fetched (entry [(0, 1, 1), (24, 4, 4096), (32, 4, 3)]); let s : State := S up0 x; let i : Nat := 1; s.dev.up = true ∧ s.dev.slot i = some x ∧ isAdmin x = true ∧ x.phase = .fetched ∧ x.lostXfer = false ∧ opcode x = 1 ∧ cdw x 0 % 4 = 3) ∧
    (let x : Slot := adm .fetched (entry [(0, 1, 2), (24, 4, 128), (32, 4, 1), (40, 4, 2)]); let s : State := S up0 x; let i : Nat := 1; s.dev.up = true ∧ s.dev.slot i = some x ∧ isAdmin x = true ∧ x.phase = .fetched ∧ x.lostXfer = false ∧ opcode x = 2 ∧ cdw x 0 % 256 = 1 ∧ 64 * cdw x 2 ≤ dataLen x) ∧
    (let x : Slot := adm .fetched (entry [(0, 1, 2), (24, 4, 128), (32, 4, 5)]); let s : State := S up0 x; let i : Nat := 1; s.dev.up = true ∧ s.dev.slot i = some x ∧ isAdmin x = true ∧ x.phase = .fetched ∧ x.lostXfer = false ∧ opcode x = 2 ∧ 5 ≤ cdw x 0 % 256) ∧
    (let x : Slot := adm .fetched (entry [(0, 1, 3), (32, 4, 1)]); let s : State := S up0 x; let i : Nat := 1; s.dev.up = true ∧ s.dev.slot i = some x ∧ isAdmin x = true ∧ x.phase = .fetched ∧ x.lostXfer = false ∧ opcode x = 3 ∧ cdw x 0 % 16 = 1 ∧ s.dev.fw.test = none) ∧
    (let x : Slot := adm .fetched (entry [(0, 1, 3), (32, 4, 1)]); let s : State := S (D up0 fun d => { d with fw := { d.fw with test := some ⟨1, 0, 0, 0, false⟩ } }) x; let i : Nat := 1; s.dev.up = true ∧ s.dev.slot i = some x ∧ isAdmin x = true ∧ x.phase = .fetched ∧ x.lostXfer = false ∧ opcode x = 3 ∧ cdw x 0 % 16 = 1 ∧ s.dev.fw.test.isSome = true) ∧
    (let x : Slot := adm .fetched (entry [(0, 1, 4), (32, 4, 2), (36, 4, 60000)]); let s : State := S up0 x; let i : Nat := 1; s.dev.up = true ∧ s.dev.slot i = some x ∧ isAdmin x = true ∧ x.phase = .fetched ∧ x.lostXfer = false ∧ opcode x = 4 ∧ cdw x 0 % 256 = 2 ∧ tbit (cdw x 0) 31 = false ∧ cdw x 2 = 0 ∧ 10 ≤ cdw x 1 ∧ cdw x 1 ≤ 60000) ∧
    (let x : Slot := adm .fetched (entry [(0, 1, 4), (32, 4, 2), (36, 4, 60001)]); let s : State := S up0 x; let i : Nat := 1; s.dev.up = true ∧ s.dev.slot i = some x ∧ isAdmin x = true ∧ x.phase = .fetched ∧ x.lostXfer = false ∧ opcode x = 4 ∧ cdw x 0 % 256 = 2 ∧ tbit (cdw x 0) 31 = false ∧ cdw x 2 = 0 ∧ (cdw x 1 < 10 ∨ 60000 < cdw x 1)) ∧
    (let x : Slot := { adm .fetched (entry [(0, 1, 10), (24, 4, 8192)]) with order := 1 }; let s : State := S2 up0 x { x with order := 0 }; let i : Nat := 1; let sig : List Byte := []; s.dev.up = true ∧ s.dev.slot i = some x ∧ isAdmin x = true ∧ x.phase = .fetched ∧ x.lostXfer = false ∧ opcode x = 10 ∧ (s.dev.slots.any (fun t => decide (t.2.order < x.order ∧ t.2.phase = .fetched ∧ opcode t.2 = 10) && isAdmin t.2) = true)) ∧
    (let x : Slot := adm .fetched (entry [(0, 1, 10), (24, 4, 8192)]); let s : State := S up0 x; let i : Nat := 1; let sig : List Byte := []; s.dev.up = true ∧ s.dev.slot i = some x ∧ isAdmin x = true ∧ x.phase = .fetched ∧ x.lostXfer = false ∧ opcode x = 10 ∧ (s.dev.slots.any (fun t => decide (t.2.order < x.order ∧ t.2.phase = .fetched ∧ opcode t.2 = 10) && isAdmin t.2) = false)) ∧
    (let t : SelfTest := ⟨2, 1, 3, 1, true⟩; let s : State := D up0 fun d => { d with fw := { d.fw with test := some t } }; s.dev.up = true ∧ s.dev.fw.test = some t ∧ s.dev.slots = [] ∧ ((∀ m : Mech, (s.dev.mx m).mch.held = []))) ∧
    (let t : SelfTest := ⟨2, 1, 3, 1, true⟩; let s : State := D up0 fun d => { d with fw := { d.fw with test := some t } }; s.dev.up = true ∧ s.dev.fw.test = some t) ∧
    (let s : State := arc0; s.dev.up = true ∧ s.dev.arcServes = true) ∧
    (let s : State := up0; s.dev.up = true) := by
  refine ⟨?_, ?_, ?_, ?_, ?_, ?_, ?_, ?_, ?_, ?_, ?_, ?_, ?_, ?_⟩ <;> (dsimp only; decide +kernel)

/-- The hypotheses of `Obligations.VolumeCommands` are met: one state and operands for each of its clauses that has any. -/
theorem witness_VolumeCommands :
    (let x : Slot := adm .fetched (entry [(0, 1, 5), (4, 4, 1), (32, 4, 0), (36, 4, 1), (40, 4, 9)]); let s : State := S (I up0 [rc 0xA0 [0x100010]] []) x; let i : Nat := 1; s.dev.up = true ∧ s.dev.slot i = some x ∧ isAdmin x = true ∧ x.phase = .fetched ∧ opcode x = 5 ∧ s.dev.volumeOk x = true ∧ s.dev.vol (volOf x) = none) ∧
    (let x : Slot := adm .fetched (entry [(0, 1, 5), (4, 4, 1), (32, 4, 1), (36, 4, 1), (40, 4, 9)]); let s : State := S (I up0 [rc 0xA0 [0x100010]] []) x; let i : Nat := 1; s.dev.up = true ∧ s.dev.slot i = some x ∧ isAdmin x = true ∧ x.phase = .fetched ∧ opcode x = 5 ∧ s.dev.volumeOk x = false) ∧
    (let x : Slot := adm .fetched (entry [(0, 1, 5), (4, 4, 1), (32, 4, 0), (36, 4, 1), (40, 4, 9)]); let s : State := S (A (I up0 [rc 0xA0 [0x100010]] []) fun a => { a with vols := [(1, vol0)] }) x; let i : Nat := 1; s.dev.up = true ∧ s.dev.slot i = some x ∧ isAdmin x = true ∧ x.phase = .fetched ∧ opcode x = 5 ∧ s.dev.volumeOk x = true ∧ (s.dev.vol (volOf x)).isSome = true) ∧
    (let x : Slot := adm .fetched (entry [(0, 1, 6), (4, 4, 1)]); let s : State := S up0 x; let i : Nat := 1; s.dev.up = true ∧ s.dev.slot i = some x ∧ isAdmin x = true ∧ x.phase = .fetched ∧ opcode x = 6 ∧ s.dev.vol (volOf x) = none) ∧
    (let x : Slot := adm .fetched (entry [(0, 1, 6), (4, 4, 1)]); let s : State := S (B (A up0 fun a => { a with vols := [(1, vol0)] }) fun y => { y with blocks := [(4, blk0)] }) x; let i : Nat := 1; s.dev.up = true ∧ s.dev.slot i = some x ∧ isAdmin x = true ∧ x.phase = .fetched ∧ opcode x = 6 ∧ (s.dev.vol (volOf x)).isSome = true ∧ s.dev.volumeUsed i (volOf x) = true) ∧
    (let x : Slot := adm .fetched (entry [(0, 1, 6), (4, 4, 1)]); let s : State := S (A up0 fun a => { a with vols := [(1, vol0)] }) x; let i : Nat := 1; s.dev.up = true ∧ s.dev.slot i = some x ∧ isAdmin x = true ∧ x.phase = .fetched ∧ opcode x = 6 ∧ (s.dev.vol (volOf x)).isSome = true ∧ s.dev.volumeUsed i (volOf x) = false) := by
  refine ⟨?_, ?_, ?_, ?_, ?_, ?_⟩ <;> (dsimp only; decide +kernel)

/-- The hypotheses of `Obligations.FirmwareCommands` are met: one state and operands for each of its clauses that has any. -/
theorem witness_FirmwareCommands :
    (let x : Slot := adm .fetched (entry [(0, 1, 7), (24, 4, 4096)]); let s : State := S up0 x; let i : Nat := 1; s.dev.up = true ∧ s.dev.slot i = some x ∧ isAdmin x = true ∧ x.phase = .fetched ∧ x.lostXfer = false ∧ opcode x = 7 ∧ cdw x 0 % 4 = 0) ∧
    (let x : Slot := adm .fetched (entry [(0, 1, 7), (24, 4, 4096), (32, 4, 1)]); let s : State := S up0 x; let i : Nat := 1; s.dev.up = true ∧ s.dev.slot i = some x ∧ isAdmin x = true ∧ x.phase = .fetched ∧ x.lostXfer = false ∧ opcode x = 7 ∧ cdw x 0 % 4 = 1 ∧ ((∀ m : Mech, s.dev.get (Reg.FSQ_UCODE_STAT_SWAP_ARMED m) = 0))) ∧
    (let x : Slot := adm .fetched (entry [(0, 1, 8), (32, 4, 3)]); let s : State := S up0 x; let i : Nat := 1; s.dev.up = true ∧ s.dev.slot i = some x ∧ isAdmin x = true ∧ x.phase = .fetched ∧ x.lostXfer = false ∧ opcode x = 8 ∧ 2 ≤ cdw x 0 % 4) ∧
    (let x : Slot := adm .fetched (entry [(0, 1, 8)]); let s : State := S (D up0 fun d => { d with fw := { d.fw with svcAct := some ⟨3, false, [], 0⟩ } }) x; let i : Nat := 1; s.dev.up = true ∧ s.dev.slot i = some x ∧ isAdmin x = true ∧ x.phase = .fetched ∧ x.lostXfer = false ∧ opcode x = 8 ∧ cdw x 0 % 4 = 0 ∧ s.dev.fwBusy = true) ∧
    (let x : Slot := adm .fetched (entry [(0, 1, 8)]); let s : State := S (D arc0 fun d => { d with sec := { d.sec with svcStaged := some img0 } }) x; let i : Nat := 1; s.dev.up = true ∧ s.dev.slot i = some x ∧ isAdmin x = true ∧ x.phase = .fetched ∧ x.lostXfer = false ∧ opcode x = 8 ∧ cdw x 0 % 4 = 0 ∧ s.dev.fwBusy = false ∧ s.dev.sec.svcStaged.isSome = true ∧ s.dev.inReset 26 = false ∧ (s.dev.parts[26]).lastEnd = none) ∧
    (let a : SvcAct := ⟨1, false, [], Crypto.shake256 []⟩; let img : SignedImage := img0; let y : Slot := adm .running []; let burn : Bool := false; let s : State := S (D up0 fun d => { d with sec := { d.sec with svcStaged := some img }, fw := { d.fw with svcAct := some a } }) y; s.dev.up = true ∧ s.dev.fw.svcAct = some a ∧ a.fallback = false ∧ s.dev.sec.svcStaged = some img ∧ s.dev.inReset 26 = false ∧ s.dev.slot a.slot = some y ∧ y.phase = .running ∧ Crypto.shake256 a.record = a.digest) ∧
    (let a : SvcAct := ⟨1, false, [], Crypto.shake256 []⟩; let img : SignedImage := img0; let y : Slot := adm .running []; let burn : Bool := false; let s : State := S (D up0 fun d => { d with sec := { d.sec with svcStaged := some img }, fw := { d.fw with svcAct := some a } }) y; let ok : Bool := false; s.dev.up = true ∧ s.dev.fw.svcAct = some a ∧ a.fallback = false ∧ s.dev.sec.svcStaged = some img ∧ s.dev.inReset 26 = false ∧ (s.dev.parts[26]).lastEnd = none ∧ (ok = false ∨ Crypto.shake256 a.record ≠ a.digest)) ∧
    (let y : Slot := adm .running (entry [(0, 1, 8)]); let a : SvcAct := ⟨1, false, [], 0⟩; let s : State := S (R (D up0 fun d => { d with fw := { d.fw with svcAct := some a } }) [(Reg.GCTL_EPOCH_IN_RESET 26, 1)]) y; s.dev.up = true ∧ s.dev.fw.svcAct = some a ∧ a.fallback = false ∧ s.dev.inReset 26 = true) ∧
    (let y : Slot := adm .running (entry [(0, 1, 8)]); let a : UcodeAct := ⟨1, 1, 0⟩; let s : State := S (D up0 fun d => { d with fw := { d.fw with ucodeAct := some a } }) y; s.dev.up = true ∧ s.dev.fw.ucodeAct = some a ∧ s.dev.slot a.slot = some y ∧ y.phase = .running) := by
  refine ⟨?_, ?_, ?_, ?_, ?_, ?_, ?_, ?_, ?_⟩ <;> (dsimp only; decide +kernel)

/-- The hypotheses of `Obligations.StructureReloads` are met: one state and operands for each of its clauses that has any. -/
theorem witness_StructureReloads :
    (let x : Slot := adm .fetched (entry [(0, 1, 9), (24, 4, 4096)]); let s : State := S (D up0 fun d => { d with fw := { d.fw with svcAct := some ⟨3, false, [], 0⟩ } }) x; let i : Nat := 1; s.dev.up = true ∧ s.dev.slot i = some x ∧ isAdmin x = true ∧ x.phase = .fetched ∧ opcode x = 9 ∧ s.dev.fwBusy = true) ∧
    (let x : Slot := adm .fetched (entry [(0, 1, 9), (24, 4, 4096), (32, 4, 0x11F)]); let s : State := S up0 x; let i : Nat := 1; s.dev.up = true ∧ s.dev.slot i = some x ∧ isAdmin x = true ∧ x.phase = .fetched ∧ opcode x = 9 ∧ s.dev.fwBusy = false ∧ s.dev.sec.ownerOp = 0 ∧ tbit (cdw x 0) 0 = true ∧ x.lostXfer = false) ∧
    (let y : Slot := adm .running (entry [(0, 1, 9), (24, 4, 4096)]); let r : Reload := ⟨1, some 15, true, 4, 0, none, false⟩; let s : State := S (R (D up0 fun d => { d with fw := { d.fw with reload := some r } }) [(Reg.BUF_STAT_ACTIVE, 24)]) y; s.dev.up = true ∧ s.dev.fw.reload = some r ∧ r.image = none ∧ s.dev.slot r.slot = some y ∧ y.phase = .running) ∧
    (let m : Mech := 0; let y := adm .running (entry [(0, 1, 9), (24, 4, 4096)]); let r := ⟨1, some 0, true, 4, 0, some ⟨1, 0, 0, [], [[]], none⟩, false⟩; let s : State := S (R (D (st .parked) fun d => { d with fw := { d.fw with reload := some r } }) [(Reg.SLD_STATE_AT_PARK 0, 1)]) y; s.dev.up = true ∧ s.dev.reloadWaits m = true ∧ s.dev.reloadRest m = true ∧ s.dev.mstate m ≠ .safe ∧ s.dev.mechInReset m = false ∧ s.dev.resetPending ⟨m.val, by omega⟩ = false ∧ (s.dev.parts[m.val]).lastEnd = none) ∧
    (let m : Mech := 0; let y : Slot := adm .running (entry [(0, 1, 9), (24, 4, 4096)]); let r : Reload := ⟨1, some 0, true, 4, 0, some ⟨1, 0, 0, [], [[]], none⟩, false⟩; let s : State := S (D (st .tracking) fun d => { d with fw := { d.fw with reload := some r } }) y; s.dev.up = true ∧ s.dev.reloadWaits m = true ∧ s.dev.fw.reload = some r ∧ s.dev.slot r.slot = some y ∧ y.phase = .running) := by
  refine ⟨?_, ?_, ?_, ?_, ?_⟩ <;> (dsimp only; decide +kernel)

/-- The hypotheses of `Obligations.PlacementAndJoining` are met: one state and operands for each of its clauses that has any. -/
theorem witness_PlacementAndJoining :
    (let s : State := place0; let d : Dev := s.dev.wakeService.arcSync; let i : Nat := 5; s.dev.up = true ∧ s.dev.arcServes = true ∧ d = s.dev.wakeService.arcSync ∧ d.blk i = none) ∧
    (let b : Blk := { blk0 with phase := .placed }; let s : State := B place0 fun x => { x with blocks := [(4, b)] }; let d : Dev := s.dev.wakeService.arcSync; let i : Nat := 4; s.dev.up = true ∧ s.dev.arcServes = true ∧ d = s.dev.wakeService.arcSync ∧ d.blk i = some b ∧ (b.phase ≠ .staged ∨ d.isNext b = false)) ∧
    (let m : Mech := 0; let b : Blk := blk0; let v : Vol := vol0; let v' : Vol := vol0; let x : Disc := disc0; let s : State := place0; let d : Dev := s.dev.wakeService.arcSync; let i : Nat := 4; let l : Nat := 0; let w : Nat := 208; let t : Nat := 0; s.dev.up = true ∧ s.dev.arcServes = true ∧ d = s.dev.wakeService.arcSync ∧ d.blk i = some b ∧ b.phase = .staged ∧ d.isNext b = true ∧ b.pool = .retained ∧ d.vol b.key.vol = some v ∧ d.chooseMech v b = some (m, v') ∧ d.discIn m = some x ∧ x.blank = false ∧ d.cursorSlot m x x.p x.q = some (l, w, t)) ∧
    (let b : Blk := blk0; let v : Vol := { vol0 with disc := 8 }; let s : State := A place0 fun a => { a with vols := [(1, v)] }; let d : Dev := s.dev.wakeService.arcSync; let i : Nat := 4; s.dev.up = true ∧ s.dev.arcServes = true ∧ d = s.dev.wakeService.arcSync ∧ d.blk i = some b ∧ b.phase = .staged ∧ d.isNext b = true ∧ b.pool = .retained ∧ d.vol b.key.vol = some v ∧ d.chooseMech v b = none) ∧
    (let m : Mech := 0; let s : State := join0; let d : Dev := s.dev.wakeService.arcSync; let t : Nat := (d.arc.joinAt[0]).getD 0; s.dev.up = true ∧ s.dev.arcServes = true ∧ d = s.dev.wakeService.arcSync ∧ (d.arc.joinAt[m.val]) = some t ∧ tbit d.arc.joined m.val = false ∧ d.canPlace m = true) ∧
    (let m : Mech := 0; let s : State := arc0; let d : Dev := s.dev.wakeService.arcSync; s.dev.up = true ∧ s.dev.arcServes = true ∧ d = s.dev.wakeService.arcSync ∧ d.canPlace m = false) := by
  refine ⟨?_, ?_, ?_, ?_, ?_, ?_⟩ <;> (dsimp only; decide +kernel)

/-- The hypotheses of `Obligations.Checkpoints` are met: one state and operands for each of its clauses that has any. -/
theorem witness_Checkpoints :
    (let m : Mech := 0; let s : State := arc0; let d : Dev := s.dev.wakeService.arcSync; s.dev.up = true ∧ s.dev.arcServes = true ∧ d = s.dev.wakeService.arcSync ∧ ((d.arc.ckpts[m.val]).isSome = true ∨ d.discIn m = none)) ∧
    (let m : Mech := 0; let s : State := M place0 (fun x => { x with goat := { x.goat with drt := [⟨9, 77, 1, false, false, 0, 0⟩, ⟨8, 78, 1, true, false, 0, 0⟩] } }); let d : Dev := s.dev.wakeService.arcSync; let x : Disc := disc0; s.dev.up = true ∧ s.dev.arcServes = true ∧ d = s.dev.wakeService.arcSync ∧ d.arc.ckpts[m.val] = none ∧ d.discIn m = some x) ∧
    (let m : Mech := 0; let s : State := arc0; let d : Dev := s.dev.wakeService.arcSync; s.dev.up = true ∧ s.dev.arcServes = true ∧ d = s.dev.wakeService.arcSync ∧ (d.arc.ckpts[m.val]) = none) ∧
    (let m : Mech := 0; let c : Ckpt := ⟨[], true, false⟩; let s : State := A place0 fun a => { a with ckpts := a.ckpts.set 0 (some c) }; let d : Dev := s.dev.wakeService.arcSync; let x : Disc := disc0; let cls : Fin 3 := 2; s.dev.up = true ∧ s.dev.arcServes = true ∧ d = s.dev.wakeService.arcSync ∧ d.arc.ckpts[m.val] = some c ∧ d.discIn m = some x ∧ cls = 2) ∧
    (let m : Mech := 0; let c : Ckpt := ⟨[], true, false⟩; let s : State := A place0 fun a => { a with ckpts := a.ckpts.set 0 (some c) }; let d : Dev := s.dev.wakeService.arcSync; let x : Disc := disc0; let cls : Fin 3 := 1; s.dev.up = true ∧ s.dev.arcServes = true ∧ d = s.dev.wakeService.arcSync ∧ d.arc.ckpts[m.val] = some c ∧ d.discIn m = some x ∧ cls ≠ 2 ∧ c.thenExchange = false) := by
  refine ⟨?_, ?_, ?_, ?_, ?_⟩ <;> (dsimp only; decide +kernel)

/-- The hypotheses of `Obligations.DiscsOfTheService` are met: one state and operands for each of its clauses that has any. -/
theorem witness_DiscsOfTheService :
    (let m : Mech := 0; let s : State := arc0; let d : Dev := s.dev.wakeService.arcSync; s.dev.up = true ∧ s.dev.arcServes = true ∧ d = s.dev.wakeService.arcSync ∧ (d.get (Reg.MCH_STATE_DISC m) = 0 ∨ (d.discIn m).isSome = true)) ∧
    (let m : Mech := 0; let s : State := R arc0 [(Reg.MCH_STATE_DISC 0, 1)]; let d : Dev := s.dev.wakeService.arcSync; let r : DiscInfo := info0; s.dev.up = true ∧ s.dev.arcServes = true ∧ d = s.dev.wakeService.arcSync ∧ d.get (Reg.MCH_STATE_DISC m) = 1 ∧ d.discIn m = none ∧ r.blank = false ∧ ((d.arc.discs.find? fun x => decide (x.ident = r.discId.toNat ∧ x.mech = none)) = none)) ∧
    (let m : Mech := 0; let s : State := R arc0 [(Reg.MCH_STATE_DISC 0, 1)]; let d : Dev := s.dev.wakeService.arcSync; let r : DiscInfo := { info0 with blank := true }; s.dev.up = true ∧ s.dev.arcServes = true ∧ d = s.dev.wakeService.arcSync ∧ d.get (Reg.MCH_STATE_DISC m) = 1 ∧ d.discIn m = none ∧ r.blank = true) ∧
    (let m : Mech := 0; let s : State := place0; let d : Dev := s.dev.wakeService.arcSync; let x : Disc := disc0; s.dev.up = true ∧ s.dev.arcServes = true ∧ d = s.dev.wakeService.arcSync ∧ d.discIn m = some x ∧ (x.full = true ∨ d.exhausted m x = false)) ∧
    (let m : Mech := 0; let x : Disc := disc0; let s : State := A arc0 fun a => { a with discs := [{ x with swath := 6875 }] }; let x : Disc := { x with swath := 6875 }; let d : Dev := s.dev.wakeService.arcSync; s.dev.up = true ∧ s.dev.arcServes = true ∧ d = s.dev.wakeService.arcSync ∧ d.discIn m = some x ∧ x.full = false ∧ d.exhausted m x = true ∧ (d.arc.ckpts[m.val]) = none) ∧
    (let m : Mech := 0; let s : State := arc0; let d : Dev := s.dev.wakeService.arcSync; s.dev.up = true ∧ s.dev.arcServes = true ∧ d = s.dev.wakeService.arcSync ∧ (d.policy 1 2 1 ≠ 1 ∨ tbit d.arc.exch m.val = false ∨ d.mstate m ≠ .exchange ∨ (d.arc.discInAt[m.val]) = none)) ∧
    (let m : Mech := 0; let s : State := A (I (R arc0 [(Reg.MCH_STATE_STATE 0, 10)]) [rc 0xA0 [0, 4]] []) fun a => { a with exch := 1, discInAt := a.discInAt.set 0 (some 2) }; let d : Dev := s.dev.wakeService.arcSync; s.dev.up = true ∧ s.dev.arcServes = true ∧ d = s.dev.wakeService.arcSync ∧ d.policy 1 2 1 = 1 ∧ tbit d.arc.exch m.val = true ∧ d.mstate m = .exchange ∧ (d.arc.discInAt[m.val]).isSome = true) := by
  refine ⟨?_, ?_, ?_, ?_, ?_, ?_, ?_⟩ <;> (dsimp only; decide +kernel)

/-- The hypotheses of `Obligations.MailboxCommands` are met: one state and operands for each of its clauses that has any. -/
theorem witness_MailboxCommands :
    (let s : State := up0; let d : Dev := s.dev.wakeService; s.dev.up = true ∧ s.dev.inReset 26 = false ∧ d = s.dev.wakeService ∧ (d.arcServes = false ∨ d.arc.ckpts.toList.any (fun c => c.any (fun c => c.mbox)) = true)) ∧
    (let m : Mech := 0; let s : State := I arc0 [] []; let d : Dev := s.dev.wakeService; s.dev.up = true ∧ s.dev.inReset 26 = false ∧ d = s.dev.wakeService ∧ d.arcServes = true ∧ (d.arc.ckpts.toList.any (fun c => c.any (fun c => c.mbox)) = false) ∧ d.present m = true) ∧
    (let m : Mech := 0; let s : State := arc0; let d : Dev := s.dev.wakeService; s.dev.up = true ∧ s.dev.inReset 26 = false ∧ d = s.dev.wakeService ∧ d.arcServes = true ∧ (d.arc.ckpts.toList.any (fun c => c.any (fun c => c.mbox)) = false) ∧ d.present m = false) ∧
    (let m : Mech := 0; let s : State := A arc0 fun a => { a with held := 1 }; let d : Dev := s.dev.wakeService; s.dev.up = true ∧ s.dev.inReset 26 = false ∧ d = s.dev.wakeService ∧ d.arcServes = true ∧ (d.arc.ckpts.toList.any (fun c => c.any (fun c => c.mbox)) = false) ∧ tbit d.arc.held m.val = true) ∧
    (let m : Mech := 0; let s : State := arc0; let d : Dev := s.dev.wakeService; s.dev.up = true ∧ s.dev.inReset 26 = false ∧ d = s.dev.wakeService ∧ d.arcServes = true ∧ (d.arc.ckpts.toList.any (fun c => c.any (fun c => c.mbox)) = false) ∧ tbit d.arc.held m.val = false) ∧
    (let m : Mech := 0; let s : State := R place0 [(Reg.DRT_STAT_LOADED 0, 1)]; let d : Dev := s.dev.wakeService; s.dev.up = true ∧ s.dev.inReset 26 = false ∧ d = s.dev.wakeService ∧ d.arcServes = true ∧ (d.arc.ckpts.toList.any (fun c => c.any (fun c => c.mbox)) = false) ∧ d.discLoaded m = true ∧ d.arc.ckpts[m.val] = none) ∧
    (let m : Mech := 0; let s : State := arc0; let d : Dev := s.dev.wakeService; s.dev.up = true ∧ s.dev.inReset 26 = false ∧ d = s.dev.wakeService ∧ d.arcServes = true ∧ (d.arc.ckpts.toList.any (fun c => c.any (fun c => c.mbox)) = false) ∧ d.discLoaded m = false) ∧
    (let m : Mech := 0; let s : State := R place0 [(Reg.DRT_STAT_LOADED 0, 1)]; let d : Dev := s.dev.wakeService; s.dev.up = true ∧ s.dev.inReset 26 = false ∧ d = s.dev.wakeService ∧ d.arcServes = true ∧ (d.arc.ckpts.toList.any (fun c => c.any (fun c => c.mbox)) = false) ∧ d.discLoaded m = true ∧ d.mstate m ≠ .exchange ∧ d.arc.ckpts[m.val] = none) ∧
    (let m : Mech := 0; let s : State := arc0; let d : Dev := s.dev.wakeService; s.dev.up = true ∧ s.dev.inReset 26 = false ∧ d = s.dev.wakeService ∧ d.arcServes = true ∧ (d.arc.ckpts.toList.any (fun c => c.any (fun c => c.mbox)) = false) ∧ (d.discLoaded m = false ∨ d.mstate m = .exchange)) ∧
    (let m : Mech := 0; let s : State := A (R arc0 [(Reg.MCH_STATE_STATE 0, 10)]) fun a => { a with exch := 1 }; let d : Dev := s.dev.wakeService; s.dev.up = true ∧ s.dev.inReset 26 = false ∧ d = s.dev.wakeService ∧ d.arcServes = true ∧ (d.arc.ckpts.toList.any (fun c => c.any (fun c => c.mbox)) = false) ∧ tbit d.arc.exch m.val = true ∧ d.mstate m = .exchange) ∧
    (let m : Mech := 0; let s : State := arc0; let d : Dev := s.dev.wakeService; s.dev.up = true ∧ s.dev.inReset 26 = false ∧ d = s.dev.wakeService ∧ d.arcServes = true ∧ (d.arc.ckpts.toList.any (fun c => c.any (fun c => c.mbox)) = false) ∧ (tbit d.arc.exch m.val = false ∨ d.mstate m ≠ .exchange)) := by
  refine ⟨?_, ?_, ?_, ?_, ?_, ?_, ?_, ?_, ?_, ?_, ?_⟩ <;> (dsimp only; decide +kernel)

/-- The hypotheses of `Obligations.DmaChannelCommands` are met: one state and operands for each of its clauses that has any. -/
theorem witness_DmaChannelCommands :
    (let n : DmaCh := 60; let s : State := dma 0 []; DmaOpen s.dev n ∧ s.dev.dmaState n = 0) ∧
    (let n : DmaCh := 60; let s : State := dma 3 []; DmaOpen s.dev n ∧ s.dev.dmaState n = 3) ∧
    (let n : DmaCh := 60; let s : State := dma 4 []; DmaOpen s.dev n ∧ (s.dev.dmaState n = 1 ∨ s.dev.dmaState n = 2 ∨ s.dev.dmaState n = 4)) ∧
    (let n : DmaCh := 60; let s : State := dma 1 []; DmaOpen s.dev n ∧ s.dev.dmaState n = 1) ∧
    (let n : DmaCh := 60; let s : State := dma 2 []; DmaOpen s.dev n ∧ s.dev.dmaState n = 2) ∧
    (let n : DmaCh := 60; let s : State := dma 0 []; DmaOpen s.dev n ∧ s.dev.dmaState n = 0) ∧
    (let n : DmaCh := 60; let s : State := R (dma 5 []) [(Reg.DMA_CH_CNT_CNT 60 3, 7), (Reg.DMA_CH_PC_LO_PC 60, 32)]; DmaOpen s.dev n ∧ (s.dev.dmaState n = 3 ∨ s.dev.dmaState n = 4 ∨ s.dev.dmaState n = 5)) ∧
    (let n : DmaCh := 60; let s : State := dma 1 []; DmaOpen s.dev n ∧ s.dev.dmaState n = 1) ∧
    (let n : DmaCh := 60; let s : State := dma 5 []; DmaOpen s.dev n ∧ (s.dev.dmaState n = 0 ∨ s.dev.dmaState n = 3 ∨ s.dev.dmaState n = 5)) ∧
    (let n : DmaCh := 60; let s : State := dma 5 []; DmaOpen s.dev n ∧ (s.dev.dmaState n = 0 ∨ s.dev.dmaState n = 3 ∨ s.dev.dmaState n = 5)) ∧
    (let n : DmaCh := 60; let s : State := dma 1 []; let w : Word := 0x7E; DmaOpen s.dev n ∧ bits w.toNat 0 2 = 2) ∧
    (let s : State := up0; let n : DmaCh := 59; let c := Instr.dmaStop 59; s.dev.up = true ∧ s.dev.inReset 18 = false ∧ s.dev.get (Reg.DMA_CH_CFG_OWNER n) ≠ 2 ∧ (c = Instr.dmaStart n ∨ c = .dmaStop n ∨ c = .dmaClear n ∨ (∃ h w, c = .dmaPcWrite n h w) ∨ (∃ w, c = .dmaCfgWrite n w))) ∧
    (let s : State := up0; s.dev.up = true ∧ s.dev.inReset 18 = false) := by
  refine ⟨?_, ?_, ?_, ?_, ?_, ?_, ?_, ?_, ?_, ?_, ?_, ?_, ?_⟩ <;> (dsimp only; decide +kernel)

/-- The hypotheses of `Obligations.DmaInstructions` are met: one state and operands for each of its clauses that has any. -/
theorem witness_DmaInstructions :
    (let n : DmaCh := 60; let s : State := dma 1 (prog 0 0 0); s.dev.get (Reg.DMA_CH_STAT_STOP_PENDING n) = 0 ∧ DmaHolds s.dev n .done) ∧
    (let n : DmaCh := 60; let s : State := dma 1 (prog (1 + 2 * 16 + 2 * 64 + 1024 + 2 * 65536) 0 100); let len : Nat := 3; let src : Nat := 0; let dst : Nat := 100; s.dev.get (Reg.DMA_CH_STAT_STOP_PENDING n) = 0 ∧ DmaHolds s.dev n (.move 2 2 false false true false len src dst) ∧ s.dev.accessStop n 2 false true dst len = none) ∧
    (let n : DmaCh := 60; let s : State := dma 1 (prog (1 + 2 * 16 + 2 * 64 + 2 * 65536) 98 100); let len : Nat := 3; let src : Nat := 98; let dst : Nat := 100; let s : State := { s with buf := [(98, 5), (99, 6), (100, 7)] }; s.dev.get (Reg.DMA_CH_STAT_STOP_PENDING n) = 0 ∧ DmaHolds s.dev n (.move 2 2 false false false false len src dst) ∧ s.dev.accessStop n 2 false false src len = none ∧ s.dev.accessStop n 2 false true dst len = none ∧ s.dev.poisoned src len = false) ∧
    (let n : DmaCh := 60; let s : State := dma 1 (prog (2 + 3 * 16 + 2 * 256) 64 0); let k : Fin 4 := 3; let count : Nat := 2; let target : Nat := 64; let ss : Nat := 0; let sd : Nat := 0; s.dev.get (Reg.DMA_CH_STAT_STOP_PENDING n) = 0 ∧ DmaHolds s.dev n (.loop k count target ss sd)) ∧
    (let n : DmaCh := 60; let s : State := R (dma 1 (prog (3 + 63 * 256 + 5 * 2 ^ 32) 0 0)) [(Reg.DMA_SEM_VALUE 63, 5)]; let sem : Fin 64 := 63; let value : Nat := 5; let time : Nat := 0; let timeout : Nat := 0; s.dev.get (Reg.DMA_CH_STAT_STOP_PENDING n) = 0 ∧ DmaHolds s.dev n (.wait 0 sem value time timeout) ∧ s.dev.outranked n sem = false ∧ value ≤ s.dev.get (Reg.DMA_SEM_VALUE sem)) ∧
    (let n : DmaCh := 60; let s : State := R (dma 1 (prog (3 + 63 * 256 + 5 * 2 ^ 32) 0 0)) [(Reg.DMA_SEM_VALUE 63, 4)]; let sem : Fin 64 := 63; let value : Nat := 5; let time : Nat := 0; let timeout : Nat := 0; s.dev.get (Reg.DMA_CH_STAT_STOP_PENDING n) = 0 ∧ DmaHolds s.dev n (.wait 0 sem value time timeout) ∧ s.dev.outranked n sem = false ∧ s.dev.get (Reg.DMA_SEM_VALUE sem) < value) ∧
    (let n : DmaCh := 60; let s : State := R (dma 1 (prog (4 + 63 * 256 + 5 * 2 ^ 32) 0 0)) [(Reg.DMA_SEM_VALUE 63, 0xFFFFFFFE)]; let sem : Fin 64 := 63; let value : Nat := 5; let sp : Nat := 0; let addr : Nat := 0; s.dev.get (Reg.DMA_CH_STAT_STOP_PENDING n) = 0 ∧ DmaHolds s.dev n (.signal 0 sp sem value addr)) := by
  refine ⟨?_, ?_, ?_, ?_, ?_, ?_, ?_⟩
  · dsimp only; decide +kernel
  · dsimp only; and_intros <;> first | exact (accessStop_open _ _ _ _ _ (by decide +kernel) (by decide +kernel) (by decide +kernel)) | decide +kernel
  · dsimp only; and_intros <;> first | exact (accessStop_open _ _ _ _ _ (by decide +kernel) (by decide +kernel) (by decide +kernel)) | decide +kernel
  · dsimp only; decide +kernel
  · dsimp only; decide +kernel
  · dsimp only; decide +kernel
  · dsimp only; decide +kernel

/-- The hypotheses of `Obligations.DmaWaitsAndFailures` are met: one state and operands for each of its clauses that has any. -/
theorem witness_DmaWaitsAndFailures :
    (let n : DmaCh := 60; let s : State := R (dma 2 (prog (3 + 63 * 256 + 5 * 2 ^ 32) 0 9)) [(Reg.DMA_SEM_VALUE 63, 5)]; let kind : Nat := 0; let sem : Fin 64 := 63; let value : Nat := 5; let time : Nat := 0; let limit : Nat := 9; s.dev.waitingOn n = some (.wait kind sem value time limit) ∧ s.dev.waitHolds n kind sem value time = true) ∧
    (let n : DmaCh := 60; let s : State := R (dma 2 (prog (3 + 63 * 256 + 5 * 2 ^ 32) 0 9)) [(Reg.DMA_SEM_VALUE 63, 4)]; let kind : Nat := 0; let sem : Fin 64 := 63; let value : Nat := 5; let time : Nat := 0; let limit : Nat := 9; s.dev.waitingOn n = some (.wait kind sem value time limit) ∧ s.dev.waitHolds n kind sem value time = false) ∧
    (let n : DmaCh := 60; let s : State := R (dma 2 (prog (3 + 63 * 256 + 5 * 2 ^ 32) 0 9)) [(Reg.DMA_SEM_VALUE 63, 4)]; let kind : Nat := 0; let sem : Fin 64 := 63; let value : Nat := 5; let time : Nat := 0; let limit : Nat := 9; s.dev.waitingOn n = some (.wait kind sem value time limit) ∧ limit ≠ 0 ∧ s.dev.waitHolds n kind sem value time = false) ∧
    (let n : DmaCh := 60; let s : State := R (dma 2 (prog (3 + 63 * 256 + 5 * 2 ^ 32) 0 0)) [(Reg.DMA_SEM_VALUE 63, 4)]; let kind : Nat := 0; let sem : Fin 64 := 63; let value : Nat := 5; let time : Nat := 0; let limit : Nat := 0; s.dev.waitingOn n = some (.wait kind sem value time limit) ∧ limit = 0) ∧
    (let n : DmaCh := 60; let s : State := R (dma 1 []) [(Reg.DMA_CH_CFG_RETRY 60, 1)]; let f : DmaFail := .bus; let sp : Fin 4 := 3; s.dev.dmaRuns n = true ∧ f ≠ .fetch ∧ ¬(f = .poison ∧ sp = 2) ∧ (s.dev.dma[n.val]).tries < s.dev.get (Reg.DMA_CH_CFG_RETRY n)) ∧
    (let n : DmaCh := 60; let s : State := R (dma 1 []) [(Reg.DMA_CH_CFG_RETRY 60, 0)]; let f : DmaFail := .poison; let sp : Fin 4 := 1; s.dev.dmaRuns n = true ∧ f ≠ .fetch ∧ ¬(f = .poison ∧ sp = 2) ∧ s.dev.get (Reg.DMA_CH_CFG_RETRY n) ≤ (s.dev.dma[n.val]).tries) ∧
    (let n : DmaCh := 60; let s : State := dma 1 []; let f : DmaFail := .fetch; s.dev.dmaRuns n = true ∧ f = .fetch) ∧
    (let n : DmaCh := 60; let s : State := dma 1 []; let f : DmaFail := .poison; let sp : Fin 4 := 2; s.dev.dmaRuns n = true ∧ f = .poison ∧ sp = 2) ∧
    (let n : DmaCh := 60; let s : State := R (dma 1 []) [(Reg.DMA_CH_CFG_RETRY 60, 1)]; let sp : Fin 4 := 2; s.dev.dmaRuns n = true ∧ 2 ≤ sp.val ∧ s.dev.get (Reg.DMA_CH_CFG_EPOCH_STOP n) = 0 ∧ (s.dev.dma[n.val]).reissues < s.dev.get (Reg.DMA_CH_CFG_RETRY n)) ∧
    (let n : DmaCh := 60; let late : Bool := false; let s : State := dma 1 []; let sp : Fin 4 := 1; s.dev.dmaRuns n = true ∧ (sp.val < 2 ∨ s.dev.get (Reg.DMA_CH_CFG_EPOCH_STOP n) = 1 ∨ late = true)) := by
  refine ⟨?_, ?_, ?_, ?_, ?_, ?_, ?_, ?_, ?_, ?_⟩ <;> (dsimp only; decide +kernel)

/-- The hypotheses of `Obligations.MetadataRequests` are met: one state and operands for each of its clauses that has any. -/
theorem witness_MetadataRequests :
    (let x : Line := line0; let s : State := mdc0 [x] []; let a : Nat := 1151; s.dev.up = true ∧ s.dev.inReset 19 = false ∧ s.dev.findLine (lineOf a) = some x ∧ (x.lock = true ∨ s.dev.get Reg.MDC_STAT_ENABLED = 1)) ∧
    (let x : Line := line0; let s : State := mdc0 [x] []; let a : Nat := 1151; s.dev.up = true ∧ s.dev.inReset 19 = false ∧ s.dev.findLine (lineOf a) = some x ∧ (x.lock = true ∨ s.dev.get Reg.MDC_STAT_ENABLED = 1)) ∧
    (let x : Miss := ⟨1024, List.replicate 15 ⟨1024, none⟩, [], false⟩; let s : State := mdc0 [] [x]; let a : Nat := 1151; s.dev.up = true ∧ s.dev.inReset 19 = false ∧ s.dev.findLine (lineOf a) = none ∧ s.dev.missOf (lineOf a) = some x ∧ x.waiters.length < 16) ∧
    (let s : State := R (mdc0 [] (List.replicate 63 ⟨2048, [], [], false⟩)) [(Reg.MDC_CTL_PREFETCH, 0)]; let a : Nat := 1151; s.dev.up = true ∧ s.dev.inReset 19 = false ∧ s.dev.findLine (lineOf a) = none ∧ s.dev.missOf (lineOf a) = none ∧ s.dev.get Reg.MDC_CTL_EN = 1 ∧ s.dev.get Reg.MDC_CTL_PREFETCH = 0 ∧ s.dev.mdc.misses.length < 64) ∧
    (let s : State := R (mdc0 [] []) [(Reg.MDC_CTL_EN, 0)]; let a : Nat := 1151; s.dev.up = true ∧ s.dev.inReset 19 = false ∧ s.dev.findLine (lineOf a) = none ∧ s.dev.missOf (lineOf a) = none ∧ s.dev.get Reg.MDC_CTL_EN = 0) := by
  refine ⟨?_, ?_, ?_, ?_, ?_⟩ <;> (dsimp only; decide +kernel)

/-- The hypotheses of `Obligations.Prefetches` are met: one state and operands for each of its clauses that has any. -/
theorem witness_Prefetches :
    (let s : State := mdc0 [] (List.replicate 55 ⟨2048, [], [], false⟩); let a : Nat := 1151; s.dev.up = true ∧ s.dev.inReset 19 = false ∧ s.dev.get Reg.MDC_CTL_EN = 1 ∧ s.dev.findLine (lineOf a) = none ∧ s.dev.missOf (lineOf a) = none ∧ s.dev.mdc.misses.length < 64 ∧ s.dev.get Reg.MDC_CTL_PREFETCH = 1) ∧
    (let s : State := R (mdc0 [] []) [(Reg.MDC_CTL_PREFETCH, 0)]; let a : Nat := 1151; s.dev.up = true ∧ s.dev.inReset 19 = false ∧ s.dev.get Reg.MDC_CTL_EN = 1 ∧ s.dev.findLine (lineOf a) = none ∧ s.dev.missOf (lineOf a) = none ∧ s.dev.mdc.misses.length < 64 ∧ s.dev.get Reg.MDC_CTL_PREFETCH = 0) ∧
    (let x : Miss := ⟨1024, [], [], true⟩; let s : State := mdc0 [] [x]; let l : Nat := 1024; s.dev.up = true ∧ lineOf l = l ∧ s.dev.missOf l = some x ∧ s.dev.groupDown l = false ∧ x.waiters = [] ∧ x.later = [] ∧ s.dev.mdc.waiting = [] ∧ s.dev.mdc.maint = none ∧ s.dev.poisoned l 128 = false) := by
  refine ⟨?_, ?_, ?_⟩
  · dsimp only; decide +kernel
  · dsimp only; decide +kernel
  · dsimp only; and_intros <;> first | exact (groupDown_clear _ _ (by decide +kernel)) | decide +kernel

/-- The hypotheses of `Obligations.CacheFillsAndEnable` are met: one state and operands for each of its clauses that has any. -/
theorem witness_CacheFillsAndEnable :
    (let x : Miss := ⟨1024, [], [], false⟩; let s : State := mdc0 [{ line0 with addr := 2048 }] [x]; let l : Nat := 1024; s.dev.up = true ∧ lineOf l = l ∧ s.dev.missOf l = some x ∧ s.dev.groupDown l = false ∧ x.waiters = [] ∧ x.later = [] ∧ s.dev.mdc.waiting = [] ∧ s.dev.mdc.maint = none ∧ s.dev.poisoned l 128 = false ∧ ((∀ y ∈ s.dev.mdc.lines, Dev.setOf y.addr ≠ Dev.setOf l))) ∧
    (let s : State := up0; let l : Nat := 5; s.dev.missOf (lineOf l) = none) ∧
    (let x : Maint := ⟨5, false, []⟩; let s : State := D (R up0 [(Reg.MDC_STAT_STALE_RISK, 1), (Reg.MDC_MAINT_STAT_RESULT, 1)]) fun d => d.modMdc fun c => { c with maint := some x }; s.dev.mdc.maint = some x ∧ x.deferred = []) ∧
    (let s : State := mdc0 [line0] []; s.dev.up = true ∧ s.dev.inReset 19 = false ∧ s.dev.get Reg.MDC_CTL_EN = 1) ∧
    (let s : State := D (R (mdc0 [line0] []) [(Reg.MDC_CTL_EN, 0), (Reg.MDC_STAT_ENABLED, 0)]) fun d => d.modMdc fun c => { c with disabledValid := true }; s.dev.up = true ∧ s.dev.inReset 19 = false ∧ s.dev.get Reg.MDC_CTL_EN = 0) ∧
    (let m : Mech := 0; let n : LoopId := 0; let s : State := up0; s.dev.live m ∧ (s.dev.get (Reg.SRV_LSTAT_SWITCH_PENDING m n) = 0 ∨ ((s.dev.mx m).srv.loops[n.val]).shadow.isSome = true)) ∧
    (let m : Mech := 0; let x : Line := { line0 with addr := 128, lock := true }; let s : State := R (I (mdc0 [x] []) [] []) [(Reg.SRV_LSTAT_SWITCH_PENDING 0 0, 1), (Reg.SRV_LSTAT_PEND_BANK 0 0, 7)]; let n : LoopId := 0; s.dev.live m ∧ s.dev.get (Reg.SRV_LSTAT_SWITCH_PENDING m n) = 1 ∧ ((s.dev.mx m).srv.loops[n.val]).shadow = none ∧ s.dev.inReset 19 = false ∧ s.dev.findLine (lineOf (Dev.bankAddr m n (s.dev.get (Reg.SRV_LSTAT_PEND_BANK m n)))) = some x ∧ x.lock = true ∧ s.dev.missOf (lineOf (Dev.bankAddr m n (s.dev.get (Reg.SRV_LSTAT_PEND_BANK m n)))) = none) := by
  refine ⟨?_, ?_, ?_, ?_, ?_, ?_, ?_⟩
  · dsimp only; and_intros <;> first | exact (groupDown_clear _ _ (by decide +kernel)) | decide +kernel
  · dsimp only; decide +kernel
  · dsimp only; decide +kernel
  · dsimp only; decide +kernel
  · dsimp only; decide +kernel
  · dsimp only; decide +kernel
  · dsimp only; decide +kernel

/-- The hypotheses of `Obligations.CacheMaintenance` are met: one state and operands for each of its clauses that has any. -/
theorem witness_CacheMaintenance :
    (let s : State := R up0 [(Reg.MDC_MAINT_STAT_RESULT, 1)]; s.dev.up = true ∧ s.dev.inReset 19 = false ∧ s.dev.get Reg.MDC_MAINT_STAT_RESULT = 1) ∧
    (let x : Line := { line0 with dirty := true }; let s : State := R (mdc0 [x] []) [(Reg.MDC_MAINT_ADDR_LO_ADDR, 1151), (Reg.MDC_MAINT_STAT_RESULT, 2)]; s.dev.up = true ∧ s.dev.inReset 19 = false ∧ s.dev.get Reg.MDC_MAINT_STAT_RESULT ≠ 1 ∧ s.dev.get Reg.MDC_MAINT_CMD_RANGE = 0 ∧ s.dev.findLine s.dev.maintAddr = some x ∧ x.lock = false ∧ s.dev.missOf s.dev.maintAddr = none) ∧
    (let x : Line := { line0 with dirty := true }; let s : State := R (mdc0 [x] []) [(Reg.MDC_MAINT_ADDR_LO_ADDR, 1151), (Reg.MDC_MAINT_STAT_RESULT, 2)]; s.dev.up = true ∧ s.dev.inReset 19 = false ∧ s.dev.get Reg.MDC_MAINT_STAT_RESULT ≠ 1 ∧ s.dev.get Reg.MDC_MAINT_CMD_RANGE = 0 ∧ s.dev.findLine s.dev.maintAddr = some x ∧ x.lock = false ∧ s.dev.missOf s.dev.maintAddr = none ∧ x.dirty = true) ∧
    (let x : Line := { line0 with dirty := true }; let s : State := R (mdc0 [x] []) [(Reg.MDC_MAINT_ADDR_LO_ADDR, 1151), (Reg.MDC_MAINT_STAT_RESULT, 2)]; s.dev.up = true ∧ s.dev.inReset 19 = false ∧ s.dev.get Reg.MDC_MAINT_STAT_RESULT ≠ 1 ∧ s.dev.get Reg.MDC_MAINT_CMD_RANGE = 0 ∧ s.dev.findLine s.dev.maintAddr = some x ∧ x.lock = false ∧ s.dev.missOf s.dev.maintAddr = none) ∧
    (let x : Line := { line0 with dirty := true }; let s : State := R (mdc0 [x] []) [(Reg.MDC_MAINT_ADDR_LO_ADDR, 1151), (Reg.MDC_MAINT_STAT_RESULT, 2)]; s.dev.up = true ∧ s.dev.inReset 19 = false ∧ s.dev.get Reg.MDC_MAINT_STAT_RESULT ≠ 1 ∧ s.dev.get Reg.MDC_MAINT_CMD_RANGE = 0 ∧ s.dev.findLine s.dev.maintAddr = some x ∧ x.lock = false ∧ s.dev.missOf s.dev.maintAddr = none ∧ x.dirty = true) ∧
    (let s : State := R (mdc0 [] []) [(Reg.MDC_MAINT_ADDR_LO_ADDR, 1151), (Reg.MDC_STAT_LOCKED_WAYS, 1)]; let w : Nat := 0; s.dev.up = true ∧ s.dev.inReset 19 = false ∧ s.dev.get Reg.MDC_MAINT_STAT_RESULT ≠ 1 ∧ s.dev.get Reg.MDC_MAINT_CMD_RANGE = 0 ∧ s.dev.findLine s.dev.maintAddr = none ∧ s.dev.missOf s.dev.maintAddr = none ∧ s.dev.groupDown s.dev.maintAddr = false ∧ s.dev.poisoned s.dev.maintAddr 128 = false ∧ s.dev.lockPos s.dev.maintAddr = some w) ∧
    (let s : State := mdc0 [line0, { line0 with addr := 0, dirty := true }] []; s.dev.up = true ∧ s.dev.inReset 19 = false ∧ s.dev.get Reg.MDC_MAINT_STAT_RESULT ≠ 1 ∧ s.dev.mdc.misses = [] ∧ ((∀ x ∈ s.dev.mdc.lines, x.lock = false))) := by
  refine ⟨?_, ?_, ?_, ?_, ?_, ?_, ?_⟩
  · dsimp only; decide +kernel
  · dsimp only; decide +kernel
  · dsimp only; decide +kernel
  · dsimp only; decide +kernel
  · dsimp only; decide +kernel
  · dsimp only; and_intros <;> first | exact (groupDown_clear _ _ (by decide +kernel)) | decide +kernel
  · dsimp only; decide +kernel

/-- The hypotheses of `Obligations.RegisterAccesses` are met: one state and operands for each of its clauses that has any. -/
theorem witness_RegisterAccesses :
    (let p : Port := .A; let s : State := R up1s [(Reg.GCTL_EPOCH_IN_RESET 0, 1)]; let off : Nat := 0x800000; let n : Part := 0; let d : Dev := s.dev.wakePort p; s.dev.barOpen p = true ∧ off < 0x8000000 ∧ d = s.dev.wakePort p ∧ off % 4 = 0 ∧ s.dev.downPart (some p) off = some n) ∧
    (let p : Port := .A; let s : State := up1s; let off : Nat := 0x800001; let d : Dev := s.dev.wakePort p; s.dev.barOpen p = true ∧ off < 0x8000000 ∧ d = s.dev.wakePort p ∧ off % 4 ≠ 0) ∧
    (let p : Port := .A; let s : State := up1s; let off : Nat := 0x7FFFFFC; let d : Dev := s.dev.wakePort p; s.dev.barOpen p = true ∧ off < 0x8000000 ∧ d = s.dev.wakePort p ∧ 0x1800000 ≤ off ∧ off % 4 = 0 ∧ Sparse.lookup d.latches off = none) ∧
    (let p : Port := .A; let s : State := D up1s fun d => { d with ox := { d.ox with devTime := 0x500000006 } }; let off : Nat := 0; let d : Dev := s.dev.wakePort p; s.dev.barOpen p = true ∧ off < 0x8000000 ∧ d = s.dev.wakePort p ∧ Sparse.lookup d.latches 0x10000 = none) ∧
    (let p : Port := .A; let s : State := D up1s fun d => { d with latches := [(0x10004, 5)] }; let off : Nat := 0; let v : Nat := 5; let d : Dev := s.dev.wakePort p; s.dev.barOpen p = true ∧ off < 0x8000000 ∧ d = s.dev.wakePort p ∧ Sparse.lookup d.latches 0x10004 = some v) ∧
    (let p : Port := .A; let s : State := R up1s [(Reg.OXA_SMB_STAT_PEC_ERR, 5), (Reg.OXA_SMB_STAT_BAD_CMD, 65535)]; let off : Nat := 0; let d : Dev := s.dev.wakePort p; s.dev.barOpen p = true ∧ off < 0x8000000 ∧ d = s.dev.wakePort p ∧ Sparse.lookup d.latches Reg.OXA_SMB_STAT_PEC_ERR.off = none) ∧
    (let p : Port := .A; let s : State := R up1s [(Reg.OXA_WAKE_SRC_SRC, 63)]; let off : Nat := 0; let d : Dev := s.dev.wakePort p; s.dev.barOpen p = true ∧ off < 0x8000000 ∧ d = s.dev.wakePort p) := by
  refine ⟨?_, ?_, ?_, ?_, ?_, ?_, ?_⟩ <;> (dsimp only; decide +kernel)

/-- The hypotheses of `Obligations.PortAccesses` are met: one state and operands for each of its clauses that has any. -/
theorem witness_PortAccesses :
    (let p : Port := .A; let lb : BitVec 4 := 0; let s : State := up1s; let off : Word := 1; let fb : BitVec 4 := 15; s.dev.barOpen p = true ∧ (off.toNat % 4 ≠ 0 ∨ fb ≠ 15 ∨ lb ≠ 0)) ∧
    (let p : Port := .A; let lb : BitVec 4 := 0; let s : State := up1s; let off : Word := 4; let fb : BitVec 4 := 15; s.dev.barOpen p = true ∧ off.toNat % 4 = 0 ∧ fb = 15 ∧ lb = 0) ∧
    (let s : State := R allCh [(Reg.BUF_CTL_BAR2_WR_EN, 1), (Reg.BUF_STAT_ACTIVE, 20)]; let a : Nat := 80530636799; let bs : List Byte := [7]; s.dev.up = true ∧ a < 2 ^ 37 ∧ s.dev.groupDown a = false ∧ s.dev.get Reg.BUF_CTL_BAR2_WR_EN = 1 ∧ a + bs.length ≤ s.dev.usable) ∧
    (let s : State := R allCh [(Reg.BUF_STAT_ACTIVE, 20)]; let a : Nat := 5; s.dev.up = true ∧ a < 2 ^ 37 ∧ s.dev.groupDown a = false ∧ s.dev.get Reg.BUF_CTL_BAR2_WR_EN = 0) ∧
    (let s : State := R allCh [(Reg.BUF_STAT_ACTIVE, 20)]; let a : Nat := 80530636799; s.dev.up = true ∧ a < 2 ^ 37 ∧ s.dev.groupDown a = false ∧ s.dev.poisoned a 1 = false ∧ a < s.dev.usable) ∧
    (let p : Port := .A; let s : State := up0; s.dev.ox.step = .up ∧ s.dev.inReset (portPart p) = false ∧ (s.dev.px p).crs = true) ∧
    (let p : Port := .A; let s : State := up1s; s.dev.ox.step = .up ∧ s.dev.inReset (portPart p) = false ∧ (s.dev.px p).crs = false) ∧
    (let p : Port := .A; let s : State := up1s; s.dev.ox.step = .up ∧ s.dev.inReset (portPart p) = false ∧ (s.dev.px p).crs = false) ∧
    (let p : Port := .A; let s : State := up1s; s.dev.ox.step = .up ∧ s.dev.inReset (portPart p) = false ∧ (s.dev.px p).crs = false) ∧
    (let p : Port := .A; let s : State := up1s; s.dev.ox.step = .up ∧ s.dev.inReset (portPart p) = false ∧ (s.dev.px p).crs = false) ∧
    (let p : Port := .A; let s : State := D up0 fun d => d.modPort .A fun x => { x with linkUp := true }; (s.dev.px p).linkUp = true) ∧
    (let p : Port := .A; let s : State := up0; (s.dev.px p).linkUp = false) ∧
    (let s : State := up0; s.dev.ox.step ≠ .off) := by
  refine ⟨?_, ?_, ?_, ?_, ?_, ?_, ?_, ?_, ?_, ?_, ?_, ?_, ?_⟩
  · dsimp only; decide +kernel
  · dsimp only; decide +kernel
  · dsimp only; and_intros <;> first | exact (groupDown_clear _ _ (by decide +kernel)) | decide +kernel
  · dsimp only; and_intros <;> first | exact (groupDown_clear _ _ (by decide +kernel)) | decide +kernel
  · dsimp only; and_intros <;> first | exact (groupDown_clear _ _ (by decide +kernel)) | decide +kernel
  · dsimp only; decide +kernel
  · dsimp only; decide +kernel
  · dsimp only; decide +kernel
  · dsimp only; decide +kernel
  · dsimp only; decide +kernel
  · dsimp only; decide +kernel
  · dsimp only; decide +kernel
  · dsimp only; decide +kernel

end Sys2Proof.Tests
end

section
/-! PROOFS. One step of the machine and its state at reset (R3, R10, R22, R56): obligations O1 and O4. -/
namespace Sys2Proof.Machine

/-- A reset that waits for R73 is the only thing that `releaseWaiting` acts on. -/
theorem Dev.releaseWaiting_of_none {d : Dev} (h : ∀ n : Part, (d.parts[n.val]).waiting = none) (l : List Part) :
    d.releaseWaiting l = d := by
  induction l with
  | nil => rfl
  | cons n t ih => simp only [Dev.releaseWaiting, h n, ih]

theorem Dev.tick_off {d : Dev} (h : d.ox.step = .off) : d.tick = d := if_pos h

theorem Dev.tick_running {d : Dev} (h : d.ox.step ≠ .off) (hp : d.ox.pllOn = true) (hw : ∀ n : Part, (d.parts[n.val]).waiting = none) :
    d.tick = d.tickRun := by
  rw [Dev.tick, if_neg h, if_pos hp, Dev.releaseWaiting_of_none (by simpa [Dev.tickRun] using hw)]

theorem Dev.tick_stopped {d : Dev} (h : d.ox.step ≠ .off) (hp : d.ox.pllOn = false) (hw : ∀ n : Part, (d.parts[n.val]).waiting = none) :
    d.tick = d.tickStopped := by
  rw [Dev.tick, if_neg h, if_neg (by simp [hp]), Dev.releaseWaiting_of_none (by simpa [Dev.tickStopped] using hw)]

theorem Dev.tickRun_devTime (d : Dev) : d.tickRun.ox.devTime = (d.ox.devTime + 1) % 2 ^ 64 := by
  simp only [Dev.tickRun, Dev.modOx_ox]
  split <;> rfl

theorem Dev.tickStopped_tox (d : Dev) : d.tickStopped.ox.tox = (d.ox.tox + (d.ox.acc + Dev.tickPeriod) / 64) % 2 ^ 64 := by
  simp only [Dev.tickStopped, Dev.modOx_ox]
  split <;> rfl

theorem Dev.tickStopped_resumes {d : Dev} (h : d.ox.pllWait = true) :
    d.tickStopped.ox.pllOn = true ∧ d.tickStopped.ox.devTime = d.tickStopped.ox.tox := by
  simp [Dev.tickStopped, h]

/-- A 32.768 kHz tick is 30,517 or 30,518 whole ns, from the 1/64 ns that the ticks before it left over. -/
theorem tickPeriod_wholeNs {acc : Nat} (h : acc < 64) : (acc + Dev.tickPeriod) / 64 = 30517 ∨ (acc + Dev.tickPeriod) / 64 = 30518 := by
  simp only [Dev.tickPeriod]; omega

/-- A step of time changes Ox alone when no reset waits. -/
theorem step_idle {s : State} (h : s.pending = []) : step s = .next { s with dev := s.dev.tick } := by
  have hi : step s = idleTick s := by simp only [step, h]
  exact hi.trans rfl

/-- Every meaning is a function of the device and the buffer memory: it answers a next state with the queue as it is (log entry 4). -/
theorem exec_answers (i : Instr) (s : State) : MakesBuf i s fun _ _ => True := by
  cases i <;> exact ⟨_, _, rfl, trivial⟩

/-- With no command waiting, a step is a tick of time (R3, R56). -/
theorem step_tick {s : State} (h : s.pending = []) (ho : s.dev.ox.step ≠ .off)
    (hw : ∀ n : Part, (s.dev.parts[n.val]).waiting = none) :
    ∃ x : Ox, step s = .next { s with dev := { s.dev with ox := x } } ∧
      (s.dev.ox.pllOn = true → x.devTime = (s.dev.ox.devTime + 1) % 2 ^ 64) ∧
      (s.dev.ox.pllOn = false → (x.tox = (s.dev.ox.tox + 30517) % 2 ^ 64 ∨ x.tox = (s.dev.ox.tox + 30518) % 2 ^ 64 ∨ 64 ≤ s.dev.ox.acc) ∧
        (s.dev.ox.pllWait = true → x.pllOn = true ∧ x.devTime = x.tox)) := by
  cases hp : s.dev.ox.pllOn with
  | true =>
    refine ⟨s.dev.tickRun.ox, ?_, fun _ => s.dev.tickRun_devTime, nofun⟩
    rw [step_idle h, Dev.tick_running ho hp hw]
    rfl
  | false =>
    refine ⟨s.dev.tickStopped.ox, ?_, nofun, fun _ => ⟨?_, Dev.tickStopped_resumes⟩⟩
    · rw [step_idle h, Dev.tick_stopped ho hp hw]
      rfl
    · rw [Dev.tickStopped_tox]
      by_cases ha : s.dev.ox.acc < 64
      · rcases tickPeriod_wholeNs ha with e | e
        · exact .inl (by rw [e])
        · exact .inr (.inl (by rw [e]))
      · exact .inr (.inr (Nat.le_of_not_lt ha))

/-- Settles O1, from what a tick of time does to Ox and from the shape that every arm of `exec` has. -/
theorem stepTakesTheFrontCommand : Obligations.StepTakesTheFrontCommand := by
  refine ⟨fun _ _ _ => rfl, fun s h => ⟨fun ho => ?_, step_tick h⟩, exec_answers⟩
  rw [step_idle h, Dev.tick_off ho]

/-- Settles O4: at reset the register store, the queue, the buffer and the logs are empty lists, and every mechanism is `MechX.reset`. -/
theorem resetState : Obligations.ResetState := by
  refine ⟨Memory.nil_wf, fun _ => rfl, rfl, fun _ => rfl, rfl, rfl, rfl, rfl, rfl, fun m => ?_⟩
  have hm : State.reset.dev.mx m = MechX.reset := Vector.getElem_replicate m.isLt
  rw [hm]
  rfl

end Sys2Proof.Machine
end

section
/-! PROOFS. What the upkeep of the queues and of the buffer's occupancy leaves as it was, and the record of a port (R345, R348, R387). -/
namespace Sys2Proof.Machine

theorem Dev.px_modPort (d : Dev) (p q : Port) (f : PortX → PortX) :
    (d.modPort p f).px q = if p = q then f (d.px q) else d.px q := by
  cases p <;> cases q <;> simp [Dev.px, Dev.modPort]

/-- An interrupt leaves the power state of both functions alone. -/
theorem Dev.fire_d3 (d : Dev) (p q : Port) (v : Nat) : ((d.fire p v).px q).d3 = (d.px q).d3 := by
  unfold Dev.fire
  dsimp only
  split
  · rfl
  split
  · rfl
  · rw [Dev.px_modPort]
    split <;> rfl

theorem Dev.evt_regs (d : Dev) (ev en : Field) (v : Nat) : (d.evt ev en v).regs = (d.set ev 1).regs := by
  unfold Dev.evt
  dsimp only
  split <;> simp

theorem Dev.evt_get (d : Dev) (ev en f : Field) (v : Nat) : (d.evt ev en v).get f = (d.set ev 1).get f := by
  simp only [Dev.get, Dev.evt_regs]

theorem Dev.evt_get_ne (d : Dev) {ev f : Field} (en : Field) (v : Nat) (h : ev.key ≠ f.key) : (d.evt ev en v).get f = d.get f := by
  rw [Dev.evt_get, Dev.get_set_ne d 1 h]

/-- `t` differs from `d` at most in registers whose keys are in `K`, in what left the device, in the slots, in the queues' own state and
in the ports, whose functions keep their power state. -/
structure UpkeepOnly (K : Nat → Prop) (d t : Dev) : Prop where
  regs : ∀ f : Field, ¬ K f.key → t.get f = d.get f
  rest : { t with regs := d.regs, out := d.out, ports := d.ports, slots := d.slots, qe := d.qe } = d
  d3 : ∀ p : Port, (t.px p).d3 = (d.px p).d3

/-- The keys of the BUF block's own registers, but for BUF_EVENT.UE: what a change of the occupancy writes (R345, R348). -/
abbrev occupancyKey (k : Nat) : Prop := 8 * 0x400000 ≤ k ∧ k < 8 * 0x401000 ∧ k ≠ Reg.BUF_EVENT_UE.key

/-- The keys of the blocks QE, MDC, DMA and BUF (R483), in which the upkeep of the queues writes. -/
abbrev queueKey (k : Nat) : Prop := 8 * 0x100000 ≤ k ∧ k < 8 * 0x500000

namespace UpkeepOnly
variable {K : Nat → Prop} {d t u : Dev}

theorem refl : UpkeepOnly K d d := ⟨fun _ _ => rfl, rfl, fun _ => rfl⟩

theorem trans (h : UpkeepOnly K d t) (k : UpkeepOnly K t u) : UpkeepOnly K d u where
  regs f hf := (k.regs f hf).trans (h.regs f hf)
  rest := (congrArg (fun x : Dev => { x with regs := d.regs, out := d.out, ports := d.ports, slots := d.slots, qe := d.qe }) k.rest).trans h.rest
  d3 p := (k.d3 p).trans (h.d3 p)

theorem mono {L : Nat → Prop} (hKL : ∀ k, K k → L k) (h : UpkeepOnly K d t) : UpkeepOnly L d t :=
  ⟨fun f hf => h.regs f fun hk => hf (hKL _ hk), h.rest, h.d3⟩

theorem bufx (h : UpkeepOnly K d t) : t.bufx = d.bufx := (congrArg Dev.bufx h.rest :)
theorem mech (h : UpkeepOnly K d t) : t.mech = d.mech := (congrArg Dev.mech h.rest :)

theorem set (f : Field) (v : Nat) (hf : K f.key) : UpkeepOnly K d (d.set f v) :=
  ⟨fun _ hg => Dev.get_set_ne d v fun e => hg (e ▸ hf), rfl, fun _ => rfl⟩

theorem setAll (l : List (Field × Nat)) (hl : ∀ x ∈ l, K x.1.key) : UpkeepOnly K d (d.setAll l) := by
  induction l generalizing d with
  | nil => exact refl
  | cons x l ih =>
    obtain ⟨hx, hl⟩ := List.forall_mem_cons.1 hl
    exact (set x.1 x.2 hx).trans (ih hl)

theorem fire (p : Port) (v : Nat) : UpkeepOnly K d (d.fire p v) := by
  refine ⟨fun f _ => d.fire_get f p v, ?_, fun q => d.fire_d3 p q v⟩
  obtain ⟨x, y, h⟩ := d.fire_only p v
  rw [h]

theorem evt (ev en : Field) (v : Nat) (h : K ev.key) : UpkeepOnly K d (d.evt ev en v) := by
  unfold Dev.evt
  dsimp only
  split
  · exact (set ev 1 h).trans (fire _ _)
  · exact set ev 1 h

theorem emit (o : Out) : UpkeepOnly K d (d.emit o) := ⟨fun _ _ => rfl, rfl, fun _ => rfl⟩
theorem modQe (f : QeX → QeX) : UpkeepOnly K d (d.modQe f) := ⟨fun _ _ => rfl, rfl, fun _ => rfl⟩
theorem setSlot (i : Nat) (x : Slot) : UpkeepOnly K d (d.setSlot i x) := ⟨fun _ _ => rfl, rfl, fun _ => rfl⟩

theorem refuseSlot (i status reason result : Nat) : UpkeepOnly K d (d.refuseSlot i status reason result) := by
  unfold Dev.refuseSlot
  split
  · split
    · exact refl
    · exact setSlot _ _
  · exact refl

theorem refuseWaiting (l : List (Nat × Slot)) : UpkeepOnly occupancyKey d (d.refuseWaiting l) := by
  induction l generalizing d with
  | nil => exact refl
  | cons x l ih =>
    refine trans ?_ ih
    split
    · exact (refuseSlot _ _ _ _).trans (set _ _ (by decide))
    · exact refl

theorem syncBuf : UpkeepOnly occupancyKey d d.syncBuf := by
  unfold Dev.syncBuf
  extract_lets o e size
  have he : UpkeepOnly occupancyKey d e := by
    refine setAll _ ?_
    simp only [List.forall_mem_cons, List.not_mem_nil, false_implies, implies_true]
    decide
  refine he.trans ?_
  split
  · exact refl
  split
  · exact ((set _ _ (by decide)).trans (evt _ _ _ (by decide))).trans (refuseWaiting _)
  split
  · exact (set _ _ (by decide)).trans (evt _ _ _ (by decide))
  · exact refl

theorem cqInterrupt (p : Port) (q : Pair) : UpkeepOnly K d (d.cqInterrupt p q) := by
  unfold Dev.cqInterrupt
  dsimp only
  split
  · exact refl
  split
  · exact (modQe _).trans (fire _ _)
  · exact modQe _

theorem queueKey_cqTail (p : Port) (q : Pair) : queueKey (Reg.QE_QPTR_CQ_TAIL p q).key := by
  cases p <;> simp only [queueKey, Field.key, Reg.QE_QPTR_CQ_TAIL, Port.idx] <;> omega

theorem queueKey_phase (p : Port) (q : Pair) : queueKey (Reg.QE_QPTR_PHASE p q).key := by
  cases p <;> simp only [queueKey, Field.key, Reg.QE_QPTR_PHASE, Port.idx] <;> omega

theorem cqPost (p : Port) (q : Pair) (s : Slot) (sqhd : Nat) (frozen failover : Bool) :
    UpkeepOnly queueKey d (d.cqPost p q s sqhd frozen failover) :=
  (((emit _).trans (set _ _ (queueKey_cqTail p q))).trans (set _ _ (queueKey_phase p q))).trans (cqInterrupt p q)

theorem postMarker (p : Port) : UpkeepOnly queueKey d (d.postMarker p) := by
  unfold Dev.postMarker
  dsimp only
  split
  · exact refl
  split
  · exact modQe _
  split
  · exact refl
  · exact (cqPost _ _ _ _ _ _).trans (modQe _)

theorem syncSlots : UpkeepOnly queueKey d d.syncSlots := by
  refine setAll _ ?_
  simp only [List.forall_mem_cons, List.not_mem_nil, false_implies, implies_true]
  decide

/-- The upkeep that ends every command of the queues (R348, R387, R389). -/
theorem settleQueues : UpkeepOnly queueKey d d.settleQueues :=
  ((postMarker .A).trans (postMarker .B)).trans ((syncBuf.mono fun _ h => ⟨by have := h.1; omega, by have := h.2.1; omega⟩).trans syncSlots)

end UpkeepOnly
end Sys2Proof.Machine
end

section
/-! PROOFS. Register accesses: obligation O59. -/
namespace Sys2Proof.Machine

/-- A running device whose register store holds 64 at OXA_WAKE_SRC.SRC, a field of six bits: no write puts it there, since `Dev.set` cuts
a value to its field's width, but nothing in the statement shuts it out. -/
def wideWakeSrc : State :=
  { State.reset with dev := { Dev.reset with regs := [(Reg.OXA_WAKE_SRC_SRC.key, 64)], ox := { Ox.reset with step := .up } } }

/-- Writing 0 to OXA_WAKE_SRC, which clears none of its bits, cuts the field to its six bits: it reads 0 then. -/
theorem wideWakeSrc_write_get :
    ((wideWakeSrc.dev.wakePort .A).regWrite [] (some .A) Reg.OXA_WAKE_SRC_SRC.off 0).1.get Reg.OXA_WAKE_SRC_SRC = 0 := by decide

theorem wideWakeSrc_get : (wideWakeSrc.dev.wakePort .A).get Reg.OXA_WAKE_SRC_SRC = 64 := by decide

/-- Refutes O59: the clause on OXA_WAKE_SRC speaks of every bit of the value read, and of every state, also one whose store holds a value
wider than the field; the write cuts it to six bits, and bit 6 of the field does not keep its value. -/
theorem not_registerAccesses : ¬ Obligations.RegisterAccesses := by
  intro h
  obtain ⟨-, -, -, -, -, -, hw⟩ := h wideWakeSrc .A 0 _ (by decide) (by decide) rfl
  obtain ⟨-, b, u, he, -, hbit, -⟩ := hw 0
  have hdev : u.settleQueues = ((wideWakeSrc.dev.wakePort .A).regWrite [] (some .A) Reg.OXA_WAKE_SRC_SRC.off 0).1.settleQueues := by
    injection he with he
    exact (congrArg State.dev he).symm
  have hzero : u.get Reg.OXA_WAKE_SRC_SRC = 0 := by
    have hk : ¬ queueKey Reg.OXA_WAKE_SRC_SRC.key := by decide
    rw [← UpkeepOnly.settleQueues.regs _ hk, hdev, UpkeepOnly.settleQueues.regs _ hk, wideWakeSrc_write_get]
  have := hbit 6
  rw [hzero, wideWakeSrc_get] at this
  exact absurd this (by decide)

end Sys2Proof.Machine
end

section
/-! PROOFS. Bad accesses, BAR2, configuration requests, L1 substates and boundary scan (R5, R58, R67, R350, R487, R509): obligation O60. -/
namespace Sys2Proof.Machine
open Sys2Proof.Machine.Dev (portPart)

theorem byteEnables_toNat_eq_15 (b : BitVec 4) : b.toNat = 15 ↔ b = 15 := by
  rw [← BitVec.toNat_inj]; rfl

theorem byteEnables_toNat_eq_0 (b : BitVec 4) : b.toNat = 0 ↔ b = 0 := by
  rw [← BitVec.toNat_inj]; rfl

/-! ### Bad accesses (R5, R510) -/

theorem Dev.badAccess_word (d : Dev) (p : Port) {off fb lb : Nat} (wr : Bool) (h : off % 4 = 0 ∧ fb = 15 ∧ lb = 0) :
    d.badAccess p off fb lb wr = d := if_pos (.inr h)

theorem Dev.badAccess_bad {d : Dev} {p : Port} {off fb lb : Nat} (wr : Bool) (ho : d.barOpen p = true)
    (h : ¬ (off % 4 = 0 ∧ fb = 15 ∧ lb = 0)) :
    d.badAccess p off fb lb wr = (d.emit (.ur p)).vlogAdd 0x14 0x0E03 1 [(0, 4, off), (4, 1, fb), (5, 1, lb), (6, 1, b2n wr)] :=
  if_neg (by simp [ho, h])

/-- What leaves the device does not bear on the violation log. -/
theorem Dev.vlogAdd_emit_vlog (d : Dev) (o : Out) (s c a : Nat) (l : List (Nat × Nat × Nat)) :
    ((d.emit o).vlogAdd s c a l).vlog = (d.vlogAdd s c a l).vlog := by
  have hnow : (d.emit o).now = d.now := rfl
  unfold Dev.vlogAdd
  simp only [Dev.emit_vlog, hnow]
  split
  · rfl
  · split <;> rfl

theorem badAccess_answers {s : State} {p : Port} (off : Word) (fb lb : BitVec 4) (wr : Bool) (ho : s.dev.barOpen p = true) :
    (off.toNat % 4 ≠ 0 ∨ fb ≠ 15 ∨ lb ≠ 0 → Makes (.bar0BadAccess p off fb lb wr) s fun u => u.out.head? = some (Out.ur p) ∧
      u.vlog = (s.dev.vlogAdd 0x14 0x0E03 1 [(0, 4, off.toNat), (4, 1, fb.toNat), (5, 1, lb.toNat), (6, 1, b2n wr)]).vlog ∧
      u.regs = s.dev.regs ∧ u.mech = s.dev.mech ∧ u.slots = s.dev.slots) ∧
    (off.toNat % 4 = 0 → fb = 15 → lb = 0 → Gives (.bar0BadAccess p off fb lb wr) s s.dev) := by
  constructor
  · intro hbad
    have hw : ¬ (off.toNat % 4 = 0 ∧ fb.toNat = 15 ∧ lb.toNat = 0) := by
      rintro ⟨hoff, hfb, hlb⟩
      rcases hbad with h | h | h
      · exact h hoff
      · exact h ((byteEnables_toNat_eq_15 fb).1 hfb)
      · exact h ((byteEnables_toNat_eq_0 lb).1 hlb)
    refine makes_liftDev (f := fun d => d.badAccess p off.toNat fb.toNat lb.toNat wr) rfl ?_
    rw [Dev.badAccess_bad wr ho hw]
    exact ⟨by simp, Dev.vlogAdd_emit_vlog _ _ _ _ _ _, by simp, by simp, by simp⟩
  · intro hoff hfb hlb
    have hw := s.dev.badAccess_word p wr ⟨hoff, (byteEnables_toNat_eq_15 fb).2 hfb, (byteEnables_toNat_eq_0 lb).2 hlb⟩
    have hg := gives_liftDev (s := s) (i := .bar0BadAccess p off fb lb wr) (f := fun d => d.badAccess p off.toNat fb.toNat lb.toNat wr) rfl
    rwa [hw] at hg

/-! ### BAR2 (R487) -/

/-- A request to an address writes SR of the channels of its group alone. -/
theorem Dev.touch_only (d : Dev) (a : Nat) : ∃ r, d.touch a = { d with regs := r } := by
  unfold Dev.touch
  dsimp only
  split
  · exact ⟨_, rfl⟩
  · exact ⟨_, rfl⟩

theorem Dev.bufPut_buf (d : Dev) (b : Memory) (a : Nat) (bs : List Byte) : (d.bufPut b a bs).2 = b.writeBytes a bs := rfl

theorem Dev.bufPut_slots (d : Dev) (b : Memory) (a : Nat) (bs : List Byte) : (d.bufPut b a bs).1.slots = d.slots := by
  obtain ⟨r, h⟩ := (d.unpoison a bs.length).touch_only a
  simp only [Dev.bufPut, h]
  rfl

theorem Dev.bufPut_mech (d : Dev) (b : Memory) (a : Nat) (bs : List Byte) : (d.bufPut b a bs).1.mech = d.mech := by
  obtain ⟨r, h⟩ := (d.unpoison a bs.length).touch_only a
  simp only [Dev.bufPut, h]
  rfl

theorem Dev.bar2_absent (d : Dev) (b : Memory) (a : Nat) (op : Bar2Op) (hi : Config.bar2Implemented = false) : d.bar2 b a op = (d, b) :=
  if_pos (by simp [hi])

section
variable {d : Dev} {a : Nat} (hu : d.up = true) (ha : a < 2 ^ 37) (hi : Config.bar2Implemented = true)
include hu ha hi

theorem Dev.bar2_disabled (b : Memory) (bs : List Byte) (hw : d.get Reg.BUF_CTL_BAR2_WR_EN = 0) :
    d.bar2 b a (.write bs) = (d.vlogAdd 0x14 0x0903 0, b) := by
  unfold Dev.bar2
  rw [if_neg (by simp [hu, hi]; omega)]
  exact if_pos (by simp [Dev.on, hw])

/-- A write whose bytes all lie within the capacity goes to the buffer; whatever it logs, it logs as a violation. -/
theorem Dev.bar2_write {bs : List Byte} (b : Memory) (hg : d.groupDown a = false) (hw : d.get Reg.BUF_CTL_BAR2_WR_EN = 1)
    (hl : a + bs.length ≤ d.usable) :
    ∃ v, d.bar2 b a (.write bs) = ({ (d.bufPut b a bs).1 with vlog := v }, b.writeBytes a bs) := by
  unfold Dev.bar2
  rw [if_neg (by simp [hu, hi]; omega)]
  dsimp only
  rw [if_neg (by simp [Dev.on, hw]), List.take_of_length_le (by omega : bs.length ≤ d.usable - a)]
  simp only [hg, Bool.false_eq_true, if_false, Dev.bufPut_buf]
  split
  · obtain ⟨v, hv⟩ := (d.bufPut b a bs).1.vlogAdd_only 0x14 0x0E01 0 [(0, 4, a)]
    exact ⟨v, by rw [hv]⟩
  · exact ⟨_, rfl⟩

theorem Dev.bar2_readByte (b : Memory) (hg : d.groupDown a = false) (hp : d.poisoned a 1 = false) (hc : a < d.usable) :
    d.bar2 b a (.read 1) = (((d.touch a).emit (.bar2Read [b.read a])).useFree, b) := by
  have hbyte : d.bar2Byte b a = b.read a := by
    unfold Dev.bar2Byte
    rw [if_neg (by omega), if_neg (by simp [hg]), if_neg (by simp [hp])]
  unfold Dev.bar2
  rw [if_neg (by simp [hu, hi]; omega)]
  simp [hbyte]

end

theorem bar2Access_answers {s : State} {a : Nat} (bs : List Byte) (hu : s.dev.up = true) (ha : a < 2 ^ 37) (hg : s.dev.groupDown a = false) :
    (s.dev.get Reg.BUF_CTL_BAR2_WR_EN = 1 → a + bs.length ≤ s.dev.usable → MakesBuf (.bar2Access a (.write bs)) s fun b u =>
      (b = if Config.bar2Implemented then s.buf.writeBytes a bs else s.buf) ∧ u.slots = s.dev.slots ∧ u.mech = s.dev.mech) ∧
    (s.dev.get Reg.BUF_CTL_BAR2_WR_EN = 0 → MakesBuf (.bar2Access a (.write bs)) s fun b u => b = s.buf ∧
      u = if Config.bar2Implemented then s.dev.vlogAdd 0x14 0x0903 0 else s.dev) ∧
    (s.dev.poisoned a 1 = false → a < s.dev.usable → MakesBuf (.bar2Access a (.read 1)) s fun b u => b = s.buf ∧ u.mech = s.dev.mech ∧
      u.out = if Config.bar2Implemented then Out.bar2Read [s.buf.read a] :: s.dev.out else s.dev.out) := by
  have hmk (op : Bar2Op) (P : Memory → Dev → Prop) (h : P (s.dev.bar2 s.buf a op).2 (s.dev.bar2 s.buf a op).1) :
      MakesBuf (.bar2Access a op) s P := makesBuf_liftBuf (f := fun d b => d.bar2 b a op) rfl h
  cases hi : Config.bar2Implemented with
  | false =>
    refine ⟨fun _ _ => hmk _ _ ?_, fun _ => hmk _ _ ?_, fun _ _ => hmk _ _ ?_⟩
    all_goals rw [Dev.bar2_absent _ _ _ _ hi]; simp
  | true =>
    refine ⟨fun hw hl => hmk _ _ ?_, fun hw => hmk _ _ ?_, fun hp hc => hmk _ _ ?_⟩
    · obtain ⟨v, hv⟩ := Dev.bar2_write hu ha hi s.buf hg hw hl
      rw [hv]
      exact ⟨rfl, Dev.bufPut_slots _ _ _ _, Dev.bufPut_mech _ _ _ _⟩
    · rw [Dev.bar2_disabled hu ha hi s.buf bs hw]
      exact ⟨rfl, rfl⟩
    · obtain ⟨r, hr⟩ := s.dev.touch_only a
      rw [Dev.bar2_readByte hu ha hi s.buf hg hp hc, hr]
      exact ⟨rfl, rfl, rfl⟩

/-! ### Configuration requests (R67, R350) -/

section
variable {d : Dev} {p : Port} (hs : d.ox.step = .up) (hr : d.inReset (portPart p) = false)
include hs hr

theorem Dev.cfgRequest_retry (r : CfgReq) (hc : (d.px p).crs = true) : d.cfgRequest p r = d.emit (.cfgReply p none) := by
  unfold Dev.cfgRequest
  simp [hs, hr, hc]

variable (hc : (d.px p).crs = false)
include hc

theorem Dev.cfgRequest_read {o v : Nat} (hw : ∀ x, Dev.cfgWord x (o / 4 * 4 % 4096) = some v) :
    d.cfgRequest p (.read o) = d.emit (.cfgReply p (some v)) := by
  unfold Dev.cfgRequest
  simp [hs, hr, hc, hw]

theorem Dev.cfgRequest_d3hot :
    d.cfgRequest p .d3hot = (d.modPort p fun x => { x with d3 := true }).emit (.cfgReply p (some 0)) := by
  unfold Dev.cfgRequest
  simp [hs, hr, hc]

theorem Dev.cfgRequest_d0 :
    d.cfgRequest p .d0 = ((d.modPort p fun x => { x with d3 := false }).settleQueues).emit (.cfgReply p (some 0)) := by
  unfold Dev.cfgRequest
  simp [hs, hr, hc]

end

theorem configurationRequest_answers {s : State} {p : Port} (hs : s.dev.ox.step = .up) (hr : s.dev.inReset (portPart p) = false) :
    ((s.dev.px p).crs = true → ∀ r : CfgReq, Gives (.configurationRequest p r) s (s.dev.emit (.cfgReply p none))) ∧
    ((s.dev.px p).crs = false →
      Gives (.configurationRequest p (.read 0)) s (s.dev.emit (.cfgReply p (some (Config.vendorId.toNat + 65536 * 0x1616)))) ∧
      Gives (.configurationRequest p (.read 8)) s (s.dev.emit (.cfgReply p (some 0x018000B0))) ∧
      (Makes (.configurationRequest p .d3hot) s fun u => (u.px p).d3 = true ∧ u.regs = s.dev.regs ∧ u.mech = s.dev.mech) ∧
      (Makes (.configurationRequest p .d0) s fun u => (u.px p).d3 = false ∧ u.mech = s.dev.mech)) := by
  have hgive (r : CfgReq) (t : Dev) (h : s.dev.cfgRequest p r = t) : Gives (.configurationRequest p r) s t :=
    h ▸ gives_liftDev (f := fun d => d.cfgRequest p r) rfl
  refine ⟨fun hc r => hgive r _ (Dev.cfgRequest_retry hs hr r hc), fun hc => ⟨?_, ?_, ?_, ?_⟩⟩
  · exact hgive _ _ (Dev.cfgRequest_read hs hr hc fun _ => rfl)
  · exact hgive _ _ (Dev.cfgRequest_read hs hr hc fun _ => rfl)
  · refine ⟨_, hgive _ _ (Dev.cfgRequest_d3hot hs hr hc), ?_, by simp, by simp⟩
    change ((s.dev.modPort p _).px p).d3 = true
    rw [Dev.px_modPort, if_pos rfl]
  · have hu := UpkeepOnly.settleQueues (d := s.dev.modPort p fun x => { x with d3 := false })
    refine ⟨_, hgive _ _ (Dev.cfgRequest_d0 hs hr hc), ?_, ?_⟩
    · refine (hu.d3 p).trans ?_
      rw [Dev.px_modPort, if_pos rfl]
    · exact hu.mech.trans (Dev.modPort_mech _ _ _)

/-! ### L1 substates (R58) -/

theorem l1SubstateEntry_answers (s : State) (p : Port) (st : LinkPm) :
    ((s.dev.px p).linkUp = true → Makes (.l1SubstateEntry p st) s fun u => (u.px p).linkPm = st ∧ u.regs = s.dev.regs ∧ u.mech = s.dev.mech ∧
      u.slots = s.dev.slots) ∧
    ((s.dev.px p).linkUp = false → Gives (.l1SubstateEntry p st) s s.dev) := by
  have hgive (t : Dev) (h : s.dev.l1Entry p st = t) : Gives (.l1SubstateEntry p st) s t :=
    h ▸ gives_liftDev (f := fun d => d.l1Entry p st) rfl
  refine ⟨fun h => ⟨_, hgive _ (if_pos h), ?_, by simp, by simp, by simp⟩, fun h => hgive _ (if_neg (by simp [h]))⟩
  rw [Dev.px_modPort, if_pos rfl]

/-! ### Boundary scan (R509) -/

theorem boundaryScanInstruction_answers {s : State} (i : JtagInstr) (w : Word) (h : s.dev.ox.step ≠ .off) :
    Makes (.boundaryScanInstruction i w) s fun u => u.jtag = i ∧ u.regs = s.dev.regs ∧ u.mech = s.dev.mech ∧
      u.boundary = (if i = .bypass ∨ i = .idcode ∨ i = .highz then s.dev.boundary else w.toNat) ∧
      u.out = Out.jtag i (if i = .idcode then some (0x10000000 + 0x1616 * 4096 + Config.jedecId.toNat * 2 + 1) else none) :: s.dev.out := by
  refine makes_liftDev (f := fun d => d.jtagShift i w.toNat) rfl ?_
  rw [Dev.jtagShift, if_neg h]
  exact ⟨rfl, rfl, rfl, rfl, rfl⟩

/-- Settles O60, one lemma for each of the five commands. -/
theorem portAccesses : Obligations.PortAccesses :=
  ⟨fun _ _ off fb lb wr ho => badAccess_answers off fb lb wr ho, fun _ _ bs hu ha hg => bar2Access_answers bs hu ha hg,
    fun _ _ hs hr => configurationRequest_answers hs hr, l1SubstateEntry_answers, fun _ i w h => boundaryScanInstruction_answers i w h⟩

end Sys2Proof.Machine
end

section
/-! PROOFS. Self-refresh of the buffer's channels (R325). -/
namespace Sys2Proof.Machine
namespace Dev

/-! ### Keys of a channel's registers (R349) -/

theorem key_SR_ne {c k : Chan} (h : c ≠ k) : (Reg.BUF_CH_STAT_SR c).key ≠ (Reg.BUF_CH_STAT_SR k).key := by
  have := Fin.val_ne_of_ne h
  simp only [Reg.BUF_CH_STAT_SR, Field.key]
  omega

theorem key_SR_ne_STATE (c k : Chan) : (Reg.BUF_CH_STAT_SR c).key ≠ (Reg.BUF_CH_STAT_STATE k).key := by
  simp only [Reg.BUF_CH_STAT_SR, Reg.BUF_CH_STAT_STATE, Field.key]
  omega

theorem key_SR_ne_IN_RESET (c : Chan) (n : Part) : (Reg.BUF_CH_STAT_SR c).key ≠ (Reg.GCTL_EPOCH_IN_RESET n).key := by
  simp only [Reg.BUF_CH_STAT_SR, Reg.GCTL_EPOCH_IN_RESET, Field.key]
  omega

theorem key_SR_mem (c : Chan) : (Reg.BUF_CH_STAT_SR c).key ∈ ((List.finRange 24).map Reg.BUF_CH_STAT_SR).map Field.key :=
  List.mem_map_of_mem (List.mem_map_of_mem (List.mem_finRange c))

/-- Whether a channel serves does not turn on SR. -/
theorem chanServes_set_SR (d : Dev) (c k : Chan) (v : Nat) : (d.set (Reg.BUF_CH_STAT_SR c) v).chanServes k = d.chanServes k := by
  simp only [chanServes, inReset, on, get_set_ne d v (key_SR_ne_STATE c k), get_set_ne d v (key_SR_ne_IN_RESET c _)]

/-! ### Self-refresh (R325) -/

/-- Enters self-refresh on channel `c` where it serves. -/
def srIfServes (d : Dev) (c : Chan) : Dev := if d.chanServes c then d.set (Reg.BUF_CH_STAT_SR c) 1 else d

theorem srIfServes_serves (d : Dev) (c k : Chan) : (d.srIfServes c).chanServes k = d.chanServes k := by
  unfold srIfServes
  split
  · exact chanServes_set_SR d c k 1
  · rfl

theorem srIfServes_rest (d : Dev) (c : Chan) : { d.srIfServes c with regs := d.regs } = d := by
  unfold srIfServes
  split <;> rfl

theorem srIfServes_keepsRegs (d : Dev) (c : Chan) : KeepsRegs ((List.finRange 24).map Reg.BUF_CH_STAT_SR) d (d.srIfServes c) := by
  unfold srIfServes
  split
  · exact keepsRegs_set _ _ _ (key_SR_mem c)
  · exact keepsRegs_refl _ _

theorem srIfServes_get (d : Dev) (c k : Chan) : (d.srIfServes c).get (Reg.BUF_CH_STAT_SR k) =
    if c = k ∧ d.chanServes k = true then 1 else d.get (Reg.BUF_CH_STAT_SR k) := by
  unfold srIfServes
  by_cases hs : d.chanServes c
  · rw [if_pos hs]
    by_cases hc : c = k
    · subst hc
      rw [get_set_self, if_pos ⟨rfl, hs⟩]
      rfl
    · rw [get_set_ne d 1 (key_SR_ne hc), if_neg fun h => hc h.1]
  · rw [if_neg hs, if_neg fun h => hs (by rw [h.1]; exact h.2)]

/-- Of channels `l`, those that serve enter self-refresh, and nothing else happens. -/
theorem foldl_srIfServes (l : List Chan) (d : Dev) :
    { l.foldl srIfServes d with regs := d.regs } = d ∧
    KeepsRegs ((List.finRange 24).map Reg.BUF_CH_STAT_SR) d (l.foldl srIfServes d) ∧
    ∀ k : Chan, (l.foldl srIfServes d).get (Reg.BUF_CH_STAT_SR k) =
      if k ∈ l ∧ d.chanServes k = true then 1 else d.get (Reg.BUF_CH_STAT_SR k) := by
  induction l generalizing d with
  | nil => exact ⟨rfl, keepsRegs_refl _ _, fun k => by simp⟩
  | cons c l ih =>
    obtain ⟨hrest, hkeep, hget⟩ := ih (d.srIfServes c)
    refine ⟨(congrArg (fun x : Dev => { x with regs := d.regs }) hrest).trans (d.srIfServes_rest c),
      keepsRegs_trans (d.srIfServes_keepsRegs c) hkeep, fun k => ?_⟩
    rw [List.foldl_cons, hget, srIfServes_serves, srIfServes_get]
    grind

theorem mem_groupChans (k : Fin 6) (c : Chan) : c ∈ groupChans k ↔ chanGroup c = k := by
  revert k c; decide

theorem selfRefresh_eq {d : Dev} {k : Fin 6} (hu : d.up = true) (he : d.get Reg.BUF_CTL_SR_EN ≠ 0)
    (hr : d.inReset ⟨20 + k.val, by omega⟩ = false) : d.selfRefresh k = (groupChans k).foldl srIfServes d := by
  refine if_neg ?_
  simp [hu, hr, on, he]

end Dev

theorem bufferSelfRefreshEntry_answers {s : State} {k : Fin 6} (hu : s.dev.up = true) (he : s.dev.get Reg.BUF_CTL_SR_EN ≠ 0)
    (hr : s.dev.inReset ⟨20 + k.val, by omega⟩ = false) :
    Makes (.bufferSelfRefreshEntry k) s fun t => { t with regs := s.dev.regs } = s.dev ∧
      KeepsRegs ((List.finRange 24).map Reg.BUF_CH_STAT_SR) s.dev t ∧
      ∀ c : Chan, t.get (Reg.BUF_CH_STAT_SR c) =
        if Dev.chanGroup c = k ∧ s.dev.chanServes c = true then 1 else s.dev.get (Reg.BUF_CH_STAT_SR c) := by
  refine makes_liftDev (f := fun d => d.selfRefresh k) rfl ?_
  simp only [Dev.selfRefresh_eq hu he hr, ← Dev.mem_groupChans]
  exact Dev.foldl_srIfServes _ _

end Sys2Proof.Machine
end

section
/-! PROOFS. Refresh and calibration of a channel of the buffer (R69, R325). -/
namespace Sys2Proof.Machine

namespace Dev

/-! ### The PHY of a channel (R69, R325) -/

@[simp] theorem modPhy_regs (d : Dev) (c : Chan) (f : PhyX → PhyX) : (d.modPhy c f).regs = d.regs := rfl
@[simp] theorem modPhy_get (d : Dev) (c : Chan) (f : PhyX → PhyX) (g : Field) : (d.modPhy c f).get g = d.get g := rfl
@[simp] theorem modPhy_phy (d : Dev) (c : Chan) (f : PhyX → PhyX) : (d.modPhy c f).bufx.phy[c.val] = f d.bufx.phy[c.val] := by
  simp [modPhy]

@[simp] theorem bufEvent_bufx (d : Dev) (ev : Field) : (d.bufEvent ev).bufx = d.bufx := by simp [bufEvent]
@[simp] theorem bufEvent_mech (d : Dev) (ev : Field) : (d.bufEvent ev).mech = d.mech := by simp [bufEvent]

theorem bufEvent_get (d : Dev) (ev g : Field) : (d.bufEvent ev).get g = (d.set ev 1).get g := evt_get d _ _ _ _

theorem bufEvent_get_ne (d : Dev) {ev g : Field} (h : ev.key ≠ g.key) : (d.bufEvent ev).get g = d.get g := evt_get_ne d _ _ h

/-- An event bit that has been recorded reads 1. -/
theorem bufEvent_get_self (d : Dev) {ev : Field} (h : ev.width = 1) : (d.bufEvent ev).get ev = 1 := by
  rw [bufEvent_get, get_set_self]
  exact Nat.mod_eq_of_lt (Nat.one_lt_two_pow (by omega))

/-- A one-bit field reads the Bool written to it. -/
theorem get_setB_self (d : Dev) {f : Field} (b : Bool) (h : f.width = 1) : (d.setB f b).get f = b2n b := by
  rw [setB_eq, get_set_self, h]
  cases b with
  | false => rfl
  | true => rfl

theorem key_REFRESH_ne_HOT (c : Chan) : (Reg.BUF_CH_STAT_HOT c).key ≠ (Reg.BUF_CH_STAT_REFRESH c).key := by
  simp [Reg.BUF_CH_STAT_HOT, Reg.BUF_CH_STAT_REFRESH, Field.key]

theorem key_MR4_HOT_ne_HOT (c : Chan) : Reg.BUF_EVENT_MR4_HOT.key ≠ (Reg.BUF_CH_STAT_HOT c).key := by
  simp only [Reg.BUF_EVENT_MR4_HOT, Reg.BUF_CH_STAT_HOT, Field.key]
  omega

theorem key_MR4_HOT_ne_REFRESH (c : Chan) : Reg.BUF_EVENT_MR4_HOT.key ≠ (Reg.BUF_CH_STAT_REFRESH c).key := by
  simp only [Reg.BUF_EVENT_MR4_HOT, Reg.BUF_CH_STAT_REFRESH, Field.key]
  omega

end Dev

section
variable {s : State} {c : Chan} (hu : s.dev.up = true) (hs : s.dev.chanServes c = true)
include hu hs

theorem mr4Poll_answers (code : BitVec 3) (hot : Bool) : Makes (.mr4Poll c code hot) s fun t =>
    t.get (Reg.BUF_CH_STAT_HOT c) = b2n hot ∧ t.get (Reg.BUF_CH_STAT_REFRESH c) = s.dev.get (Reg.BUF_CH_STAT_REFRESH c) ∧
    t.bufx.phy[c.val] = { s.dev.bufx.phy[c.val] with refNext := some code.toNat } ∧ (hot = true → t.get Reg.BUF_EVENT_MR4_HOT = 1) := by
  refine makes_liftDev (f := fun d => d.mr4Poll c code hot) rfl ?_
  rw [Dev.mr4Poll, if_neg (by simp [hu, hs])]
  cases hot with
  | false =>
    refine ⟨Dev.get_setB_self _ _ rfl, Dev.get_set_ne _ _ (Dev.key_REFRESH_ne_HOT c), by simp, nofun⟩
  | true =>
    refine ⟨?_, ?_, ?_, fun _ => ?_⟩
    · rw [if_pos rfl, Dev.vlogAdd_get, Dev.bufEvent_get_ne _ (Dev.key_MR4_HOT_ne_HOT c)]
      exact Dev.get_setB_self _ _ rfl
    · simp [Dev.bufEvent_get_ne _ (Dev.key_MR4_HOT_ne_REFRESH c), Dev.get_set_ne _ _ (Dev.key_REFRESH_ne_HOT c)]
    · simp
    · exact (Dev.vlogAdd_get _ _ _ _ _ _).trans (Dev.bufEvent_get_self _ rfl)

theorem zqCalibration_answers (w : Word) : Makes (.zqCalibration c w) s fun t => t.regs = s.dev.regs ∧
    t.bufx.phy[c.val] = { s.dev.bufx.phy[c.val] with zqNext := some w.toNat } := by
  refine makes_liftDev (f := fun d => d.zqCal c w) rfl ?_
  rw [Dev.zqCal, if_neg (by simp [hu, hs])]
  exact ⟨rfl, Dev.modPhy_phy _ _ _⟩

theorem dqsOscillatorTracking_answers (w : Word) : Makes (.dqsOscillatorTracking c w) s fun t => t.regs = s.dev.regs ∧
    t.bufx.phy[c.val] = { s.dev.bufx.phy[c.val] with tapsNext := some w.toNat } := by
  refine makes_liftDev (f := fun d => d.dqsTrack c w) rfl ?_
  rw [Dev.dqsTrack, if_neg (by simp [hu, hs])]
  exact ⟨rfl, Dev.modPhy_phy _ _ _⟩

theorem allBankRefresh_answers (hsr : s.dev.get (Reg.BUF_CH_STAT_SR c) = 0) : Makes (.allBankRefresh c) s fun t =>
    t.bufx.phy[c.val].zq = ((s.dev.bufx.phy[c.val]).zqNext).getD (s.dev.bufx.phy[c.val]).zq ∧
    t.bufx.phy[c.val].taps = ((s.dev.bufx.phy[c.val]).tapsNext).getD (s.dev.bufx.phy[c.val]).taps ∧
    t.bufx.phy[c.val].zqNext = none ∧ t.bufx.phy[c.val].tapsNext = none ∧ t.bufx.phy[c.val].refNext = none ∧
    (∀ r, (s.dev.bufx.phy[c.val]).refNext = some r → r < 8 → t.get (Reg.BUF_CH_STAT_REFRESH c) = r) ∧
    KeepsRegs [Reg.BUF_CH_STAT_REFRESH c] s.dev t := by
  refine makes_liftDev (f := fun d => d.refreshWindow c) rfl ?_
  rw [Dev.refreshWindow, if_neg (by simp [hu, hs, Dev.on, hsr])]
  cases hn : (s.dev.bufx.phy[c.val]).refNext with
  | none => simpa [hn] using keepsRegs_of_regs (Dev.modPhy_regs _ _ _) _
  | some r =>
    simp only [hn, Dev.modPhy_phy, Dev.modPhy_get, Dev.set_bufx, Dev.get_set_self, true_and]
    refine ⟨fun r' hr hlt => ?_, ?_⟩
    · cases hr
      exact Nat.mod_eq_of_lt hlt
    · exact keepsRegs_trans (keepsRegs_set _ r _ (by simp)) (keepsRegs_of_regs rfl _)

end
end Sys2Proof.Machine
end

section
/-! PROOFS. What the work of a mechanism leaves alone, down to its park sequence (R86, R484). -/
namespace Sys2Proof.Machine
namespace Dev

/-- The registers below the mechanisms' windows, and the buffer: what no mechanism's own work changes. -/
def shared (d : Dev) : (Field → Nat) × BufX := (fun f => if f.key < 8 * 0x800000 then d.get f else 0, d.bufx)

theorem shared_set (d : Dev) (f : Field) (v : Nat) (h : 0x800000 ≤ f.off) : (d.set f v).shared = d.shared := by
  refine Prod.ext (funext fun g => ?_) rfl
  simp only [shared]
  split
  · refine get_set_ne d v fun e => ?_
    simp only [Field.key] at *
    omega
  · rfl

theorem shared_evt (d : Dev) (ev en : Field) (v : Nat) (h : 0x800000 ≤ ev.off) : (d.evt ev en v).shared = d.shared := by
  rw [← shared_set d ev 1 h]
  refine Prod.ext (funext fun g => ?_) (by simp [shared])
  simp only [shared, evt_get]

@[simp] theorem shared_modMech (d : Dev) (m : Mech) (f : MechX → MechX) : (d.modMech m f).shared = d.shared := rfl

theorem foldl_shared {α : Type} {f : Dev → α → Dev} (h : ∀ d x, (f d x).shared = d.shared) (l : List α) (d : Dev) :
    (l.foldl f d).shared = d.shared := by
  induction l generalizing d with
  | nil => rfl
  | cons x l ih => exact (ih _).trans (h d x)

section
variable (d : Dev) (m : Mech)

@[simp] theorem shared_disableLoop (n : LoopId) : (d.disableLoop m n).shared = d.shared := by
  simp (disch := (with_unfolding_all change 0x800000 ≤ (_ : Nat) + _; omega)) [disableLoop, modLoop, shared_set]

@[simp] theorem shared_disableKinds (kinds : List Nat) : (d.disableKinds m kinds).shared = d.shared :=
  foldl_shared (fun d n => d.shared_disableLoop m n) _ d

@[simp] theorem shared_freshGroup (r : Rec) : (d.freshGroup m r).shared = d.shared := by
  unfold freshGroup
  split <;> rfl

@[simp] theorem shared_enableLoop (n : LoopId) (preset : Option Int) : (d.enableLoop m n preset).shared = d.shared := by
  unfold enableLoop
  split
  · rfl
  split
  · rfl
  · simp (disch := (with_unfolding_all change 0x800000 ≤ (_ : Nat) + _; omega)) [modLoop, shared_set]

@[simp] theorem shared_enableKinds (kinds : List Nat) : (d.enableKinds m kinds).shared = d.shared :=
  foldl_shared (fun d n => d.shared_enableLoop m n none) _ d

@[simp] theorem shared_applyLoops (s : MState) : (d.applyLoops m s).shared = d.shared := by
  cases s <;> simp (disch := (with_unfolding_all change 0x800000 ≤ (_ : Nat) + _; omega)) [applyLoops, shared_set]

@[simp] theorem shared_closeGates : (d.closeGates m).shared = d.shared := by
  simp [closeGates, dropGates, dropFrom, endBlock]
@[simp] theorem shared_lden (b : Bool) : (d.lden m b).shared = d.shared := rfl
@[simp] theorem shared_clkMotor : (d.clkMotor m).shared = d.shared := rfl
@[simp] theorem shared_openWindow (w : CoastWin) : (d.openWindow m w).shared = d.shared := rfl

@[simp] theorem shared_spnLoops (on : Bool) : (d.spnLoops m on).shared = d.shared := by
  cases on <;> simp [spnLoops]

@[simp] theorem shared_handback (cause : Nat) : (d.handback m cause).shared = d.shared := by
  simp (disch := (with_unfolding_all change 0x800000 ≤ (_ : Nat) + _; omega)) [handback, spnEvent, apply_ite shared, shared_set, shared_evt]

@[simp] theorem shared_handbackNow : (d.handbackNow m).shared = d.shared := by
  unfold handbackNow
  split <;> simp

@[simp] theorem shared_spnEnter (c : Nat) : (d.spnEnter m c).shared = d.shared := by
  simp (disch := (with_unfolding_all change 0x800000 ≤ (_ : Nat) + _; omega)) [spnEnter, apply_ite shared, shared_set]

@[simp] theorem shared_spnBrake (measure : Bool) : (d.spnBrake m measure).shared = d.shared := by
  simp [spnBrake, spnCatch, apply_ite shared]

@[simp] theorem shared_sldPublish : (d.sldPublish m).shared = d.shared := by
  simp (disch := (with_unfolding_all change 0x800000 ≤ (_ : Nat) + _; omega)) [sldPublish, shared_set]

@[simp] theorem shared_sldMode (mode : Nat) : (d.sldMode m mode).shared = d.shared := by
  simp (disch := (with_unfolding_all change 0x800000 ≤ (_ : Nat) + _; omega)) [sldMode, apply_ite shared, shared_set]

@[simp] theorem shared_sldHome (after : Option Int) : (d.sldHome m after).shared = d.shared := by
  simp (disch := (with_unfolding_all change 0x800000 ≤ (_ : Nat) + _; omega)) [sldHome, shared_set]

@[simp] theorem shared_sldMove (target : Int) (seek : Bool) : (d.sldMove m target seek).shared = d.shared := by
  simp (disch := (with_unfolding_all change 0x800000 ≤ (_ : Nat) + _; omega)) [sldMove, sldEvent, apply_ite shared, shared_set, shared_evt]

@[simp] theorem shared_endRun : (d.endRun m).shared = d.shared := by
  simp (disch := (with_unfolding_all change 0x800000 ≤ (_ : Nat) + _; omega)) [endRun, shared_set]

@[simp] theorem shared_abandonOptics : (d.abandonOptics m).shared = d.shared := by
  unfold abandonOptics
  extract_lets e₁ e₂ e₃
  have h₁ : e₁.shared = d.shared := by
    simp only [e₁]
    split
    · rfl
    · exact foldl_shared (fun d n => shared_set d _ _ (by change 0x800000 ≤ (_ : Nat) + _; omega)) _ d
  simp (disch := (with_unfolding_all change 0x800000 ≤ (_ : Nat) + _; omega)) [e₃, e₂, shared_set, h₁]

@[simp] theorem shared_spinDown (goal : ParkGoal) : (d.spinDown m goal).shared = d.shared := by
  simp (disch := (with_unfolding_all change 0x800000 ≤ (_ : Nat) + _; omega)) only
    [spinDown, sldPark, setMstate, endAuto, modMch_eq, shared_modMech, shared_set, shared_applyLoops, shared_sldMove, shared_spnBrake,
      shared_abandonOptics, shared_lden, shared_endRun, shared_closeGates]

@[simp] theorem shared_parkFor (goal : ParkGoal) : (d.parkFor m goal).shared = d.shared := by
  simp [parkFor, apply_ite shared]

@[simp] theorem shared_forcePark : (d.forcePark m).shared = d.shared := by
  simp [forcePark, apply_ite shared]

end

end Dev
end Sys2Proof.Machine
end

section
/-! PROOFS. The record of an uncorrectable error, which nothing that follows the error changes (R327, R329, R335). -/
namespace Sys2Proof.Machine

/-- The keys of BUF_EVENT.UE and of the channels' registers from BUF_CH_UE_COUNT on (R348, R349). -/
abbrev ueKey (k : Nat) : Prop := k = Reg.BUF_EVENT_UE.key ∨ 8 * 0x401000 ≤ k ∧ k < 8 * 0x401600 ∧ 64 ≤ k % 512

namespace Dev

/-- The record of the uncorrectable errors: their registers, and the poisoned bursts. -/
def ueRecord (d : Dev) : (Field → Nat) × List Nat := (fun f => if ueKey f.key then d.get f else 0, d.bufx.poison)

theorem ueRecord_get {d t : Dev} {f : Field} (h : t.ueRecord = d.ueRecord) (hf : ueKey f.key) : t.get f = d.get f := by
  have hv := congrFun (congrArg Prod.fst h) f
  simpa only [ueRecord, if_pos hf] using hv

theorem ueRecord_poison {d t : Dev} (h : t.ueRecord = d.ueRecord) : t.bufx.poison = d.bufx.poison := congrArg Prod.snd h

theorem ueRecord_congr {d t : Dev} (hg : ∀ f : Field, ueKey f.key → t.get f = d.get f) (hp : t.bufx.poison = d.bufx.poison) :
    t.ueRecord = d.ueRecord := by
  refine Prod.ext (funext fun f => ?_) hp
  simp only [ueRecord]
  split
  · exact hg f ‹_›
  · rfl

/-- A mechanism's own work leaves the record alone. -/
theorem ueRecord_of_shared {d t : Dev} (h : t.shared = d.shared) : t.ueRecord = d.ueRecord := by
  refine ueRecord_congr (fun f hf => ?_) (congrArg (fun x => x.2.poison) h)
  have hlow : f.key < 8 * 0x800000 := by
    rcases hf with hf | hf
    · rw [hf]; decide
    · omega
  have hv := congrFun (congrArg Prod.fst h) f
  simpa only [shared, if_pos hlow] using hv

theorem ueRecord_of_upkeep {d t : Dev} (h : UpkeepOnly occupancyKey d t) : t.ueRecord = d.ueRecord :=
  ueRecord_congr (fun f hf => h.regs f fun ho => by omega) (congrArg BufX.poison h.bufx)

theorem ueRecord_set (d : Dev) (f : Field) (v : Nat) (h : ¬ ueKey f.key) : (d.set f v).ueRecord = d.ueRecord :=
  ueRecord_congr (fun _ hg => get_set_ne d v fun e => h (e ▸ hg)) rfl

theorem ueRecord_evt (d : Dev) (ev en : Field) (v : Nat) (h : ¬ ueKey ev.key) : (d.evt ev en v).ueRecord = d.ueRecord :=
  ueRecord_congr (fun _ hg => evt_get_ne d en v fun e => h (e ▸ hg)) (by simp)

section
variable (d : Dev)

@[simp] theorem ueRecord_modMech (m : Mech) (f : MechX → MechX) : (d.modMech m f).ueRecord = d.ueRecord := rfl
@[simp] theorem ueRecord_modArc (f : ArcX → ArcX) : (d.modArc f).ueRecord = d.ueRecord := rfl
@[simp] theorem ueRecord_setSlot (i : Nat) (x : Slot) : (d.setSlot i x).ueRecord = d.ueRecord := rfl

@[simp] theorem ueRecord_fire (p : Port) (v : Nat) : (d.fire p v).ueRecord = d.ueRecord := ueRecord_of_upkeep (UpkeepOnly.fire p v)

@[simp] theorem ueRecord_elogAdd (s k c : Nat) (l : List (Nat × Nat × Nat)) : (d.elogAdd s k c l).ueRecord = d.ueRecord :=
  ueRecord_congr (fun _ _ => elogAdd_get d _ _ _ _ _) (by simp)

@[simp] theorem ueRecord_syncBuf : d.syncBuf.ueRecord = d.ueRecord := ueRecord_of_upkeep UpkeepOnly.syncBuf

/-! ### Slots and Flushes -/

@[simp] theorem ueRecord_refuseSlot (i status reason result : Nat) : (d.refuseSlot i status reason result).ueRecord = d.ueRecord :=
  ueRecord_of_upkeep (UpkeepOnly.refuseSlot i status reason result)

@[simp] theorem ueRecord_finishSlot (i status result : Nat) : (d.finishSlot i status result).ueRecord = d.ueRecord := by
  unfold finishSlot
  split
  · split <;> rfl
  · rfl

@[simp] theorem ueRecord_finishWants (i : Nat) : (d.finishWants i).ueRecord = d.ueRecord := by
  unfold finishWants
  split
  · rfl
  · simp [apply_ite ueRecord]

@[simp] theorem ueRecord_arcEvent (ty : Nat) (mech : Option Nat) (detail : List (Nat × Nat × Nat)) :
    (d.arcEvent ty mech detail).ueRecord = d.ueRecord := by
  simp (disch := decide) [arcEvent, apply_ite ueRecord, ueRecord_set]

@[simp] theorem ueRecord_startVerify (i : Nat) : (d.startVerify i).ueRecord = d.ueRecord := by
  unfold startVerify
  split
  · rfl
  dsimp only
  split
  · simp [arcNeeded, apply_ite ueRecord]
  · simp

@[simp] theorem ueRecord_takeLosses (vol : Nat) : (d.takeLosses vol).1.ueRecord = d.ueRecord := rfl

@[simp] theorem ueRecord_finishFlushes (l : List (Nat × Slot)) : (d.finishFlushes l).ueRecord = d.ueRecord := by
  induction l generalizing d with
  | nil => rfl
  | cons x l ih => simp [finishFlushes, ih, apply_ite ueRecord]

@[simp] theorem ueRecord_uncover (i lost : Nat) : (d.uncover i lost).ueRecord = d.ueRecord :=
  ueRecord_finishFlushes _ _

/-! ### Blocks -/

@[simp] theorem ueRecord_dropBlk (i : Nat) : (d.dropBlk i).ueRecord = d.ueRecord := ueRecord_syncBuf _

@[simp] theorem ueRecord_modBlk (i : Nat) (f : Blk → Blk) : (d.modBlk i f).ueRecord = d.ueRecord := by
  unfold modBlk
  split
  · exact ueRecord_syncBuf _
  · rfl

@[simp] theorem ueRecord_handOff (i : Nat) : (d.handOff i).ueRecord = d.ueRecord := by simp [handOff]

@[simp] theorem ueRecord_skipRefresh (m : Mech) (r : Refresh) : (d.skipRefresh m r).ueRecord = d.ueRecord := by
  refine (ueRecord_dropBlk _ _).trans (ueRecord_of_shared ?_)
  simp (disch := (with_unfolding_all change 0x800000 ≤ (_ : Nat) + _; omega)) [goatEvent, shared_set, shared_evt]

@[simp] theorem ueRecord_loseSectors (i : Nat) (b : Blk) (a holder : Nat) : (d.loseSectors i b a holder).ueRecord = d.ueRecord := by
  have he : ((d.elogAdd (0x54 + d.groupOf a) 6 2 (lostDetail a holder (popcount 16 (andNot b.valid b.lost)) (some b))).bufEvent
      Reg.BUF_EVENT_DATA_LOST).ueRecord = d.ueRecord := by
    rw [bufEvent, ueRecord_evt _ _ _ _ (by decide), ueRecord_elogAdd]
  unfold loseSectors
  dsimp only
  split
  · exact (ueRecord_uncover _ _ _).trans he
  · exact (ueRecord_uncover _ _ _).trans he

@[simp] theorem ueRecord_locate (m : Mech) (i : Nat) (b : Blk) : (d.locate m i b).ueRecord = d.ueRecord := by
  unfold locate locateAt
  split <;> rfl

@[simp] theorem ueRecord_loseCopy (m : Mech) (i : Nat) (b : Blk) (a : Nat) : (d.loseCopy m i b a).ueRecord = d.ueRecord := by
  simp [loseCopy, apply_ite ueRecord]

/-- What the holder of poisoned data does leaves the record of the error alone (R329). -/
theorem ueRecord_answerPoison (a : Nat) : (d.answerPoison a).ueRecord = d.ueRecord := by
  unfold answerPoison
  dsimp only
  split
  · simp
  split
  · split <;> simp
  · simp [apply_ite ueRecord]

/-! ### BUFFER_FAILED (R335) -/

theorem ueRecord_refuseIo (l : List (Nat × Slot)) : (d.refuseIo l).ueRecord = d.ueRecord := by
  induction l generalizing d with
  | nil => rfl
  | cons x l ih => simp [refuseIo, ih, apply_ite ueRecord]

theorem ueRecord_bufferFailed : d.bufferFailed.ueRecord = d.ueRecord := by
  unfold bufferFailed
  split
  · rfl
  · refine (ueRecord_of_shared (foldl_shared (fun d m => ?_) _ _)).trans ?_
    · simp
    · rw [ueRecord_refuseIo, bufEvent, ueRecord_evt _ _ _ _ (by decide), ueRecord_set _ _ _ (by decide)]

end
end Dev
end Sys2Proof.Machine
end

section
/-! PROOFS. Reads of the buffer, by the device and by the scrubber (R327, R328, R329): obligation O38. -/
namespace Sys2Proof.Machine

theorem keepsRegs_foldl {α : Type} {fs : List Field} {f : Dev → α → Dev} (h : ∀ d x, KeepsRegs fs d (f d x)) (l : List α) (d : Dev) :
    KeepsRegs fs d (l.foldl f d) := by
  induction l generalizing d with
  | nil => exact keepsRegs_refl d fs
  | cons x l ih => exact keepsRegs_trans (h d x) (ih _)

/-- A counter that a step has counted up once reads one more, or stays at its all-ones value (R9). -/
theorem counts_count (d : Dev) (f : Field) : Counts f d (d.count f) := by
  rw [Counts, Dev.count_eq, Dev.get_set_self]
  exact Nat.mod_eq_of_lt (by have := Nat.two_pow_pos f.width; omega)

namespace Dev

/-! ### What a request to an address touches (R325) -/

theorem touch_keepsRegs (d : Dev) (a : Nat) : KeepsRegs ((List.finRange 24).map Reg.BUF_CH_STAT_SR) d (d.touch a) := by
  unfold touch
  dsimp only
  split
  · exact keepsRegs_refl _ _
  · exact keepsRegs_foldl (fun d _ => keepsRegs_set _ 0 _ (key_SR_mem _)) _ d

@[simp] theorem touch_bufx (d : Dev) (a : Nat) : (d.touch a).bufx = d.bufx := by
  obtain ⟨r, h⟩ := d.touch_only a
  rw [h]

@[simp] theorem touch_mech (d : Dev) (a : Nat) : (d.touch a).mech = d.mech := by
  obtain ⟨r, h⟩ := d.touch_only a
  rw [h]

/-- Of a channel's registers, a request touches none but BUF_CH_STAT. -/
theorem touch_get_of_ne (d : Dev) (a : Nat) {f : Field} (h : 32 ≤ f.key % 512) : (d.touch a).get f = d.get f := by
  refine d.touch_keepsRegs a f fun hm => ?_
  simp only [List.map_map, List.mem_map, Function.comp, Field.key, Reg.BUF_CH_STAT_SR] at hm h
  obtain ⟨c, -, hc⟩ := hm
  omega

/-! ### Corrected errors (R327, R330) -/

theorem key_SOFT_USED_ne_CE (c : Chan) : (Reg.BUF_CH_STAT_SOFT_USED c).key ≠ (Reg.BUF_CH_CE_COUNT c).key := by
  simp only [Reg.BUF_CH_STAT_SOFT_USED, Reg.BUF_CH_CE_COUNT, Field.key]
  omega

theorem key_CE_ROW_ne_CE (c : Chan) : Reg.BUF_EVENT_CE_ROW.key ≠ (Reg.BUF_CH_CE_COUNT c).key := by
  simp only [Reg.BUF_EVENT_CE_ROW, Reg.BUF_CH_CE_COUNT, Field.key]
  omega

/-- A soft repair leaves the corrected errors' count, the queue of the scrubber, poison, blocks and mechanisms alone. -/
theorem softRepair_keeps (d : Dev) (c : Chan) (key : Nat) :
    (d.softRepair c key).get (Reg.BUF_CH_CE_COUNT c) = d.get (Reg.BUF_CH_CE_COUNT c) ∧ (d.softRepair c key).bufx.fixes = d.bufx.fixes ∧
    (d.softRepair c key).bufx.poison = d.bufx.poison ∧ (d.softRepair c key).bufx.blocks = d.bufx.blocks ∧
    (d.softRepair c key).mech = d.mech := by
  unfold softRepair
  split
  · exact ⟨rfl, rfl, rfl, rfl, rfl⟩
  · refine ⟨?_, by simp, by simp, by simp, by simp⟩
    rw [bufEvent_get_ne _ (key_CE_ROW_ne_CE c), count_eq, get_set_ne _ _ (key_SOFT_USED_ne_CE c)]
    rfl

/-- A corrected error is counted, and its burst waits for the scrubber. -/
theorem corrected_keeps (d : Dev) (c : Chan) (a : Nat) :
    Counts (Reg.BUF_CH_CE_COUNT c) d (d.corrected c a) ∧ a ∈ (d.corrected c a).bufx.fixes ∧
    (d.corrected c a).bufx.poison = d.bufx.poison ∧ (d.corrected c a).bufx.blocks = d.bufx.blocks ∧ (d.corrected c a).mech = d.mech := by
  unfold corrected
  extract_lets key
  split
  extract_lets e
  have hn : Counts (Reg.BUF_CH_CE_COUNT c) d e := counts_count d _
  have hfix : a ∈ e.bufx.fixes := by
    simp only [e, modBufx_bufx]
    split
    · exact List.mem_of_elem_eq_true ‹_›
    · exact List.mem_append_right _ List.mem_cons_self
  split
  · obtain ⟨hce, hf, hp, hb, hm⟩ := e.softRepair_keeps c key
    exact ⟨hce.trans hn, hf ▸ hfix, hp, hb, hm⟩
  · exact ⟨hn, hfix, rfl, rfl, rfl⟩

/-! ### Uncorrectable errors (R327, R329, R335) -/

/-- An uncorrectable error is recorded in its channel and in BUF_EVENT. -/
def ueNoted (d : Dev) (c : Chan) (a : Nat) : Dev :=
  ((d.count (Reg.BUF_CH_UE_COUNT c)).setAll [(Reg.BUF_CH_ERR_ADDR_LO_ADDR c, a), (Reg.BUF_CH_ERR_ADDR_HI_ADDR c, a >>> 32)]).bufEvent
    Reg.BUF_EVENT_UE

theorem ueKey_UE_COUNT (c : Chan) : ueKey (Reg.BUF_CH_UE_COUNT c).key := by
  simp only [ueKey, Reg.BUF_CH_UE_COUNT, Field.key]
  omega

theorem ueKey_ERR_ADDR_LO (c : Chan) : ueKey (Reg.BUF_CH_ERR_ADDR_LO_ADDR c).key := by
  simp only [ueKey, Reg.BUF_CH_ERR_ADDR_LO_ADDR, Field.key]
  omega

theorem ueNoted_poison (d : Dev) (c : Chan) (a : Nat) : (d.ueNoted c a).bufx.poison = d.bufx.poison := by simp [ueNoted]

theorem ueNoted_UE (d : Dev) (c : Chan) (a : Nat) : (d.ueNoted c a).get Reg.BUF_EVENT_UE = 1 := bufEvent_get_self _ rfl

theorem ueNoted_counts (d : Dev) (c : Chan) (a : Nat) : Counts (Reg.BUF_CH_UE_COUNT c) d (d.ueNoted c a) := by
  have hev : Reg.BUF_EVENT_UE.key ≠ (Reg.BUF_CH_UE_COUNT c).key := by
    simp only [Reg.BUF_EVENT_UE, Reg.BUF_CH_UE_COUNT, Field.key]; omega
  have hlo : (Reg.BUF_CH_ERR_ADDR_LO_ADDR c).key ≠ (Reg.BUF_CH_UE_COUNT c).key := by
    simp only [Reg.BUF_CH_ERR_ADDR_LO_ADDR, Reg.BUF_CH_UE_COUNT, Field.key]; omega
  have hhi : (Reg.BUF_CH_ERR_ADDR_HI_ADDR c).key ≠ (Reg.BUF_CH_UE_COUNT c).key := by
    simp only [Reg.BUF_CH_ERR_ADDR_HI_ADDR, Reg.BUF_CH_UE_COUNT, Field.key]; omega
  rw [Counts, ueNoted, bufEvent_get_ne _ hev, setAll_cons, setAll_cons, setAll_nil, get_set_ne _ _ hhi, get_set_ne _ _ hlo]
  exact counts_count d _

theorem ueNoted_ERR_ADDR_LO (d : Dev) (c : Chan) (a : Nat) :
    (d.ueNoted c a).get (Reg.BUF_CH_ERR_ADDR_LO_ADDR c) = a % 2 ^ (Reg.BUF_CH_ERR_ADDR_LO_ADDR c).width := by
  have hev : Reg.BUF_EVENT_UE.key ≠ (Reg.BUF_CH_ERR_ADDR_LO_ADDR c).key := by
    simp only [Reg.BUF_EVENT_UE, Reg.BUF_CH_ERR_ADDR_LO_ADDR, Field.key]; omega
  have hhi : (Reg.BUF_CH_ERR_ADDR_HI_ADDR c).key ≠ (Reg.BUF_CH_ERR_ADDR_LO_ADDR c).key := by
    simp only [Reg.BUF_CH_ERR_ADDR_HI_ADDR, Reg.BUF_CH_ERR_ADDR_LO_ADDR, Field.key]; omega
  rw [ueNoted, bufEvent_get_ne _ hev, setAll_cons, setAll_cons, setAll_nil, get_set_ne _ _ hhi, get_set_self]

/-- Burst `a` of channel `c` is poisoned, with the uncorrectable errors of the channel's last hour. -/
def poisonBurst (d : Dev) (c : Chan) (a : Nat) (ues : List Nat) : Dev :=
  d.modBufx fun x => { x with poison := if x.poison.contains a then x.poison else a :: x.poison, ueTimes := x.ueTimes.set c.val ues }

theorem mem_poisonBurst (d : Dev) (c : Chan) (a : Nat) (ues : List Nat) : a ∈ (d.poisonBurst c a ues).bufx.poison := by
  simp only [poisonBurst, modBufx_bufx]
  split
  · exact List.mem_of_elem_eq_true ‹_›
  · exact List.mem_cons_self

/-! ### One read -/

section
variable {d : Dev} {addr : Nat} (hu : d.up = true) (hs : d.chanServes (d.chanOf (addr / 32 * 32)) = true)
include hu hs

theorem burstRead_clean (hp : addr / 32 * 32 ∉ d.bufx.poison) : d.burstRead addr .clean = d.touch (addr / 32 * 32) := by
  unfold burstRead
  simp [hu, hs, hp]

theorem burstRead_single (hp : addr / 32 * 32 ∉ d.bufx.poison) :
    d.burstRead addr .single = (d.touch (addr / 32 * 32)).corrected (d.chanOf (addr / 32 * 32)) (addr / 32 * 32) := by
  unfold burstRead
  simp [hu, hs, hp]

/-- A read that cannot be corrected leaves the record of its error, whatever the holder of the data and BUFFER_FAILED then do. -/
theorem burstRead_double : ∃ ues, (d.burstRead addr .double).ueRecord =
    (((d.touch (addr / 32 * 32)).poisonBurst (d.chanOf (addr / 32 * 32)) (addr / 32 * 32) ues).ueNoted
      (d.chanOf (addr / 32 * 32)) (addr / 32 * 32)).ueRecord := by
  unfold burstRead
  extract_lets a c e ues e₁ e₂ e₃
  refine ⟨ues, ?_⟩
  rw [if_neg (by simp [hu, c, a, hs]), if_pos (.inl rfl)]
  have h₃ : e₃.ueRecord = e₂.ueRecord := ueRecord_answerPoison e₂ a
  split
  · exact (ueRecord_bufferFailed e₃).trans h₃
  · exact h₃

/-- A scrub is a read after which the burst is queued for the scrubber no more (R328). -/
theorem scrub_eq (he : d.get Reg.BUF_CTL_SCRUB_EN ≠ 0) (r : EccResult) :
    d.scrub addr r = (d.burstRead addr r).modBufx fun x => { x with fixes := x.fixes.filter (· ≠ addr / 32 * 32) } :=
  if_pos ⟨by simpa [on] using he, hu, hs⟩

end
end Dev

/-! ### Reads of the device and of the scrubber -/

/-- What burst reads queue for the scrubber is left after the read of a command: all of it after BUFFER_READ, all but the burst read
after SCRUB_READ. -/
def fixesAfter (i : Instr) (addr : Nat) (r : EccResult) (fixes : List Nat) : List Nat :=
  if i = .bufferRead addr r then fixes else fixes.filter (· ≠ addr / 32 * 32)

section
variable {s : State} {addr : Nat} {r : EccResult} {i : Instr} (hu : s.dev.up = true)
  (hs : s.dev.chanServes (s.dev.chanOf (addr / 32 * 32)) = true)
  (hi : i = .bufferRead addr r ∨ (i = .scrubRead addr r ∧ s.dev.get Reg.BUF_CTL_SCRUB_EN ≠ 0))
include hu hs hi

/-- Both reads are one read of the burst, and differ in the queue of the scrubber alone. -/
theorem makes_read {P : Dev → Prop}
    (h : P ((s.dev.burstRead addr r).modBufx fun x => { x with fixes := fixesAfter i addr r x.fixes })) : Makes i s P := by
  rcases hi with rfl | ⟨rfl, he⟩
  · simp only [fixesAfter, if_true] at h
    exact makes_liftDev (f := fun d => d.burstRead addr r) rfl h
  · simp only [fixesAfter, reduceCtorEq, if_false] at h
    refine makes_liftDev (f := fun d => d.scrub addr r) rfl ?_
    rw [Dev.scrub_eq hu hs he]
    exact h

theorem read_clean (hr : r = .clean) (hp : addr / 32 * 32 ∉ s.dev.bufx.poison) : Makes i s fun t =>
    KeepsRegs ((List.finRange 24).map Reg.BUF_CH_STAT_SR) s.dev t ∧
    { t with regs := s.dev.regs, bufx := { t.bufx with fixes := s.dev.bufx.fixes } } = s.dev ∧
    t.bufx.fixes = if i = .bufferRead addr r then s.dev.bufx.fixes else s.dev.bufx.fixes.filter (· ≠ addr / 32 * 32) := by
  subst hr
  refine makes_read hu hs hi ?_
  rw [Dev.burstRead_clean hu hs hp]
  obtain ⟨rs, ht⟩ := s.dev.touch_only (addr / 32 * 32)
  refine ⟨keepsRegs_trans (s.dev.touch_keepsRegs _) (keepsRegs_of_regs rfl _), ?_, ?_⟩
  · rw [ht]; rfl
  · rw [ht]; rfl

theorem read_single (hr : r = .single) (hp : addr / 32 * 32 ∉ s.dev.bufx.poison) : Makes i s fun t =>
    Counts (Reg.BUF_CH_CE_COUNT (s.dev.chanOf (addr / 32 * 32))) s.dev t ∧
    t.bufx.fixes.contains (addr / 32 * 32) = decide (i = .bufferRead addr r) ∧ t.bufx.poison = s.dev.bufx.poison ∧
    t.bufx.blocks = s.dev.bufx.blocks ∧ t.mech = s.dev.mech := by
  subst hr
  refine makes_read hu hs hi ?_
  rw [Dev.burstRead_single hu hs hp]
  obtain ⟨hce, hfix, hpo, hbl, hme⟩ := (s.dev.touch (addr / 32 * 32)).corrected_keeps (s.dev.chanOf (addr / 32 * 32)) (addr / 32 * 32)
  generalize (s.dev.touch (addr / 32 * 32)).corrected _ _ = t at *
  have hkey : 32 ≤ (Reg.BUF_CH_CE_COUNT (s.dev.chanOf (addr / 32 * 32))).key % 512 := by
    simp only [Reg.BUF_CH_CE_COUNT, Field.key]; omega
  refine ⟨?_, ?_, hpo.trans (by simp), hbl.trans (by simp), hme.trans (by simp)⟩
  · rw [Counts, Dev.modBufx_get, hce, Dev.touch_get_of_ne _ _ hkey]
  · by_cases h : i = .bufferRead addr .single
    · simp [fixesAfter, h, hfix]
    · simp [fixesAfter, h]

theorem read_double (hr : r = .double) : Makes i s fun t =>
    Counts (Reg.BUF_CH_UE_COUNT (s.dev.chanOf (addr / 32 * 32))) s.dev t ∧
    t.get (Reg.BUF_CH_ERR_ADDR_LO_ADDR (s.dev.chanOf (addr / 32 * 32))) =
      addr / 32 * 32 % 2 ^ (Reg.BUF_CH_ERR_ADDR_LO_ADDR (s.dev.chanOf (addr / 32 * 32))).width ∧
    t.get Reg.BUF_EVENT_UE = 1 ∧ addr / 32 * 32 ∈ t.bufx.poison := by
  subst hr
  refine makes_read hu hs hi ?_
  obtain ⟨ues, hrec⟩ := Dev.burstRead_double hu hs
  have hkey : 32 ≤ (Reg.BUF_CH_UE_COUNT (s.dev.chanOf (addr / 32 * 32))).key % 512 := by
    simp only [Reg.BUF_CH_UE_COUNT, Field.key]; omega
  refine ⟨?_, ?_, ?_, ?_⟩
  · rw [Counts, Dev.modBufx_get, Dev.ueRecord_get hrec (Dev.ueKey_UE_COUNT _), Dev.ueNoted_counts, Dev.poisonBurst, Dev.modBufx_get,
      Dev.touch_get_of_ne _ _ hkey]
  · rw [Dev.modBufx_get, Dev.ueRecord_get hrec (Dev.ueKey_ERR_ADDR_LO _), Dev.ueNoted_ERR_ADDR_LO]
  · rw [Dev.modBufx_get, Dev.ueRecord_get hrec (.inl rfl), Dev.ueNoted_UE]
  · rw [Dev.modBufx_bufx, Dev.ueRecord_poison hrec, Dev.ueNoted_poison]
    exact Dev.mem_poisonBurst _ _ _ _

end

/-- Settles O38, one lemma for each command of a channel, and one for each result of a read. -/
theorem bufferChannels : Obligations.BufferChannels :=
  ⟨⟨fun _ _ hu he hr => bufferSelfRefreshEntry_answers hu he hr,
      fun _ _ hu hs => ⟨mr4Poll_answers hu hs, fun w => ⟨zqCalibration_answers hu hs w, dqsOscillatorTracking_answers hu hs w⟩,
        allBankRefresh_answers hu hs⟩⟩,
    fun _ _ _ _ hu hs hi => ⟨read_clean hu hs hi, read_single hu hs hi, read_double hu hs hi⟩⟩

end Sys2Proof.Machine
end

section
/-! PROOFS. The rails and clocks of power-up (R22, R56, R57, R66): obligation O5. -/
namespace Sys2Proof.Machine
namespace Dev

/-! ### One value written to the fields of a family -/

section
variable {α : Type} (F : α → Field) (v : Nat) (l : List α) (d : Dev)

theorem foldl_set_rest : { l.foldl (fun d x => d.set (F x) v) d with regs := d.regs } = d := by
  induction l generalizing d with
  | nil => rfl
  | cons x l ih => exact (congrArg (fun t : Dev => { t with regs := d.regs }) (ih (d.set (F x) v)) :)

theorem foldl_set_keepsRegs : KeepsRegs (l.map F) d (l.foldl (fun d x => d.set (F x) v) d) := by
  induction l generalizing d with
  | nil => exact keepsRegs_refl d _
  | cons x l ih =>
    intro f hf
    simp only [List.map_cons, List.mem_cons, not_or] at hf
    exact (ih _ f hf.2).trans (get_set_ne d v (Ne.symm hf.1))

/-- A field of the family reads the value, whichever of its fields are written after it. -/
theorem foldl_set_get {x : α} (hF : ∀ y z, (F y).key = (F z).key → y = z) (hx : x ∈ l) :
    (l.foldl (fun d x => d.set (F x) v) d).get (F x) = v % 2 ^ (F x).width := by
  induction l generalizing d with
  | nil => cases hx
  | cons y l ih =>
    by_cases h : x ∈ l
    · exact ih _ h
    · obtain rfl : x = y := (List.mem_cons.1 hx).resolve_right h
      rw [List.foldl_cons, foldl_set_keepsRegs, get_set_self]
      simp only [List.map_map, List.mem_map, Function.comp, not_exists, not_and]
      exact fun z hz e => h (hF z x e ▸ hz)

end

/-! ### The whole-device reset (R22) -/

/-- Of the registers, those of the blocks of Ox and of the keys stay. -/
theorem wholeReset_get (d : Dev) (f : Field) :
    d.wholeReset.get f = if 8 * 0x20000 ≤ f.key ∧ f.key < 8 * 0x40000 then d.get f else f.reset := by
  have h := Sparse.lookup_filter d.regs (fun k => decide (8 * 0x20000 ≤ k ∧ k < 8 * 0x40000)) f.key
  simp only [get, Sparse.get, wholeReset, h, decide_eq_true_eq]
  split <;> rfl

theorem key_TRIMMED_inj (m k : Mech) (h : (Reg.OXA_MECH_TRIMMED m).key = (Reg.OXA_MECH_TRIMMED k).key) : m = k := by
  simp only [Reg.OXA_MECH_TRIMMED, Field.key] at h
  exact Fin.ext (by omega)

theorem key_TRIM_DONE_notMem : Reg.OXA_STATE_TRIM_DONE.key ∉ ((List.finRange 16).map Reg.OXA_MECH_TRIMMED).map Field.key := by
  decide

end Dev

/-- Power-up trims every comparator and turns main power on (R66 steps 1 to 3). -/
theorem powerUp_answers {s : State} (trims : List (BitVec 10)) (h : s.dev.ox.step = .off) :
    Makes (.powerUp trims) s fun t =>
      t.ox.step = .mainEn ∧ t.ox.mainEn = true ∧ t.ox.tox = 0 ∧ (∀ k : Fin 80, t.ox.trims[k.val] = trims.getD k.val 0) ∧
      t.get Reg.OXA_STATE_TRIM_DONE = 1 ∧ (∀ m, t.get (Reg.OXA_MECH_TRIMMED m) = 1) ∧
      KeepsRegs (Reg.OXA_STATE_TRIM_DONE :: (List.finRange 16).map Reg.OXA_MECH_TRIMMED) s.dev t ∧
      { t with regs := s.dev.regs, ox := s.dev.ox } = s.dev := by
  refine makes_liftDev (f := fun d => d.powerUp trims) rfl ?_
  rw [Dev.powerUp, if_neg (by simp [h])]
  extract_lets d₁ d₂
  have hrest := Dev.foldl_set_rest Reg.OXA_MECH_TRIMMED 1 (List.finRange 16) d₂
  have hkeep := Dev.foldl_set_keepsRegs Reg.OXA_MECH_TRIMMED 1 (List.finRange 16) d₂
  have htrim := fun m => Dev.foldl_set_get Reg.OXA_MECH_TRIMMED 1 (List.finRange 16) d₂ Dev.key_TRIMMED_inj (List.mem_finRange m)
  generalize (List.finRange 16).foldl _ d₂ = t at *
  have hox : t.ox = d₁.ox := (congrArg Dev.ox hrest :)
  refine ⟨by rw [hox]; rfl, by rw [hox]; rfl, by rw [hox]; rfl, fun k => ?_, ?_, htrim, ?_, ?_⟩
  · rw [hox]
    simp [d₁]
  · rw [hkeep _ Dev.key_TRIM_DONE_notMem]
    exact Dev.get_set_self _ _ _
  · intro f hf
    simp only [List.map_cons, List.mem_cons, not_or] at hf
    rw [hkeep f hf.2, Dev.get_set_ne _ _ (Ne.symm hf.1)]
    rfl
  · exact (congrArg (fun x : Dev => { x with regs := s.dev.regs, ox := s.dev.ox }) hrest :)

/-- The main rails come up with the whole-device reset, unless RECOVER has begun this start (R22). -/
theorem mainPgAssert_answers {s : State} (h : s.dev.ox.step = .mainEn) (hm : s.dev.get Reg.OXA_STATE_MODE ≠ 2) :
    MakesBuf .mainPgAssert s fun b t =>
      b = [] ∧ t.ox = { s.dev.ox with mainPg := true, step := .mainPg } ∧ t.slots = [] ∧ t.vlog = s.dev.vlog ∧ t.elog = s.dev.elog ∧
      (∀ f : Field, f.key < 8 * 0x20000 ∨ 8 * 0x40000 ≤ f.key → t.get f = f.reset) ∧
      (∀ f : Field, 8 * 0x20000 ≤ f.key → f.key < 8 * 0x40000 → t.get f = s.dev.get f) := by
  refine makesBuf_liftBuf (f := Dev.mainPgAssert) rfl ?_
  rw [Dev.mainPgAssert, if_neg (by simp [h]), if_neg hm]
  refine ⟨rfl, rfl, rfl, rfl, rfl, fun f hf => ?_, fun f hlo hhi => ?_⟩
  · rw [Dev.modOx_get, Dev.wholeReset_get, if_neg (by omega)]
  · rw [Dev.modOx_get, Dev.wholeReset_get, if_pos ⟨hlo, hhi⟩]

theorem mainPgAssert_recovering {s : State} (h : s.dev.ox.step = .mainEn) (hm : s.dev.get Reg.OXA_STATE_MODE = 2) :
    Gives .mainPgAssert s { s.dev with ox := { s.dev.ox with mainPg := true, step := .mainPg } } := by
  have hd : s.dev.mainPgAssert s.buf = ({ s.dev with ox := { s.dev.ox with mainPg := true, step := .mainPg } }, s.buf) := by
    rw [Dev.mainPgAssert, if_neg (by simp [h]), if_pos hm]
    rfl
  change liftBuf Dev.mainPgAssert s = _
  rw [liftBuf, hd]

/-- The system PLL's lock in step 4 starts the core's and the security domain's clocks (R56, R66). -/
theorem systemPllLock_answers {s : State} (h : s.dev.ox.step = .mainPg) (he : s.dev.ox.mainEn = true) (hp : s.dev.ox.mainPg = true)
    (hl : s.dev.ox.pllOn = false) (hd : s.dev.get Reg.OXA_STATE_DEPTH ≠ 2) :
    Gives .systemPllLock s { s.dev with
      ox := { s.dev.ox with pllWait := true, step := .pll, clk := { s.dev.ox.clk with core := true, security := true } } } := by
  change liftDev Dev.systemPllLock s = _
  rw [liftDev, Dev.systemPllLock, if_neg (by simp [Dev.mainsUp, he, hp, hl, hd])]
  simp [Dev.modOx, h]

/-- With VAON lost Ox starts again from nothing, and fuses and flash stay (R22, R57, R467). -/
theorem vaonLoss_answers (s : State) : MakesBuf .vaonLoss s fun b t =>
    b = [] ∧ t.ox.step = .off ∧ t.regs = [] ∧ t.vlog.entries = [] ∧ t.elog.entries = [] ∧
    t.sec.gk0Revoked = s.dev.sec.gk0Revoked ∧ t.sec.arb = s.dev.sec.arb ∧ t.sec.owners = s.dev.sec.owners :=
  makesBuf_liftBuf (f := fun d _ => (d.vaonLoss, [])) rfl ⟨rfl, rfl, rfl, rfl, rfl, rfl, rfl, rfl⟩

/-- Settles O5, one lemma for each command, and two for the main rails. -/
theorem railsAndClocks : Obligations.RailsAndClocks :=
  ⟨fun _ trims h => powerUp_answers trims h, fun _ h hm => mainPgAssert_answers h hm, fun _ h hm => mainPgAssert_recovering h hm,
    fun _ h he hp hl hd => systemPllLock_answers h he hp hl hd, vaonLoss_answers⟩

end Sys2Proof.Machine
end

section
/-! PROOFS. The slot of a command: what a read gives after a write, and how a command ends (R365, R366). -/
namespace Sys2Proof.Machine
namespace Dev

/-! ### Reading a slot -/

theorem slot_congr {d t : Dev} (h : t.slots = d.slots) (i : Nat) : t.slot i = d.slot i := congrArg (Sparse.lookup · i) h

@[simp] theorem slot_setSlot_self (d : Dev) (i : Nat) (x : Slot) : (d.setSlot i x).slot i = some x := by
  rw [slot, setSlot_slots, Sparse.lookup_insert _ _ _ _ (by simp [Sparse.lookup_erase]), if_pos rfl]

theorem slot_setSlot_ne (d : Dev) {i j : Nat} (x : Slot) (h : i ≠ j) : (d.setSlot i x).slot j = d.slot j := by
  rw [slot, setSlot_slots, Sparse.lookup_insert _ _ _ _ (by simp [Sparse.lookup_erase]), if_neg h, Sparse.lookup_erase, if_neg h, slot]

theorem modSlot_eq {d : Dev} {i : Nat} {x : Slot} (f : Slot → Slot) (h : d.slot i = some x) : d.modSlot i f = d.setSlot i (f x) := by
  simp only [modSlot, h]

/-! ### The end of a command -/

section
variable {d : Dev} {i : Nat} {x : Slot} (h : d.slot i = some x) (hf : x.phase ≠ .finished) (status reason result : Nat)
include h hf

theorem finishSlot_eq : d.finishSlot i status result = d.setSlot i
    { x with phase := .finished, status := status, result := result, outcome := if x.delay = 0 then .served else .delayed } := by
  simp only [finishSlot, h, if_neg hf]

theorem refuseSlot_eq : d.refuseSlot i status reason result = d.setSlot i
    { x with phase := .finished, status := status, result := result, outcome := .refused, reason := reason,
             delay := (d.now - x.arrived) / 1000 } := by
  simp only [refuseSlot, h, if_neg hf]

theorem ends_finishSlot : Ends i status (d.finishSlot i status result) := by
  rw [finishSlot_eq h hf]
  exact ⟨_, slot_setSlot_self _ _ _, rfl, rfl⟩

theorem refuses_refuseSlot : Refuses i status reason (d.refuseSlot i status reason result) := by
  rw [refuseSlot_eq h hf]
  exact ⟨_, slot_setSlot_self _ _ _, rfl, rfl, rfl, rfl⟩

end

section
variable (d : Dev) (i status reason result : Nat)

/-- The end of a command changes its slot alone. -/
theorem finishSlot_only : ∃ l, d.finishSlot i status result = { d with slots := l } := by
  unfold finishSlot
  split
  · split
    · exact ⟨_, rfl⟩
    · exact ⟨_, rfl⟩
  · exact ⟨_, rfl⟩

@[simp] theorem finishSlot_regs : (d.finishSlot i status result).regs = d.regs := by
  obtain ⟨l, h⟩ := d.finishSlot_only i status result
  rw [h]

@[simp] theorem finishSlot_mech : (d.finishSlot i status result).mech = d.mech := by
  obtain ⟨l, h⟩ := d.finishSlot_only i status result
  rw [h]

@[simp] theorem finishSlot_bufx : (d.finishSlot i status result).bufx = d.bufx := by
  obtain ⟨l, h⟩ := d.finishSlot_only i status result
  rw [h]

@[simp] theorem finishSlot_get (f : Field) : (d.finishSlot i status result).get f = d.get f := by
  simp [get]

theorem finishSlot_slot_ne {j : Nat} (h : i ≠ j) : (d.finishSlot i status result).slot j = d.slot j := by
  unfold finishSlot
  split
  · split
    · rfl
    · exact slot_setSlot_ne d _ h
  · rfl

/-- A refusal changes the slot of its command alone. -/
theorem refuseSlot_only : ∃ l, d.refuseSlot i status reason result = { d with slots := l } := by
  unfold refuseSlot
  split
  · split
    · exact ⟨_, rfl⟩
    · exact ⟨_, rfl⟩
  · exact ⟨_, rfl⟩

@[simp] theorem refuseSlot_regs : (d.refuseSlot i status reason result).regs = d.regs := by
  obtain ⟨l, h⟩ := d.refuseSlot_only i status reason result
  rw [h]

@[simp] theorem refuseSlot_mech : (d.refuseSlot i status reason result).mech = d.mech := by
  obtain ⟨l, h⟩ := d.refuseSlot_only i status reason result
  rw [h]

@[simp] theorem refuseSlot_get (f : Field) : (d.refuseSlot i status reason result).get f = d.get f := by
  simp [get]

end
end Dev
end Sys2Proof.Machine
end

section
/-! PROOFS. The admission of writes and the refusals of commands that wait (R343, R344, R345, R398). -/
namespace Sys2Proof.Machine
namespace Dev

/-! ### What an admission takes from the meter and from the port (R343, R344) -/

@[simp] theorem takePort_mech (d : Dev) (p : Port) (n : Nat) : (d.takePort p n).mech = d.mech := rfl
@[simp] theorem takePort_now (d : Dev) (p : Port) (n : Nat) : (d.takePort p n).now = d.now := rfl
@[simp] theorem takePort_meter (d : Dev) (p : Port) (n : Nat) : (d.takePort p n).bufx.meter = d.bufx.meter := by cases p <;> rfl

@[simp] theorem takeMeter_mech (d : Dev) (n : Nat) : (d.takeMeter n).mech = d.mech := rfl
@[simp] theorem takeMeter_now (d : Dev) (n : Nat) : (d.takeMeter n).now = d.now := rfl
@[simp] theorem takeMeter_meter (d : Dev) (n : Nat) : (d.takeMeter n).bufx.meter = d.meterNow - (1000 * n : Nat) := rfl

/-- The count of a wait writes registers alone. -/
theorem countWait_only (d : Dev) (x : Slot) (w : Bool) : ∃ r, d.countWait x w = { d with regs := r } := by
  simp only [countWait]
  split
  · cases w
    · exact ⟨_, rfl⟩
    · exact ⟨_, rfl⟩
  · exact ⟨_, rfl⟩

@[simp] theorem countWait_mech (d : Dev) (x : Slot) (w : Bool) : (d.countWait x w).mech = d.mech := by
  obtain ⟨r, h⟩ := d.countWait_only x w
  rw [h]

@[simp] theorem countWait_bufx (d : Dev) (x : Slot) (w : Bool) : (d.countWait x w).bufx = d.bufx := by
  obtain ⟨r, h⟩ := d.countWait_only x w
  rw [h]

@[simp] theorem countWait_now (d : Dev) (x : Slot) (w : Bool) : (d.countWait x w).now = d.now := by
  obtain ⟨r, h⟩ := d.countWait_only x w
  rw [h]
  rfl

/-- A write outside a reservation that goes: its transfer runs, and its bytes are taken from the meter. -/
theorem takeIn_admits {d : Dev} {i : Nat} {x : Slot} (h : d.slot i = some x) (hc : x.cls ≠ .reserved) :
    (d.takeIn i).mech = d.mech ∧ (d.takeIn i).bufx.meter = d.meterNow - (1000 * dataLen x : Nat) ∧
    (d.takeIn i).slot i = some { x with phase := .running, delay := x.delay + (d.now - x.grantedAt + 999) / 1000 } := by
  simp only [takeIn, h, if_neg hc]
  exact ⟨by simp, by simp, by simp⟩

end Dev

section
variable {s : State} {i : Nat} {x : Slot} (hu : s.dev.up = true) (hs : s.dev.slot i = some x)
include hu hs

theorem writeAdmission_admits (hw : x.phase = .admitWait) (ho : Dev.opcode x = 1) (ha : s.dev.canAdmit i x = true)
    (hc : x.cls ≠ .reserved) : ActsOnQueues (.writeAdmission i) s fun b u =>
      b = s.buf ∧ u.mech = s.dev.mech ∧ u.bufx.meter = s.dev.meterNow - (1000 * Dev.dataLen x : Nat) ∧
      ∃ y, u.slot i = some y ∧ y.phase = .running ∧ y.entry = x.entry ∧ y.delay = x.delay + (s.dev.now - x.grantedAt + 999) / 1000 := by
  refine actsOnQueues_liftQueue (f := fun d b => d.writeAdmission b i) rfl hu ?_
  obtain ⟨hmech, hmeter, hslot⟩ := Dev.takeIn_admits hs hc
  simp only [Dev.writeAdmission, hs, hw, ho, ha, ne_eq, not_true_eq_false, if_false, true_or, if_true]
  exact ⟨trivial, hmech, hmeter, _, hslot, rfl, rfl, rfl⟩

theorem writeAdmission_waits (hw : x.phase = .admitWait) (ho : Dev.opcode x = 1) (ha : s.dev.canAdmit i x = false) :
    ActsOnQueues (.writeAdmission i) s fun b u => b = s.buf ∧ u = s.dev := by
  refine actsOnQueues_liftQueue (f := fun d b => d.writeAdmission b i) rfl hu ⟨rfl, ?_⟩
  simp [Dev.writeAdmission, hs, hw, ho, ha]

theorem holdLimitRefusal_answers (hw : x.phase = .admitWait) (ho : Dev.opcode x = 1) (hc : x.cls = .unreserved)
    (hp : s.dev.get Reg.BUF_STAT_PRESSURE = 1) : ActsOnQueues (.holdLimitRefusal i) s fun b u =>
      b = s.buf ∧ Refuses i 0x13 1 u ∧ Counts Reg.BUF_OUT_REFUSED_COUNT s.dev u ∧ KeepsRegs [Reg.BUF_OUT_REFUSED_COUNT] s.dev u ∧
      u.mech = s.dev.mech := by
  refine actsOnQueues_liftQueue (f := fun d _ => d.holdLimit i) rfl hu ?_
  have hl : s.dev.holdLimit i = (s.dev.refuseSlot i 0x13 1).count Reg.BUF_OUT_REFUSED_COUNT := by
    simp [Dev.holdLimit, hs, hw, ho, hc, hp, Dev.on]
  have hr := Dev.refuses_refuseSlot hs (by simp [hw]) 0x13 1 0
  rw [hl]
  refine ⟨rfl, hr, ?_, ?_, by simp⟩
  · rw [Counts, counts_count, Dev.refuseSlot_get]
  · exact keepsRegs_trans (keepsRegs_of_regs (Dev.refuseSlot_regs _ _ _ _ _) _) (keepsRegs_set _ _ _ (by simp))

theorem placeHoldTimeout_answers {k : Nat} {y : Blk} (hw : x.phase = .running) (ha : Dev.isAdmin x = false) (ho : Dev.opcode x = 0)
    (hk : k ∈ x.covers) (hb : s.dev.blk k = some y) (hy : y.phase = .staged) : ActsOnQueues (.placeHoldTimeout i) s fun b u =>
      b = s.buf ∧ Refuses i 0x13 8 u ∧ u.regs = s.dev.regs ∧ u.mech = s.dev.mech := by
  refine actsOnQueues_liftQueue (f := fun d _ => d.placeHold i) rfl hu ?_
  have hwait : x.covers.any (fun b => (s.dev.blk b).any fun z => z.phase == .staged || z.phase == .filling) = true :=
    List.any_eq_true.2 ⟨k, hk, by simp [hb, hy]⟩
  have hl : s.dev.placeHold i = s.dev.refuseSlot i 0x13 8 := by
    simp only [Dev.placeHold, hs]
    exact if_pos ⟨hw, by simp [ha], .inl ho, hwait⟩
  rw [hl]
  exact ⟨rfl, Dev.refuses_refuseSlot hs (by simp [hw]) _ _ _, by simp, by simp⟩

end
end Sys2Proof.Machine
end

section
/-! PROOFS. The data of a write reaches the buffer (R369). -/
namespace Sys2Proof.Machine

theorem actsOnQueues_liftQueueBuf {i : Instr} {s : State} {f : Dev → Memory → Dev × Memory} {P : Memory → Dev → Prop}
    (h : exec i s = liftQueueBuf s f) (hu : s.dev.up = true) (hp : P (f s.dev s.buf).2 (f s.dev s.buf).1) : ActsOnQueues i s P :=
  ⟨_, _, by rw [h, liftQueueBuf, liftBuf, if_pos hu], hp⟩

namespace Dev

/-- One sector is cut from as many bytes as a sector has. -/
theorem sectors_one {data : List Byte} (h : data.length = 4096) : sectors 1 data = [data] := by
  simp [sectors, h, List.take_of_length_le]

@[simp] theorem touch_slots (d : Dev) (a : Nat) : (d.touch a).slots = d.slots := by
  obtain ⟨r, h⟩ := d.touch_only a
  rw [h]

theorem stageSector_slots (w : StageInfo) (x : Dev × Memory × List Nat) (key : LKey) (k : Nat) (bytes : List Byte) :
    (stageSector w x key k bytes).1.slots = x.1.slots := by
  simp only [stageSector]
  split <;> simp [putBlk, apply_ite slots]

/-- The bytes of a sector go to its place in the block of its key. -/
theorem stageSector_buf (w : StageInfo) (x : Dev × Memory × List Nat) (key : LKey) (k : Nat) (bytes : List Byte) :
    (stageSector w x key k bytes).2.1 = x.2.1.writeBytes (x.1.stageAddr key k) bytes := rfl

theorem groupOf_congr {d t : Dev} (hr : t.regs = d.regs) (a : Nat) : t.groupOf a = d.groupOf a := by simp only [groupOf, get, hr]

theorem inReset_congr {d t : Dev} (hr : t.regs = d.regs) (n : Part) : t.inReset n = d.inReset n := by simp only [inReset, on, get, hr]

theorem freeUnit_congr {d t : Dev} (hr : t.regs = d.regs) (used : List Nat) (n u : Nat) : t.freeUnit used n u = d.freeUnit used n u := by
  induction n generalizing u with
  | zero => rfl
  | succ n ih => simp only [freeUnit, ih, groupOf_congr hr, inReset_congr hr]

/-- Where a sector is staged turns on the registers and the buffer alone. -/
theorem stageAddr_congr {d t : Dev} (hr : t.regs = d.regs) (hb : t.bufx = d.bufx) (key : LKey) (k : Nat) :
    t.stageAddr key k = d.stageAddr key k := by
  simp only [stageAddr, newAddr, hb, freeUnit_congr hr]

theorem stageAddr_finishSlot (d : Dev) (i status result : Nat) (key : LKey) (k : Nat) :
    (d.finishSlot i status result).stageAddr key k = d.stageAddr key k :=
  stageAddr_congr (finishSlot_regs d i status result) (finishSlot_bufx d i status result) key k

/-- Data of one sector is staged in one piece, once the command has ended; of the slots, only what the command covers changes then. -/
theorem stageAll_sector (d : Dev) (buf : Memory) (i : Nat) (x : Slot) (vol : Nat) (strm : Option Nat) (first : Nat) {data : List Byte}
    (hl : data.length = 4096) : (d.stageAll buf i x vol strm first data).2 =
      buf.writeBytes (d.stageAddr ⟨vol, strm, first / 16⟩ (first % 16)) data ∧
    ∃ (e : Dev) (cs : List Nat), e.slots = (d.finishSlot i 0).slots ∧
      (d.stageAll buf i x vol strm first data).1 = e.modSlot i fun t => { t with covers := cs } := by
  simp only [stageAll, hl, show (4096 + 4095) / 4096 = 1 from rfl, sectors_one hl, List.zipIdx_cons, List.zipIdx_nil, List.foldl_cons,
    List.foldl_nil, Nat.add_zero, stageSector_buf, stageAddr_finishSlot]
  exact ⟨trivial, _, _, stageSector_slots _ _ _ _ _, rfl⟩

end Dev

/-- A write of one sector ends with SUCCESS; the buffer holds its bytes at the sector's place, and elsewhere what it held. -/
theorem write_sector {s : State} {i : Nat} {x : Slot} (hu : s.dev.up = true) (hs : s.dev.slot i = some x) (ha : Dev.isAdmin x = false)
    {data : List Byte} (hw : x.phase = .running) (ho : Dev.opcode x = 1) (hn : Dev.dataLen x = 4096) (hl : data.length = 4096) :
    ActsOnQueues (.write i data) s fun b u => Ends i 0 u ∧
      (∀ k : Nat, k < 4096 →
        b.read (s.dev.stageAddr ⟨Dev.volOf x, none, Dev.slba x / 16⟩ (Dev.slba x % 16) + k) = data.getD k 0) ∧
      (∀ a : Nat, a < s.dev.stageAddr ⟨Dev.volOf x, none, Dev.slba x / 16⟩ (Dev.slba x % 16) ∨
        s.dev.stageAddr ⟨Dev.volOf x, none, Dev.slba x / 16⟩ (Dev.slba x % 16) + 4096 ≤ a → b.read a = s.buf.read a) := by
  refine actsOnQueues_liftQueueBuf (f := fun d b => d.write b i data) rfl hu ?_
  have hwrite : s.dev.write s.buf i data = s.dev.stageAll s.buf i x (Dev.volOf x) none (Dev.slba x) data := by
    simp [Dev.write, hs, Dev.inTransfer, hw, ha, ho, hn, hl]
  obtain ⟨hbuf, e, cs, hslots, hdev⟩ := s.dev.stageAll_sector s.buf i x (Dev.volOf x) none (Dev.slba x) hl
  obtain ⟨y, hy, hfin, hst⟩ := Dev.ends_finishSlot hs (by simp [hw]) 0 0
  rw [hwrite, hbuf, hdev, Dev.modSlot_eq _ ((Dev.slot_congr hslots i).trans hy)]
  refine ⟨⟨_, Dev.slot_setSlot_self _ _ _, hfin, hst⟩, fun k hk => ?_, fun a hout => ?_⟩
  · rw [Memory.read_writeBytes, if_pos (by omega), Nat.add_sub_cancel_left]
  · rw [Memory.read_writeBytes, if_neg (by omega)]

end Sys2Proof.Machine
end

section
/-! PROOFS. Reads, Verifies and Flushes of sectors that the device does not hold (R17, R370, R371). -/
namespace Sys2Proof.Machine
namespace Dev

/-- Neither the buffer nor a disc holds a sector. -/
structure HoldsNothing (d : Dev) : Prop where
  blocks : d.bufx.blocks = []
  map : d.arc.map = []

section
variable {d : Dev} (h : d.HoldsNothing) (bypass : Bool)
include h

theorem HoldsNothing.sectorSrc (key : LKey) (k : Nat) : d.sectorSrc bypass key k = .zeros := by
  simp [Dev.sectorSrc, holders, located, h.blocks, h.map]

theorem HoldsNothing.absentDisc (ps : List Piece) : d.absentDisc bypass ps = none := by
  simp [Dev.absentDisc, h.sectorSrc]

theorem HoldsNothing.bufferBytes (ps : List Piece) : d.bufferBytes ps = 0 := by
  simp only [Dev.bufferBytes, h.sectorSrc]
  induction ps with
  | nil => rfl
  | cons p ps ih => exact ih

theorem HoldsNothing.wantsOf (ps : List Piece) : d.wantsOf bypass ps = [] := by
  simp only [Dev.wantsOf, h.sectorSrc]
  induction ps with
  | nil => rfl
  | cons p ps ih => exact ih

theorem HoldsNothing.coversOf (ps : List Piece) : d.coversOf ps = [] := by
  simp [Dev.coversOf, h.blocks]

end

/-! ### What moves to the host -/

/-- Data for the host leaves the device, and nothing else happens. -/
theorem putHost_only (d : Dev) (x : Slot) (o : Nat) (bs : List Byte) : ∃ l, d.putHost x o bs = { d with out := l } := by
  unfold putHost
  generalize scatter (segments x) o bs = ws
  induction ws generalizing d with
  | nil => exact ⟨_, rfl⟩
  | cons w ws ih =>
    obtain ⟨l, h⟩ := ih (d.emit (.hostWrite x.port w.1 w.2))
    exact ⟨l, h⟩

/-- Serving a piece of a read touches the buffer's channels and sends data, and nothing else. -/
theorem servePiece_only (buf : Memory) (x : Slot) (d : Dev) (p : Piece) : ∃ r l, servePiece buf x d p = { d with regs := r, out := l } := by
  unfold servePiece
  split
  · rename_i a _
    obtain ⟨r, hr⟩ := d.touch_only (a + p.off)
    obtain ⟨l, hl⟩ := (d.touch (a + p.off)).putHost_only x p.dest (buf.readBytes (a + p.off) p.len)
    exact ⟨r, l, by rw [hl, hr]⟩
  · obtain ⟨l, hl⟩ := d.putHost_only x p.dest (List.replicate p.len 0)
    exact ⟨_, l, hl⟩
  · exact ⟨_, _, rfl⟩

theorem foldl_servePiece_only (buf : Memory) (x : Slot) (ps : List Piece) (d : Dev) :
    ∃ r l, ps.foldl (servePiece buf x) d = { d with regs := r, out := l } := by
  induction ps generalizing d with
  | nil => exact ⟨_, _, rfl⟩
  | cons p ps ih =>
    obtain ⟨r₁, l₁, h₁⟩ := servePiece_only buf x d p
    obtain ⟨r₂, l₂, h₂⟩ := ih (servePiece buf x d p)
    exact ⟨r₂, l₂, by rw [List.foldl_cons, h₂, h₁]⟩

/-! ### Commands with no media read to wait for -/

/-- A command that runs and has no media read left ends with SUCCESS. -/
theorem ends_finishWants {d : Dev} {i : Nat} {x : Slot} (hs : d.slot i = some x) (hr : x.phase = .running) (hw : x.wants = []) :
    Ends i 0 (d.finishWants i) ∧ (d.finishWants i).mech = d.mech := by
  have hfin : d.finishWants i = d.finishSlot i 0 x.result := by simp [finishWants, hs, hr, hw]
  rw [hfin]
  exact ⟨ends_finishSlot hs (by simp [hr]) _ _, finishSlot_mech _ _ _ _⟩

section
variable {d : Dev} {i : Nat} {x : Slot} (h : d.HoldsNothing)
include h

theorem HoldsNothing.startRead (hs : d.slot i = some x) (hl : x.lostXfer = false) (buf : Memory) (result : Nat) :
    Ends i 0 (d.startRead buf i x result) ∧ (d.startRead buf i x result).mech = d.mech := by
  obtain ⟨r, l, hserve⟩ := foldl_servePiece_only buf x (d.piecesOf x) d
  have hslot : ((d.piecesOf x).foldl (servePiece buf x) d).slot i = some x := by rw [hserve]; exact hs
  have hmech : ((d.piecesOf x).foldl (servePiece buf x) d).mech = d.mech := by rw [hserve]
  simp only [Dev.startRead, h.absentDisc, h.bufferBytes, runRead, hl, h.wantsOf, ne_eq, not_true_eq_false, false_and, if_false,
    if_true, Bool.false_eq_true]
  rw [modSlot_eq _ hslot, ← hmech]
  exact ends_finishWants (slot_setSlot_self _ _ _) rfl rfl

theorem HoldsNothing.startVerify (hs : d.slot i = some x) (hr : x.phase = .running) :
    Ends i 0 (d.startVerify i) ∧ (d.startVerify i).mech = d.mech := by
  simp only [Dev.startVerify, hs, h.absentDisc, h.wantsOf]
  exact ends_finishWants (slot_setSlot_self _ _ _) hr rfl

end

/-! ### Waits that are over -/

/-- The only slot in use is written. -/
theorem setSlot_only_slot {d : Dev} {i : Nat} {x : Slot} (h : d.slots = [(i, x)]) (y : Slot) : (d.setSlot i y).slots = [(i, y)] := by
  simp [h, Sparse.erase, Sparse.insert]

theorem takeLosses_none {d : Dev} (h : d.bufx.losses = []) (v : Nat) : d.takeLosses v = (d, 0) := by
  have hb : { d.bufx with losses := [] } = d.bufx := by rw [← h]
  simp only [takeLosses, modBufx, h, List.filter_nil, hb]
  rfl

section
variable (d : Dev) (i : Nat) {x : Slot} (ha : isAdmin x = false) (hr : x.phase = .running) (hc : x.covers = []) (he : x.earlier = [])
  (hw : x.wants = [])
include ha hr hc he hw

theorem waitOver_of_nothing (ho : opcode x = 0 ∨ opcode x = 4) : waitOver x = true :=
  decide_eq_true ⟨by simp [ha], hr, hc, he, hw, by omega⟩

theorem finishFlushes_verify (ho : opcode x = 4) : d.finishFlushes [(i, x)] = d.startVerify i := by
  simp [finishFlushes, waitOver_of_nothing ha hr hc he hw (.inr ho), ho]

theorem finishFlushes_flush (ho : opcode x = 0) (hl : d.bufx.losses = []) (hz : x.lost = 0) :
    d.finishFlushes [(i, x)] = d.finishSlot i 0 := by
  simp [finishFlushes, waitOver_of_nothing ha hr hc he hw (.inl ho), ho, takeLosses_none hl, hz]

end

end Dev

section
variable {s : State} {i : Nat} {x : Slot} (hu : s.dev.up = true) (hs : s.dev.slot i = some x) (ha : Dev.isAdmin x = false)
  (hf : x.phase = .fetched)
include hu hs ha hf

theorem read_of_nothing_held (h : s.dev.HoldsNothing) (ho : Dev.opcode x = 2) (hl : x.lostXfer = false) :
    ActsOnQueues (.read i) s fun b u => b = s.buf ∧ Ends i 0 u ∧ u.mech = s.dev.mech := by
  refine actsOnQueues_liftQueue (f := fun d b => d.read b i) rfl hu ⟨rfl, ?_⟩
  have hread : s.dev.read s.buf i = s.dev.startRead s.buf i x 0 := by simp [Dev.read, hs, hf, ha, ho]
  rw [hread]
  exact h.startRead hs hl s.buf 0

theorem verify_of_nothing_held (h : s.dev.HoldsNothing) (ho : Dev.opcode x = 4) (hone : s.dev.slots = [(i, x)]) (he : x.earlier = [])
    (hw : x.wants = []) : ActsOnQueues (.verify i) s fun b u => b = s.buf ∧ Ends i 0 u ∧ u.mech = s.dev.mech := by
  refine actsOnQueues_liftQueue (f := fun d _ => d.verify i) rfl hu ⟨rfl, ?_⟩
  have hverify : s.dev.verify i = (s.dev.setSlot i { x with phase := .running, covers := [], result := 0 }).startVerify i := by
    simp only [Dev.verify, hs, Dev.beginVerify, h.coversOf, Dev.force, List.foldl_nil, Dev.setSlot_only_slot hone]
    rw [if_neg (by simp [hf, ha, ho])]
    exact Dev.finishFlushes_verify _ _ ha rfl rfl he hw ho
  rw [hverify]
  exact Dev.HoldsNothing.startVerify ⟨h.blocks, h.map⟩ (Dev.slot_setSlot_self _ _ _) rfl

theorem flush_of_nothing_held (ho : Dev.opcode x = 0) (hb : s.dev.bufx.blocks = []) (hlo : s.dev.bufx.losses = []) (hz : x.lost = 0)
    (hw : x.wants = []) (hone : s.dev.slots = [(i, x)]) :
    ActsOnQueues (.flush i) s fun b u => b = s.buf ∧ Ends i 0 u ∧ u.mech = s.dev.mech := by
  refine actsOnQueues_liftQueue (f := fun d _ => d.flush i) rfl hu ⟨rfl, ?_⟩
  have hflush : s.dev.flush i = (s.dev.setSlot i { x with phase := .running, earlier := [], covers := [] }).finishSlot i 0 := by
    simp only [Dev.flush, hs, hone, hb, List.filter_cons, List.filter_nil, List.map_nil, Nat.lt_irrefl, false_and, decide_false,
      Bool.false_and, Bool.false_eq_true, if_false, Dev.force, List.foldl_nil, Dev.setSlot_only_slot hone]
    rw [if_neg (by simp [hf, ha, ho])]
    exact Dev.finishFlushes_flush _ _ ha rfl rfl rfl hw ho hlo hz
  rw [hflush]
  exact ⟨Dev.ends_finishSlot (Dev.slot_setSlot_self _ _ _) (by simp) _ _, Dev.finishSlot_mech _ _ _ _⟩

end
end Sys2Proof.Machine
end

section
/-! PROOFS. Aborts (R373), and obligation O42. -/
namespace Sys2Proof.Machine
namespace Dev

/-! ### Requests of an aborted command -/

theorem get_of_shared {d t : Dev} {f : Field} (h : t.shared = d.shared) (hf : f.key < 8 * 0x800000) : t.get f = d.get f := by
  have hv := congrFun (congrArg Prod.fst h) f
  simpa only [shared, if_pos hf] using hv

@[simp] theorem goatSync_mx (d : Dev) (m k : Mech) : (d.goatSync m).mx k = d.mx k := rfl
@[simp] theorem goatSync_slots (d : Dev) (m : Mech) : (d.goatSync m).slots = d.slots := rfl

@[simp] theorem shared_goatSync (d : Dev) (m : Mech) : (d.goatSync m).shared = d.shared := by
  simp (disch := (with_unfolding_all change 0x800000 ≤ (_ : Nat) + _; omega)) [goatSync, shared_set]

section
variable (d : Dev) (t : Nat) (m k : Mech)

theorem dropRequests_slots : (d.dropRequests t m).slots = d.slots := by
  simp [dropRequests]

theorem dropRequests_shared : (d.dropRequests t m).shared = d.shared := by
  simp [dropRequests]

/-- The requests of command `t` leave mechanism `m`; every other request stays where it is. -/
theorem mem_held_dropRequests (h : HeldReq) : h ∈ ((d.dropRequests t m).mx k).mch.held ↔
    h ∈ (d.mx k).mch.held ∧ (k = m → h.req.slot ≠ some t) := by
  by_cases hk : k = m
  · subst hk
    simp [dropRequests]
  · simp [dropRequests, hk, mx_modMech_ne]

end

section
variable (t : Nat) (l : List Mech) (d : Dev)

theorem foldl_dropRequests_slots : (l.foldl (fun d m => d.dropRequests t m) d).slots = d.slots := by
  induction l generalizing d with
  | nil => rfl
  | cons m l ih => exact (ih _).trans (d.dropRequests_slots t m)

theorem foldl_dropRequests_shared : (l.foldl (fun d m => d.dropRequests t m) d).shared = d.shared :=
  foldl_shared (fun d m => d.dropRequests_shared t m) l d

theorem mem_held_foldl_dropRequests (k : Mech) (h : HeldReq) : h ∈ ((l.foldl (fun d m => d.dropRequests t m) d).mx k).mch.held ↔
    h ∈ (d.mx k).mch.held ∧ (k ∈ l → h.req.slot ≠ some t) := by
  induction l generalizing d with
  | nil => simp
  | cons m l ih =>
    rw [List.foldl_cons, ih, mem_held_dropRequests, List.mem_cons, and_assoc, or_imp]

end

theorem abortable_not_finished {x : Slot} (h : abortable x = true) : x.phase ≠ .finished := by
  intro hf
  simp [abortable, hf] at h

/-! ### What an Abort does with the command that it names -/

theorem not_io_abort {t : Slot} (h : opcode t ≠ 8 ∨ isAdmin t = true) : ¬ (opcode t = 8 ∧ ¬ isAdmin t) :=
  fun ⟨ho, ha⟩ => h.elim (fun hne => hne ho) ha

/-- The slot, other than `i`, that holds the entry which the Abort in slot `i` names, where one does. -/
def abortTarget (d : Dev) (i : Nat) (x : Slot) (p : Port) (q : Pair) : Option (Nat × Slot) :=
  d.slots.find? (fun t => decide (t.1 ≠ i ∧ t.2.port = p ∧ t.2.pair = q.val ∧ t.2.index = bits (cdw x 0) 16 12))

theorem abortTarget_ne {d : Dev} {i j : Nat} {x t : Slot} {p : Port} {q : Pair} (h : d.abortTarget i x p q = some (j, t)) : i ≠ j := by
  have hj := List.find?_some h
  simp only [decide_eq_true_eq] at hj
  exact Ne.symm hj.1

section
variable {d : Dev} {i : Nat} {x : Slot} (hs : d.slot i = some x) (hf : x.phase = .fetched) (ha : isAdmin x = false) (ho : opcode x = 8)
  {p : Port} {q : Pair} (hp : p = if tbit (cdw x 0) 7 then .B else .A) (hq : q.val = cdw x 0 % 128)
include hs hf ha ho hp hq

/-- The entry named has been fetched: its command is in slot `j`. -/
theorem abort_fetched {j : Nat} {t : Slot} (hat : d.abortTarget i x p q = some (j, t)) : d.abort i =
    if opcode t = 8 ∧ ¬ isAdmin t then d.finishSlot i 2
    else if t.cid ≠ cdw x 1 % 65536 then (d.finishSlot i 9).count Reg.QE_ABORT_CNT_LATE
    else if abortable t then
      ((List.finRange 16).foldl (fun d m => d.dropRequests j m) ((d.finishSlot j 8).count Reg.QE_ABORT_CNT_ABORTED)).setSlot i
        { x with phase := .finished, status := 0, target := some j }
    else d.setSlot i { x with phase := .running, target := some j } := by
  rw [abortTarget, hq, hp] at hat
  simp only [abort, hs, hat]
  rw [if_neg (by simp [hf, ha, ho])]

/-- The slot named holds another command than the one meant. -/
theorem abort_other_cid {j : Nat} {t : Slot} (hat : d.abortTarget i x p q = some (j, t)) (hto : opcode t ≠ 8 ∨ isAdmin t = true)
    (hc : t.cid ≠ cdw x 1 % 65536) : d.abort i = (d.finishSlot i 9).count Reg.QE_ABORT_CNT_LATE := by
  rw [abort_fetched hs hf ha ho hp hq hat, if_neg (not_io_abort hto), if_pos hc]

/-- No slot holds the entry named. -/
theorem abort_unfetched (hat : d.abortTarget i x p q = none) : d.abort i =
    if (d.get (Reg.QE_QCTL_STATE p q) = 1 ∨ d.get (Reg.QE_QCTL_STATE p q) = 2) ∧ bits (cdw x 0) 16 12 < d.ringN p q ∧
        (bits (cdw x 0) 16 12 + d.ringN p q - d.get (Reg.QE_QPTR_SQ_HEAD p q)) % d.ringN p q < d.unfetched p q then
      (d.setSlot i { x with phase := .running }).modQe fun z =>
        { z with aborts := z.aborts ++ [(i, entryKey p q.val (bits (cdw x 0) 16 12))] }
    else (d.finishSlot i 9).count Reg.QE_ABORT_CNT_LATE := by
  obtain rfl : q = ⟨cdw x 0 % 128, Nat.mod_lt _ (by decide)⟩ := Fin.ext hq
  subst hp
  rw [abortTarget] at hat
  simp only [abort, hs, hat]
  rw [if_neg (by simp [hf, ha, ho])]

theorem abort_queue_stopped (hat : d.abortTarget i x p q = none) (h₁ : d.get (Reg.QE_QCTL_STATE p q) ≠ 1)
    (h₂ : d.get (Reg.QE_QCTL_STATE p q) ≠ 2) : d.abort i = (d.finishSlot i 9).count Reg.QE_ABORT_CNT_LATE := by
  rw [abort_unfetched hs hf ha ho hp hq hat, if_neg (by simp [h₁, h₂])]

end
end Dev

section
variable {s : State} {i : Nat} {x : Slot} (hu : s.dev.up = true) (hs : s.dev.slot i = some x) (hf : x.phase = .fetched)
include hu hs hf

/-- An Abort that comes too late ends so, and is counted. -/
theorem abort_too_late (he : s.dev.abort i = (s.dev.finishSlot i 9).count Reg.QE_ABORT_CNT_LATE) : ActsOnQueues (.abort i) s fun b u =>
    b = s.buf ∧ Ends i 9 u ∧ Counts Reg.QE_ABORT_CNT_LATE s.dev u ∧ KeepsRegs [Reg.QE_ABORT_CNT_LATE] s.dev u ∧ u.mech = s.dev.mech := by
  refine actsOnQueues_liftQueue (f := fun d _ => d.abort i) rfl hu ⟨rfl, ?_⟩
  have hend := Dev.ends_finishSlot hs (by simp [hf]) 9 0
  rw [he]
  refine ⟨hend, ?_, ?_, by simp⟩
  · rw [Counts, counts_count, Dev.finishSlot_get]
  · exact keepsRegs_trans (keepsRegs_of_regs (Dev.finishSlot_regs _ _ _ _) _) (keepsRegs_set _ _ _ (by simp))

variable (ha : Dev.isAdmin x = false) (ho : Dev.opcode x = 8) {p : Port} {q : Pair}
  (hp : p = if tbit (Dev.cdw x 0) 7 then .B else .A) (hq : q.val = Dev.cdw x 0 % 128)
include ha ho hp hq

section
variable {j : Nat} {t : Slot} (hat : s.dev.abortTarget i x p q = some (j, t))
include hat

/-- An Abort cannot be aborted: the one that names it ends with INVALID_FIELD. -/
theorem abort_of_abort (ht : s.dev.slot j = some t) (hto : Dev.opcode t = 8 ∧ Dev.isAdmin t = false) : ActsOnQueues (.abort i) s fun b u =>
    b = s.buf ∧ Ends i 2 u ∧ u.slot j = some t ∧ u.regs = s.dev.regs ∧ u.mech = s.dev.mech := by
  refine actsOnQueues_liftQueue (f := fun d _ => d.abort i) rfl hu ⟨rfl, ?_⟩
  have hend := Dev.ends_finishSlot hs (by simp [hf]) 2 0
  rw [Dev.abort_fetched hs hf ha ho hp hq hat, if_pos ⟨hto.1, by simp [hto.2]⟩]
  exact ⟨hend, (Dev.finishSlot_slot_ne _ _ _ _ (Dev.abortTarget_ne hat)).trans ht, by simp, by simp⟩

variable (hto : Dev.opcode t ≠ 8 ∨ Dev.isAdmin t = true) (ht : s.dev.slot j = some t) (hc : t.cid = Dev.cdw x 1 % 65536)
include hto ht hc

/-- The command named ends ABORTED, and its requests leave every mechanism. -/
theorem abort_ends_target (hab : Dev.abortable t = true) : ActsOnQueues (.abort i) s fun b u =>
    b = s.buf ∧ Ends j 8 u ∧ Counts Reg.QE_ABORT_CNT_ABORTED s.dev u ∧
    u.slot i = some { x with phase := .finished, status := 0, target := some j } ∧
    ∀ (m : Mech) (h : HeldReq), h ∈ (u.mx m).mch.held → h.req.slot ≠ some j := by
  refine actsOnQueues_liftQueue (f := fun d _ => d.abort i) rfl hu ⟨rfl, ?_⟩
  have hshared := Dev.foldl_dropRequests_shared j (List.finRange 16) ((s.dev.finishSlot j 8).count Reg.QE_ABORT_CNT_ABORTED)
  have hslots := Dev.foldl_dropRequests_slots j (List.finRange 16) ((s.dev.finishSlot j 8).count Reg.QE_ABORT_CNT_ABORTED)
  have hheld := Dev.mem_held_foldl_dropRequests j (List.finRange 16) ((s.dev.finishSlot j 8).count Reg.QE_ABORT_CNT_ABORTED)
  obtain ⟨y, hy, hfin, hst⟩ := Dev.ends_finishSlot ht (Dev.abortable_not_finished hab) 8 0
  rw [Dev.abort_fetched hs hf ha ho hp hq hat, if_neg (Dev.not_io_abort hto), if_neg (by simp [hc]), if_pos hab]
  generalize (List.finRange 16).foldl _ _ = e at *
  refine ⟨⟨y, ?_, hfin, hst⟩, ?_, Dev.slot_setSlot_self _ _ _, fun m h hm => ((hheld m h).1 hm).2 (List.mem_finRange m)⟩
  · rw [Dev.slot_setSlot_ne _ _ (Dev.abortTarget_ne hat), Dev.slot_congr hslots]
    exact hy
  · rw [Counts, Dev.setSlot_get, Dev.get_of_shared hshared (by decide), counts_count, Dev.finishSlot_get]

/-- The Abort waits for the command named, whose end is under way. -/
theorem abort_waits_target (hab : Dev.abortable t = false) : ActsOnQueues (.abort i) s fun b u =>
    b = s.buf ∧ u.slot i = some { x with phase := .running, target := some j } ∧ u.slot j = some t ∧ u.regs = s.dev.regs ∧
    u.mech = s.dev.mech := by
  refine actsOnQueues_liftQueue (f := fun d _ => d.abort i) rfl hu ⟨rfl, ?_⟩
  rw [Dev.abort_fetched hs hf ha ho hp hq hat, if_neg (Dev.not_io_abort hto), if_neg (by simp [hc]), if_neg (by simp [hab])]
  exact ⟨Dev.slot_setSlot_self _ _ _, (Dev.slot_setSlot_ne _ _ (Dev.abortTarget_ne hat)).trans ht, rfl, rfl⟩

end

/-- The Abort waits for the fetch of the entry that it names. -/
theorem abort_waits_fetch (hat : s.dev.abortTarget i x p q = none)
    (hst : s.dev.get (Reg.QE_QCTL_STATE p q) = 1 ∨ s.dev.get (Reg.QE_QCTL_STATE p q) = 2)
    (hn : bits (Dev.cdw x 0) 16 12 < s.dev.ringN p q)
    (hr : (bits (Dev.cdw x 0) 16 12 + s.dev.ringN p q - s.dev.get (Reg.QE_QPTR_SQ_HEAD p q)) % s.dev.ringN p q < s.dev.unfetched p q) :
    ActsOnQueues (.abort i) s fun b u => b = s.buf ∧ u.slot i = some { x with phase := .running } ∧
      u.qe.aborts = s.dev.qe.aborts ++ [(i, Dev.entryKey p q.val (bits (Dev.cdw x 0) 16 12))] ∧ u.regs = s.dev.regs ∧
      u.mech = s.dev.mech := by
  refine actsOnQueues_liftQueue (f := fun d _ => d.abort i) rfl hu ⟨rfl, ?_⟩
  rw [Dev.abort_unfetched hs hf ha ho hp hq hat, if_pos ⟨hst, hn, hr⟩]
  exact ⟨Dev.slot_setSlot_self _ _ _, rfl, rfl, rfl⟩

end

/-- Settles O42, one lemma for each outcome of a command. -/
theorem writesAndSectors : Obligations.WritesAndSectors := by
  refine ⟨fun s i x hu hs => ⟨writeAdmission_admits hu hs, writeAdmission_waits hu hs, holdLimitRefusal_answers hu hs,
    fun _ _ hw ha ho hk hb hy => placeHoldTimeout_answers hu hs hw ha ho hk hb hy⟩, fun s i x hu hs ha => ⟨?_, ?_, ?_, ?_, ?_⟩⟩
  · exact fun _ hw ho _ hn hl => write_sector hu hs ha hw ho hn hl
  · exact fun hf ho hb hm hl _ => read_of_nothing_held hu hs ha hf ⟨hb, hm⟩ ho hl
  · exact fun hf ho hb hm hone he hw => verify_of_nothing_held hu hs ha hf ⟨hb, hm⟩ ho hone he hw
  · exact fun hf ho hb hlo hz hw hone => flush_of_nothing_held hu hs ha hf ho hb hlo hz hw hone
  · intro p q at_ hf ho hp hq hat
    refine ⟨fun j t h ht hto => ?_, fun j t h ht hto hc => ⟨fun hab => ?_, fun hab => ?_⟩, fun h hst hn hr => ?_, fun h => ?_⟩
    · exact abort_of_abort hu hs hf ha ho hp hq (hat.symm.trans h) ht hto
    · exact abort_ends_target hu hs hf ha ho hp hq (hat.symm.trans h) hto ht hc hab
    · exact abort_waits_target hu hs hf ha ho hp hq (hat.symm.trans h) hto ht hc hab
    · exact abort_waits_fetch hu hs hf ha ho hp hq (hat.symm.trans h) hst hn hr
    · refine abort_too_late hu hs hf ?_
      obtain ⟨h, h₁, h₂⟩ | ⟨j, t, h, hto, hc⟩ := h
      · exact Dev.abort_queue_stopped hs hf ha ho hp hq (hat.symm.trans h) h₁ h₂
      · exact Dev.abort_other_cid hs hf ha ho hp hq (hat.symm.trans h) hto hc

end Sys2Proof.Machine
end
